-- ==== Sys2Proof/Word.lean ====
section
/-!
DEFINITION. The word types of the model: bytes, 64-bit registers, 52-bit device addresses held as plain numbers.
-/
namespace Sys2Proof

/-- One byte. -/
abbrev Byte := BitVec 8

/-- A 64-bit register or instruction word (R231, Notation of the scope chapter). -/
abbrev Word := BitVec 64

/-- A die number 0 to 5 (R11, R12). -/
abbrev DieId := Fin 6

/-- A host port number 0 to 5 (R21). -/
abbrev HostPort := Fin 6

/-- A fabric port number 0 to 35 (R21). -/
abbrev FabPort := Fin 36

/-- A 16-bit logical core ID: die [15:13], cluster [12:4], core [3:0] (R12). -/
abbrev CoreId := BitVec 16

/-- One 68-byte link unit (a flit on the fabric, a message on the host link): byte i is bits [8i+7:8i]. -/
abbrev Flit := BitVec 544

end Sys2Proof
end

