-- ==== Sys2Proof/Syntax.lean ====
section
/-!
DEFINITION. The commands of the block: one constructor per row of the table, with the row's operands. A command of a
core instruction carries the logical core that issues it and the low 56 bits of its word; the opcode byte is the
instruction's own (R233). A command written by a host carries the writing port.
-/
namespace Sys2Proof

/-- How a chain symbol arrives (R302): in a CHAIN flit on a fabric port (R350), or in a frame on CHAIN_IN (R591). -/
inductive SymbolArrival where
  | flit (port : FabPort) (flit : Flit)
  | frame (frame : BitVec 184)
  deriving DecidableEq, Repr

/-- The commands, in the table's order. Each docstring gives the row's mnemonic and rule. -/
inductive Instr where
  /-- POWER_APPLICATION (R509): The 72 V input is applied within its operating range and a module reset followed by bring-up begins. -/
  | powerApplication (addr0 addr1 : Bool)
  /-- RESET_N (R504): RESET_N is held low for 1 ms or more and the module is reset, keeping only module flash and the standby controller. -/
  | resetN
  /-- RESET_N_RELEASE (R590): RESET_N rises after a reset and bring-up begins from the start. -/
  | resetNRelease
  /-- RAILS_GOOD (R510): Every internal rail reaches its limits, PWR_GOOD rises and time T0 begins. -/
  | railsGood
  /-- RAILS_TIMEOUT (R510): The rails miss their limits within 100 ms, so the standby controller removes them and retries after 2 s, up to three attempts. -/
  | railsTimeout
  /-- RAILS_RETRY (R510): The 2 s wait after a failed rail attempt expires and the standby controller tries the rails again. -/
  | railsRetry
  /-- ROM_VERIFY (R557): A die controller's mask-ROM loader finishes verifying the flash firmware image, accepting it (raising the SVN floor if asked) or rejecting it. -/
  | romVerify (die : DieId) (response : List Byte)
  /-- ROM_DEADLINE (R522): T0 + 300 ms passes with no controller holding verified firmware, so the device enters RECOVERY. -/
  | romDeadline
  /-- ELECTION_ANNOUNCE (R494): A controller's announcement or TERM-bearing message arrives; the first one opens the election window, and a lead that sees a higher TERM steps down. -/
  | electionAnnounce (die : DieId) (term : BitVec 16)
  /-- ELECTION_WINDOW_CLOSE (R494): The 200 ms election window closes; the lowest announcing die becomes LEAD and the next becomes NEXT, and non-announcers are reset once. -/
  | electionWindowClose
  /-- REMAP_STAGE_DONE (R517): A die finishes REMAP: the retirement list is checked, remap registers are rebuilt or restored, and the die's PLL locks. -/
  | remapStageDone (die : DieId) (badA badB : Bool)
  /-- MEMORY_STAGE_DONE (R518): A die finishes training, testing and zeroing its HBM stacks and core stores, and its fabric ports begin training. -/
  | memoryStageDone (die : DieId) (hbmOk : BitVec 4)
  /-- CORES_STAGE_DONE (R519): A die finishes the mask-ROM core test of its slots and any fill self-tests this causes; when the last live die finishes, the device enters READY. -/
  | coresStageDone (die : DieId) (fails : List (BitVec 17))
  /-- STAGE_BOUND_EXPIRY (R513): A die exceeds the bound of its bring-up stage and is fenced. -/
  | stageBoundExpiry (die : DieId)
  /-- SMB_CSTATUS (R503): The SMBus CSTATUS read-byte command returns heartbeat, lead-die and PWR_GOOD status. -/
  | smbCstatus (addr : BitVec 7) (pec : Bool)
  /-- SMB_HBAGE (R503): The SMBus HBAGE read-word command returns the milliseconds since the last lead heartbeat. -/
  | smbHbage (addr : BitVec 7) (pec : Bool)
  /-- SMB_RESET (R503): The SMBus RESET command with byte 0x5A resets the module as RESET_N does. -/
  | smbReset (addr : BitVec 7) (b : Byte) (pec : Bool)
  /-- SMB_PWRCYCLE (R503): The SMBus PWRCYCLE command with byte 0xA5 removes every internal rail for 2 s and then restarts from power-good. -/
  | smbPwrcycle (addr : BitVec 7) (b : Byte) (pec : Bool)
  /-- PWR_CMD_RUN (R538): The owner port commands RUN and the device wakes from IDLE or SLEEP. -/
  | pwrCmdRun (port : HostPort)
  /-- PWR_CMD_IDLE (R531): The owner port commands IDLE, which is checked against the refusal conditions and entered if allowed. -/
  | pwrCmdIdle (port : HostPort)
  /-- PWR_CMD_SLEEP (R531): The owner port commands SLEEP, which is checked and entered, taking fabric ports dark. -/
  | pwrCmdSleep (port : HostPort)
  /-- PWR_CMD_DEEP (R531): The owner port commands DEEP, which is checked and entered, keeping only the banks and stacks selected in PWR_RETAIN. -/
  | pwrCmdDeep (port : HostPort)
  /-- PWR_CMD_OFF (R531): The owner port commands OFF, which is checked and entered, leaving only WAKE and the standby controller alive. -/
  | pwrCmdOff (port : HostPort)
  /-- POWER_ENTRY_COMPLETE (R531): Entry into a commanded power state completes, clearing BUSY and raising EV_PWR_STATE. -/
  | powerEntryComplete
  /-- WAKE (R538): The WAKE pin is held high for 10 µs or more and the device leaves IDLE, SLEEP, DEEP or OFF for RUN. -/
  | wake
  /-- SLEEP_WAKE_PLL_SWITCH (R539): After a wake from SLEEP, firmware switches a die's arrays, edge converter and vector unit to the locked PLL. -/
  | sleepWakePllSwitch (die : DieId)
  /-- INPUT_SAMPLE (R545): The standby controller takes its 1 µs input sample, updates the filtered input and sets or clears the sag warning. -/
  | inputSample (vin power : BitVec 16)
  /-- SAG_RESET (R546): The input stays below 58 V or above 80 V for 20 µs and the TX4 carries out a module reset. -/
  | sagReset
  /-- INPUT_RESTORED (R547): The input has stayed within 66 V to 78 V for 100 ms after a sag reset and bring-up starts, unless the device was OFF. -/
  | inputRestored
  /-- STANDBY_STOP (R547): The input falls below 40 V and the standby controller stops. -/
  | standbyStop
  /-- DROOP_DETECT (R548): A cluster's rail falls 4 % below its setpoint and its clock is stretched. -/
  | droopDetect (die : DieId) (cluster : BitVec 9)
  /-- STRETCH_END (R548): The rail has stayed above the threshold for 64 consecutive cycles and the cluster's stretch ends. -/
  | stretchEnd (die : DieId) (cluster : BitVec 9)
  /-- BROWNOUT (R544): The always-on domain draws more than 2 A for 10 µs in low-power regulator mode; the die browns out and is fenced. -/
  | brownout (die : DieId)
  /-- COOLANT_SENSOR_READ (R593): The 100 ms coolant sensor read updates the temperatures and flow, detects sensor faults and applies the limit and warning responses. -/
  | coolantSensorRead (tin tout : BitVec 12) (pulses : BitVec 16) (tj : BitVec 48)
  /-- THERMAL_TRIP (R595): A junction exceeds 110 °C; THERMTRIP_N falls, every die is held in reset and resets are ignored until the standby controller stops. -/
  | thermalTrip
  /-- HEARTBEAT_SEND (R497): On a beat that is a multiple of 4,096, or on the timer when the chain is unlocked, the lead sends its heartbeat and the other controllers answer. -/
  | heartbeatSend
  /-- HEARTBEAT_MISS (R497): A heartbeat or answer fails to arrive one-eighth of an interval after it was due, and the miss count rises. -/
  | heartbeatMiss (die : DieId)
  /-- CONTROLLER_REJOIN_TIMEOUT (R501): A reset controller fails to rejoin within 500 ms and its die is fenced. -/
  | controllerRejoinTimeout (die : DieId)
  /-- CONTROLLER_REJOIN (R501): A reset controller rejoins as FOLLOWER, or as NEXT when none exists. -/
  | controllerRejoin (die : DieId)
  /-- DIE_HW_FAULT (R501): A die's hardware status reports a rail, clock or brown-out fault, or does not answer within 1 ms, and the die is fenced. -/
  | dieHwFault (die : DieId)
  /-- JOURNAL_MIRROR_ACK (R496): NEXT acknowledges a mirrored journal record and the lead carries out the recorded action. -/
  | journalMirrorAck (seq : Word) (closed : Bool)
  /-- JOURNAL_ACK_TIMEOUT (R496): No acknowledgement arrives within 1 ms after three sends; the lead treats NEXT as failed, appoints another and re-mirrors, or acts solo. -/
  | journalAckTimeout
  /-- RETIREMENT (R481): A retirement is carried out as soon as R17 allows: it is written to flash, the remap changes, and a fill starts or the cluster becomes short. -/
  | retirement
  /-- SPR_CMD_RETIRE (R506): The owner port commands retirement of a named slot, which is carried out as R17 allows unless refused. -/
  | sprCmdRetire (port : HostPort) (pcore : BitVec 17)
  /-- SPR_CMD_APPROVE (R506): The owner port approves the oldest pending retirement request. -/
  | sprCmdApprove (port : HostPort)
  /-- SPR_CMD_DECLINE (R506): The owner port declines the oldest pending retirement request, and its slot stays in service. -/
  | sprCmdDecline (port : HostPort)
  /-- FILL_SELF_TEST_DONE (R484): A fill's mask-ROM self-test of the former spare ends in a pass or a fail. -/
  | fillSelfTestDone (die : DieId) (cluster : BitVec 9) (pass : Bool)
  /-- FILL_BUSHEL_DONE (R484): A fill's run of the RTEST bushel on the slot ends in a pass or a fail. -/
  | fillBushelDone (die : DieId) (cluster : BitVec 9) (sound : Bool)
  /-- FILL_CONTENT_DONE (R484): A fill finishes copying program tiles, registers and resident content; FILL clears and EV_SPR_FILL_DONE is raised. -/
  | fillContentDone (die : DieId) (cluster : BitVec 9) (ue : List (BitVec 52))
  /-- PLAN_LOAD (R296): PLAN_CMD LOAD starts a plan load that checks, verifies, binds and writes the image. -/
  | planLoad (port : HostPort) (ue : List (BitVec 52))
  /-- PLAN_LOAD_COMPLETE (R296): A plan load finishes its writes, possibly after waiting for fills; STATE becomes LOADED, or a failure returns it to EMPTY. -/
  | planLoadComplete (part : DieId) (ue : List (BitVec 52))
  /-- PLAN_UNLOAD (R297): PLAN_CMD UNLOAD returns a LOADED partition to EMPTY, invalidating its routes and setting its ports UNUSED. -/
  | planUnload (port : HostPort)
  /-- PLAN_STOP (R310): PLAN_CMD STOP cancels a pending start, or lets the step in progress finish and then starts no further step. -/
  | planStop (port : HostPort)
  /-- PLAN_RUN (R310): A write of PLAN_RUN is checked and, when accepted, sets STATE to RUNNING with the first step at the given beat. -/
  | planRun (port : HostPort) (beat : Word)
  /-- CHAIN_SYMBOL (R303): A chain symbol arrives by CHAIN flit or CHAIN_IN frame; it is checked, forwarded, and drives acquisition, relock or conflict counting. -/
  | chainSymbol (arrival : SymbolArrival) (residence : BitVec 16)
  /-- CHAIN_CONFLICT (R307): Sixteen consecutive valid symbols disagree with the expected count; the chain becomes UNLOCKED and steps in progress abort at once. -/
  | chainConflict
  /-- CHAIN_BEAT_APPLY (R304): A valid symbol's apply time arrives and its beat is applied to the chain count. -/
  | chainBeatApply
  /-- LOCAL_MASTER_BEAT (R305): In local mode the TX4 emits a beat from its PLL and applies it at emission + H. -/
  | localMasterBeat
  /-- CHAIN_WINDOW_MISS (R306): A LOCKED window passes with no valid symbol; the beat is generated locally and the chain enters HOLDOVER. -/
  | chainWindowMiss
  /-- HOLDOVER_BEAT (R306): A beat is generated locally at the predicted phase in HOLDOVER or LOST. -/
  | holdoverBeat
  /-- CHAIN_LOST (R306): Holdover reaches 65,536 local beats and the chain enters LOST; no new steps start. -/
  | chainLost
  /-- STEP_START (R310): A step's start beat arrives; reversals apply, the region is packed, tallies are zeroed, formats are published, lanes are snapshotted and degradation is re-evaluated. -/
  | stepStart (part : DieId)
  /-- SCHEDULE_BEAT (R311): On each beat of a step the due schedule entries fire if ready, or the schedule slides by one beat. -/
  | scheduleBeat (part : DieId) (ue : List (BitVec 52))
  /-- VOTE_DEADLINE (R311): The VOTE deadline beat arrives with the vote unfired, so the vote fires unclean with EV_STEP_OVERRUN. -/
  | voteDeadline (part : DieId)
  /-- FLIP_BEAT (R326): On the flip beat the partition decides to commit, abort or hold for a drain. -/
  | flipBeat (part : DieId)
  /-- HOLD_ROUND (R326): A hold round beat arrives; the partition commits, or holds again, or abandons its drain and commits at HOLDMAX. -/
  | holdRound (part : DieId)
  /-- DRAIN_COMPLETE (R333): The last byte of a drained image is written and CTX_DSTAT becomes DONE. -/
  | drainComplete (part : DieId)
  /-- STEP_CTAB_WRITE (R320): A write of STEP_CTAB while LOADED checks the commit table and installs or refuses it. -/
  | stepCtabWrite (port : HostPort) (value : Word)
  /-- STEP_STREAM_WRITE (R331): A write of STEP_STREAM sets every core's stream and, while LIMIT is set, resets the step counter. -/
  | stepStreamWrite (port : HostPort) (value : Word)
  /-- STEP_CTR_WRITE (R331): A write of STEP_CTR while LOADED sets the number of the next step. -/
  | stepCtrWrite (port : HostPort) (value : Word)
  /-- CTX_SAVE (R338): CTX_CMD SAVE while LOADED starts a drain of the committed state to CTX_DHOST. -/
  | ctxSave (port : HostPort) (ue : List (BitVec 52))
  /-- CTX_RESTORE (R339): CTX_CMD RESTORE checks a context image and loads its tensors, fall-back state, routing, counters and lanes. -/
  | ctxRestore (port : HostPort) (ue : List (BitVec 52))
  /-- CTX_RESTORE_COMPLETE (R340): A restore finishes its lane checks and CTX_STAT becomes RUNNABLE or NOT_RUNNABLE. -/
  | ctxRestoreComplete (part : DieId)
  /-- FMT_REVERT_WRITE (R184): A write of FMT_REVERT arms a reversal for one layer or all layers at a target step, or is refused. -/
  | fmtRevertWrite (port : HostPort) (value : Word)
  /-- RNG_BACKSTEP_WRITE (R206): A write of RNG_BACKSTEP starts a one-draw backstep of the selected lanes, or is refused. -/
  | rngBackstepWrite (port : HostPort) (core : CoreId) (value : Word)
  /-- BACKSTEP_COMPLETE (R206): A backstep completes within 200 cycles and BKBUSY clears. -/
  | backstepComplete (core : CoreId)
  /-- GILL_RESET_WRITE (R151): A write of GILL_CTL.RESET requests a reset of GILL_STAT.FILL, pending while a conversion is in flight. -/
  | gillResetWrite (port : HostPort) (core : CoreId)
  /-- GILL_RESET_APPLY (R151): The conversion in flight completes and the pending gill reset sets FILL to 0. -/
  | gillResetApply (core : CoreId)
  /-- SOP (R237): The sequencer computes a scalar operation of two registers. -/
  | sop (core : CoreId) (w : BitVec 56)
  /-- SOPI (R237): The sequencer computes a scalar operation of a register and an immediate. -/
  | sopi (core : CoreId) (w : BitVec 56)
  /-- SLIH (R236): The sequencer loads an immediate into the upper 32 bits of a scalar. -/
  | slih (core : CoreId) (w : BitVec 56)
  /-- SCMP (R237): The sequencer compares two scalars into a predicate. -/
  | scmp (core : CoreId) (w : BitVec 56)
  /-- SCSR (R238): The sequencer reads and/or writes a register of the core's own window. -/
  | scsr (core : CoreId) (w : BitVec 56)
  /-- BR (R239): The sequencer branches by an immediate and links. -/
  | br (core : CoreId) (w : BitVec 56)
  /-- BRR (R239): The sequencer branches to a register and links, faulting on misalignment. -/
  | brr (core : CoreId) (w : BitVec 56)
  /-- WBEAT (R262): The sequencer waits until the schedule reaches a beat offset. -/
  | wbeat (core : CoreId) (w : BitVec 56)
  /-- BAR (R263): The core waits at a plan barrier. -/
  | bar (core : CoreId) (w : BitVec 56)
  /-- FENCE (R241): The sequencer waits until earlier instructions of the named units complete. -/
  | fence (core : CoreId) (w : BitVec 56)
  /-- LFMT (R264): The sequencer reads a layer's current format into a scalar. -/
  | lfmt (core : CoreId) (w : BitVec 56)
  /-- LOSS (R265): The core hands a loss value to the step-commit logic. -/
  | loss (core : CoreId) (w : BitVec 56)
  /-- STEPEND (R266): The core waits for all its units and DMA, then becomes DONE for the step. -/
  | stepend (core : CoreId) (w : BitVec 56)
  /-- NOP (R236): The sequencer issues an instruction that does nothing. -/
  | nop (core : CoreId) (w : BitVec 56)
  /-- ILLEGAL_INSTRUCTION (R234): An instruction with an unknown opcode or a broken field rule is issued and the core stops. -/
  | illegalInstruction (core : CoreId) (w : Word)
  /-- LDS (R240): The memory unit loads 8 bytes from the core's stride into a scalar. -/
  | lds (core : CoreId) (w : BitVec 56)
  /-- STS (R240): The memory unit stores 8 bytes from a scalar into the core's stride. -/
  | sts (core : CoreId) (w : BitVec 56)
  /-- VLD (R240): The memory unit loads 128 bytes into a vector register. -/
  | vld (core : CoreId) (w : BitVec 56)
  /-- VST (R240): The memory unit stores 128 bytes from a vector register. -/
  | vst (core : CoreId) (w : BitVec 56)
  /-- DMA (R242): The core hands a 32-byte descriptor to the cluster DMA under a tag. -/
  | dma (core : CoreId) (w : BitVec 56)
  /-- DMA_DESCRIPTOR_COMPLETE (R243): The cluster DMA finishes moving or sending a descriptor's tiles, after checking the whole descriptor first. -/
  | dmaDescriptorComplete (core : CoreId) (index : Nat) (ue : List (BitVec 52))
  /-- DMAW (R242): The sequencer waits until no descriptor of the named tags is outstanding. -/
  | dmaw (core : CoreId) (w : BitVec 56)
  /-- WLOAD (R245): A weight-bank load is queued on the array queue. -/
  | wload (core : CoreId) (w : BitVec 56)
  /-- AMUL (R91): An AMUL is queued to stream activation vectors through the enabled arrays into a panel. -/
  | amul (core : CoreId) (w : BitVec 56)
  /-- ARRAY_QUEUE_DISPATCH (R268): The head of the array queue dispatches once the bus, bank and panel spacing allow, after a same-format check for an AMUL. -/
  | arrayQueueDispatch (core : CoreId)
  /-- BANK_LOAD_COMPLETE (R83): The 32nd row of a bank load is written and the bank becomes valid, with ARR_BANK updated. -/
  | bankLoadComplete (core : CoreId) (array : BitVec 2) (bank : Bool)
  /-- ACCUMULATOR_ROW_WRITEBACK (R108): A partial-sum vector reaches the accumulator row; any high blocks and due promotions are applied and the run state is written back. -/
  | accumulatorRowWriteback (core : CoreId) (upset : Option (BitVec 12 × BitVec 32))
  /-- PSPILL (R125): A panel is closed and written to a spill record in the hogshead. -/
  | pspill (core : CoreId) (w : BitVec 56)
  /-- PRESUME (R126): A panel is replaced by a spill record, or stops the core on a bad header. -/
  | presume (core : CoreId) (w : BitVec 56)
  /-- POUT (R121): A panel is closed, gill products are added, pairs are folded, the fused operation is applied, and the result is converted out. -/
  | pout (core : CoreId) (w : BitVec 56)
  /-- EDGE_QUEUE_DISPATCH (R268): The head of the edge queue dispatches when its panel and the converter are free. -/
  | edgeQueueDispatch (core : CoreId) (ue : List (BitVec 52))
  /-- NARROW (R142): The edge converter narrows a tensor view with rotation, outlier extraction, scale selection and rounding. -/
  | narrow (core : CoreId) (w : BitVec 56)
  /-- WIDEN (R157): The edge converter widens a tensor view into a wide format. -/
  | widen (core : CoreId) (w : BitVec 56)
  /-- VF (R251): The vector unit performs a floating-point operation in each active lane. -/
  | vf (core : CoreId) (w : BitVec 56)
  /-- VCMP (R252): The vector unit compares lanes into a predicate. -/
  | vcmp (core : CoreId) (w : BitVec 56)
  /-- VCVT (R253): The vector unit converts between wide formats, optionally rounding stochastically. -/
  | vcvt (core : CoreId) (w : BitVec 56)
  /-- VRED (R255): The vector unit reduces the active lanes by sum, maximum, minimum or argmax. -/
  | vred (core : CoreId) (w : BitVec 56)
  /-- VPRD (R256): The vector unit closes a panel and reads one row of it into a vector. -/
  | vprd (core : CoreId) (w : BitVec 56)
  /-- VSSQ (R261): The vector unit adds a sum of squares into a norm accumulator. -/
  | vssq (core : CoreId) (w : BitVec 56)
  /-- NRD (R261): The vector unit reads, and optionally clears, a norm accumulator. -/
  | nrd (core : CoreId) (w : BitVec 56)
  /-- VOPT (R260): The vector unit applies the fused optimiser update to 32 master weights. -/
  | vopt (core : CoreId) (w : BitVec 56)
  /-- VI (R254): The vector unit performs a 32-bit integer operation. -/
  | vi (core : CoreId) (w : BitVec 56)
  /-- VSEL (R254): The vector unit selects lanes by a predicate. -/
  | vsel (core : CoreId) (w : BitVec 56)
  /-- VBCAST (R254): The vector unit broadcasts a scalar to active lanes. -/
  | vbcast (core : CoreId) (w : BitVec 56)
  /-- VIDX (R254): The vector unit writes the lane index plus a scalar. -/
  | vidx (core : CoreId) (w : BitVec 56)
  /-- VMOVS (R254): The vector unit moves one lane to a scalar. -/
  | vmovs (core : CoreId) (w : BitVec 56)
  /-- PLOG (R254): The vector unit performs predicate logic or moves a predicate. -/
  | plog (core : CoreId) (w : BitVec 56)
  /-- VRAND (R257): The vector unit takes random draws and forms a distribution per lane. -/
  | vrand (core : CoreId) (w : BitVec 56)
  /-- VGUMBEL (R258): The vector unit adds temperature-scaled Gumbel noise to scores. -/
  | vgumbel (core : CoreId) (w : BitVec 56)
  /-- FAB_LINK_FLIT (R350): A fabric LINK flit arrives, returning credits and acknowledgements or a NAK that triggers a resend. -/
  | fabLinkFlit (port : FabPort) (flit : Flit)
  /-- FAB_HEAD_FLIT (R353): A fabric HEAD flit arrives and opens a packet on its VC, or is handled as a link error. -/
  | fabHeadFlit (port : FabPort) (flit : Flit)
  /-- FAB_DATA_FLIT (R351): A fabric data flit arrives; the 64th completes a tile packet, which is accepted and routed. -/
  | fabDataFlit (port : FabPort) (flit : Flit)
  /-- PACKET_SEND (R360): A queued packet is sent once the output has credits for the whole packet and priority allows. -/
  | packetSend (port : FabPort)
  /-- FAB_STALL_DROP (R361): A HEAD waits at an output longer than STALLT and is dropped with its data. -/
  | fabStallDrop (port : FabPort) (vc : BitVec 2)
  /-- FAB_REPLAY_TIMEOUT (R356): The replay buffer holds unreleased flits for 16 µs and the sender resends from the oldest HEAD. -/
  | fabReplayTimeout (port : FabPort)
  /-- FAB_NAK_HOLDOFF_EXPIRY (R355): 2 µs pass after a NAK without the expected HEAD, so a further NAK may be sent. -/
  | fabNakHoldoffExpiry (port : FabPort)
  /-- FAB_LANE_SIGNAL_LOSS (R357): A lane loses signal or lock for 1 µs and the port goes DOWN. -/
  | fabLaneSignalLoss (port : FabPort)
  /-- FAB_SIGNAL_APPEAR (R371): Optical signal appears on all 8 receive lanes of an enabled DARK port and a training attempt starts. -/
  | fabSignalAppear (port : FabPort)
  /-- FAB_TRAINING_RETRY (R371): A DARK port with signal present retries training every 1 s. -/
  | fabTrainingRetry (port : FabPort)
  /-- FAB_LANE_LOCK_DONE (R371): Lane lock, equalisation and deskew complete and DISC exchange begins. -/
  | fabLaneLockDone (port : FabPort)
  /-- FAB_TRAINING_TIMEOUT (R371): A training stage misses its bound and the port returns to DARK. -/
  | fabTrainingTimeout (port : FabPort)
  /-- FAB_DISC_FLIT (R372): A DISC flit arrives; it records the peer during training, or brings an UP port DOWN if the peer changed. -/
  | fabDiscFlit (port : FabPort) (flit : Flit)
  /-- FAB_PROBE_FLIT (R371): A PROBE flit arrives and is answered with an ECHO. -/
  | fabProbeFlit (port : FabPort) (flit : Flit)
  /-- FAB_ECHO_FLIT (R371): An ECHO arrives; after 64 exchanges the delay is written to CHN_DLYp and the port is UP. -/
  | fabEchoFlit (port : FabPort) (flit : Flit)
  /-- FAB_COMPARE (R373): FAB_CMD COMPARE sets every port's plan state against the FABRIC section in force. -/
  | fabCompare (port : HostPort)
  /-- FAB_RETRAIN (R376): FAB_CMD RETRAIN returns every DOWN port of the partition to DARK so that it trains. -/
  | fabRetrain (port : HostPort)
  /-- FAB_PLAN_ACK (R377): A write of FAB_PLAN_ACK checks, verifies and installs a revised FABRIC section, then runs a comparison. -/
  | fabPlanAck (port : HostPort) (value : Word) (ue : List (BitVec 52))
  /-- FAB_PORT_ENABLE (R381): A write of EN = 1 lets a port train, counting as the appearance of signal. -/
  | fabPortEnable (host : HostPort) (port : FabPort)
  /-- FAB_PORT_DISABLE (R381): A write of EN = 0 holds a port DARK; a MATCH port becomes MISSING without an event. -/
  | fabPortDisable (host : HostPort) (port : FabPort)
  /-- FAB_PARTSLICE_WRITE (R367): The owner port sets a partition's slice, refused while that partition runs. -/
  | fabPartsliceWrite (port : HostPort) (part : DieId) (slice : Byte)
  /-- RETRACT_MESSAGE (R401): A RETRACT arrives; records in its range are marked retracted and the partition may become poisoned. -/
  | retractMessage (part : DieId) (body : BitVec 320) (src : BitVec 12)
  /-- DEGRADE_MESSAGE (R409): A DEGRADE reaches rank 0, which then reports the group in its VOTE. -/
  | degradeMessage (part : DieId) (body : BitVec 320) (src : BitVec 12)
  /-- SCOPE_VOTE (R404): A child's VOTE arrives and is combined, and the partition sends once its own vote and all children are in. -/
  | scopeVote (part : DieId) (src : BitVec 12) (sender : BitVec 256) (scruple : Word) (tile : List Byte)
  /-- UPDEADLINE_EXPIRY (R404): UPDEADLINE arrives and the partition combines and sends with the votes it has, or the root decides. -/
  | updeadlineExpiry (part : DieId)
  /-- SCOPE_DECISION (R405): A DECISION arrives; it is forwarded to the children and counts towards the flip. -/
  | scopeDecision (part : DieId) (src : BitVec 12) (sender : BitVec 256) (scruple : Word) (tile : List Byte)
  /-- SCOPE_DONE (R406): A DONE arrives from a child and is passed up when the drain condition holds; at the root an ALLDONE is sent. -/
  | scopeDone (part : DieId) (src : BitVec 12) (sender : BitVec 256) (scruple : Word) (tile : List Byte)
  /-- SCOPE_ALLDONE (R406): An ALLDONE arrives, is forwarded, and lets hold rounds from ROUND commit. -/
  | scopeAlldone (part : DieId) (src : BitVec 12) (sender : BitVec 256) (scruple : Word) (tile : List Byte)
  /-- HLK_LINK_FLIT (R419): A Melard LINK flit arrives with credits, a NAK or a write-stream tile count. -/
  | hlkLinkFlit (port : HostPort) (flit : Flit)
  /-- HLK_IDENT_FLIT (R419): An IDENT flit arrives from the adapter. -/
  | hlkIdentFlit (port : HostPort) (serial : Word) (sender : BitVec 3)
  /-- HLK_IDENT_TIMER (R419): The TX4 sends IDENT every 1 s on a trained port. -/
  | hlkIdentTimer (port : HostPort)
  /-- HLK_MRD (R423): A host read request is carried out against the port's partition window and answered with a CPL. -/
  | hlkMrd (port : HostPort) (tag : BitVec 12) (addr : Word) (len : BitVec 32) (ue : Bool)
  /-- HLK_MWR (R423): A host write is carried out against the window, keeping the tile's scruple in step. -/
  | hlkMwr (port : HostPort) (addr : Word) (len : BitVec 32) (sv : Bool) (scruple : Word) (data : List Byte)
  /-- HLK_CPL (R429): A completion for a TX4 read arrives and feeds a queue fetch or a COPY_IN. -/
  | hlkCpl (port : HostPort) (tag : BitVec 12) (status : BitVec 3) (sv : Bool) (scruple : Word) (data : List Byte)
  /-- HLK_READ_TIMEOUT (R435): A TX4 read has no completion after 10 ms and its queue or drain is treated as on a DOWN port. -/
  | hlkReadTimeout (port : HostPort) (tag : BitVec 12)
  /-- HLK_LANE_SIGNAL_LOSS (R418): A host port loses a lane, or the same HEAD is resent 8 times, and the port goes DOWN. -/
  | hlkLaneSignalLoss (port : HostPort)
  /-- HLK_RETRAIN_TIMER (R418): 100 ms after going DOWN a host port returns to training by itself. -/
  | hlkRetrainTimer (port : HostPort)
  /-- HLK_DOORBELL (R428): A doorbell write sets a queue's TAIL, or stops the queue if invalid. -/
  | hlkDoorbell (port : HostPort) (queue : BitVec 4) (value : Word)
  /-- QUEUE_ENABLE (R440): A write of EN = 1 starts a copy queue from its first positions. -/
  | queueEnable (port : HostPort) (queue : BitVec 4) (value : Word)
  /-- QUEUE_DISABLE (R430): A write of EN = 0 stops fetching, lets started entries finish and aborts fetched ones. -/
  | queueDisable (port : HostPort) (queue : BitVec 4) (value : Word)
  /-- QUEUE_ENTRY_START (R429): A fetched entry starts when fewer than four are in flight and its ORDER condition holds. -/
  | queueEntryStart (part : DieId) (queue : BitVec 4)
  /-- QUEUE_ENTRY_COMPLETE (R429): A copy entry completes and its completion record is written in ring order, with an INTR if asked. -/
  | queueEntryComplete (part : DieId) (queue : BitVec 4) (ue : List (BitVec 52))
  /-- OWNER_CLAIM (R434): HLK_OWNCMD CLAIM submits a signed ownership claim for the port. -/
  | ownerClaim (port : HostPort)
  /-- OWNER_CLAIM_DECIDE (R434): The claim is decided within 5 ms; HOLD is set or EV_HLK_CLAIM_BAD is raised, and the nonce changes. -/
  | ownerClaimDecide
  /-- OWNER_RELEASE (R434): HLK_OWNCMD RELEASE removes the port's HOLD bit. -/
  | ownerRelease (port : HostPort)
  /-- PARTITION_LAYOUT_CHANGE (R437): HLK_PARTCMD with a new PARTS scrubs affected dies, resets queues and slices, and sets the layout and roles. -/
  | partitionLayoutChange (port : HostPort) (value : Word)
  /-- PARTITION_ROLE_CHANGE (R437): HLK_PARTCMD with the same PARTS changes only port roles. -/
  | partitionRoleChange (port : HostPort) (value : Word)
  /-- PARTITION_COMMAND_COMPLETE (R437): A partition command finishes and HLK_PARTCFG.BUSY clears. -/
  | partitionCommandComplete
  /-- DIAGNOSIS (R461): After an abort, each capture's tail is replayed on the failing and capture slots and the failure is classified. -/
  | diagnosis (part : DieId) (index : Nat) (failing taken : List (BitVec 12 × BitVec 32))
  /-- CHK_LOGACK (R477): A write of CHK_LOGACK frees the oldest fault log records. -/
  | chkLogack (port : HostPort) (die : DieId) (value : Word)
  /-- TEST_BINST (R469): The owner port submits a bushel image for a slot; its format and signature are checked. -/
  | testBinst (port : HostPort) (value : Word) (ue : List (BitVec 52))
  /-- FLASH_WRITE_COMPLETE (R559): A queued flash write of firmware, a bushel, the key table or a retirement completes. -/
  | flashWriteComplete
  /-- ROLLING_COPY_COMPLETE (R471): A rolling test's boundary copy completes and the SWAP entry becomes ready. -/
  | rollingCopyComplete (die : DieId) (cluster : BitVec 9)
  /-- ROLLING_TEST_COMPLETE (R472): The freed slot finishes the RTEST bushel; on a pass the copy back begins, and on a fail the slot is retired. -/
  | rollingTestComplete (die : DieId) (cluster : BitVec 9) (defect : Option (BitVec 16))
  /-- SWAP_BACK_COPY_COMPLETE (R471): The copy back to the tested slot completes, and with no plan running the switch back happens at once. -/
  | swapBackCopyComplete (die : DieId) (cluster : BitVec 9)
  /-- TEST_CMD (R474): The owner port requests a whole-device test, which starts, is refused as busy, or forces running plans to abort. -/
  | testCmd (port : HostPort) (value : Word)
  /-- DEVICE_TEST_START (R474): A forced test starts once any drain in progress has ended. -/
  | deviceTestStart
  /-- DEVICE_TEST_COMPLETE (R474): A whole-device test ends; failing slots are reported and cores are reloaded from the plan. -/
  | deviceTestComplete (defects : List (BitVec 17 × BitVec 16)) (ue : List (BitVec 52))
  /-- FW_UPDATE (R558): A write of SEC_FWUPD verifies a firmware image and writes it to flash, or refuses it. -/
  | fwUpdate (port : HostPort) (value : Word) (ue : List (BitVec 52))
  /-- KEY_ADD_OWNER (R562): SEC_KEYCMD ADD_OWNER adds an owner key to the key table. -/
  | keyAddOwner (port : HostPort)
  /-- KEY_ADD_OPERATOR (R562): SEC_KEYCMD ADD_OPERATOR adds an operator key to the key table. -/
  | keyAddOperator (port : HostPort)
  /-- KEY_REMOVE (R562): SEC_KEYCMD REMOVE removes a key by its KEYID. -/
  | keyRemove (port : HostPort)
  /-- DEPROVISION (R562): SEC_KEYCMD DEPROVISION zeroes all stores, empties the key table and clears ownership. -/
  | deprovision (port : HostPort)
  /-- GET_VERSION (R566): An SPDM GET_VERSION request is answered with version 1.2 and resets the port's negotiated state. -/
  | getVersion (port : HostPort)
  /-- GET_CAPABILITIES (R566): An SPDM GET_CAPABILITIES request is answered with the TX4's capabilities. -/
  | getCapabilities (port : HostPort)
  /-- NEGOTIATE_ALGORITHMS (R566): An SPDM NEGOTIATE_ALGORITHMS request is answered with Ed448 and SHA3-512. -/
  | negotiateAlgorithms (port : HostPort)
  /-- GET_DIGESTS (R566): An SPDM GET_DIGESTS request is answered for slot 0. -/
  | getDigests (port : HostPort)
  /-- GET_CERTIFICATE (R566): An SPDM GET_CERTIFICATE request returns the slot 0 certificate chain. -/
  | getCertificate (port : HostPort)
  /-- CHALLENGE (R566): An SPDM CHALLENGE is answered with a signed CHALLENGE_AUTH. -/
  | challenge (port : HostPort)
  /-- GET_MEASUREMENTS (R568): An SPDM GET_MEASUREMENTS request returns measurement blocks, signed when requested. -/
  | getMeasurements (port : HostPort)
  /-- SPDM_UNSUPPORTED_REQUEST (R566): Any other SPDM request is answered with ERROR UnsupportedRequest. -/
  | spdmUnsupportedRequest (port : HostPort)
  /-- DBG_SET_D1 (R570): The owner port writes DBG_CTL.LEVEL = 1 and the device enters D1. -/
  | dbgSetD1 (port : HostPort)
  /-- DBG_SET_D0 (R570): The owner port writes DBG_CTL.LEVEL = 0 and the device returns to D0, leaving D2 without zeroing. -/
  | dbgSetD0 (port : HostPort)
  /-- DBG_ALLOWD2_CLEAR (R573): The owner port clears ALLOWD2 on a provisioned device, which leaves D2. -/
  | dbgAllowd2Clear (port : HostPort)
  /-- DBG_TOKEN_SUBMIT (R571): A debug token is submitted by a write of DBG_TOKEN19 or by the end of a DBGTOKEN shift. -/
  | dbgTokenSubmit (token : Sum (HostPort × Word) (BitVec 1280))
  /-- DBG_TOKEN_DECIDE (R572): A token is decided within 5 ms: it is refused, or accepted and zeroing for D2 begins. -/
  | dbgTokenDecide
  /-- D2_ZEROING_COMPLETE (R572): Zeroing for D2 completes; LEVEL becomes 2, D2SEEN is set, and every PRIMARY port is interrupted. -/
  | d2ZeroingComplete
  /-- TAP_BYPASS (R575): The TAP BYPASS instruction is selected. -/
  | tapBypass
  /-- TAP_SAMPLE_PRELOAD (R575): The TAP SAMPLE/PRELOAD instruction is selected. -/
  | tapSamplePreload
  /-- TAP_EXTEST (R575): The TAP EXTEST instruction holds every die in reset until module reset. -/
  | tapExtest
  /-- DBGSTAT (R575): The TAP DBGSTAT instruction shifts out DBG_STAT and FAB_SERIAL. -/
  | dbgstat
  /-- DBGNONCE (R575): The TAP DBGNONCE instruction shifts out DBG_NONCE. -/
  | dbgnonce
  /-- DBGCTR (R569): The TAP DBGCTR instruction reads a counter at a device address in D1 or D2. -/
  | dbgctr (addr : BitVec 52)
  /-- DBGMEM_READ (R575): The TAP DBGMEM instruction reads 8 bytes at any device address in D2. -/
  | dbgmemRead (addr : BitVec 52)
  /-- DBGMEM_WRITE (R575): The TAP DBGMEM instruction writes 8 bytes at any device address in D2. -/
  | dbgmemWrite (addr : BitVec 52) (value : Word)
  /-- DBGCORE_HALT (R574): The TAP DBGCORE instruction halts a logical core in D2. -/
  | dbgcoreHalt (core : CoreId)
  /-- DBGCORE_STEP (R574): The TAP DBGCORE instruction steps a halted logical core in D2. -/
  | dbgcoreStep (core : CoreId)
  /-- DBGCORE_RESUME (R574): The TAP DBGCORE instruction resumes a halted logical core in D2. -/
  | dbgcoreResume (core : CoreId)
  /-- DBGCORE_REG_READ (R574): The TAP DBGCORE instruction reads a register of a core's window in D2. -/
  | dbgcoreRegRead (core : CoreId) (offset : BitVec 13)
  /-- DBGCORE_REG_WRITE (R574): The TAP DBGCORE instruction writes a register of a core's window in D2. -/
  | dbgcoreRegWrite (core : CoreId) (offset : BitVec 13) (value : Word)
  /-- BRIDGE_CONTROL_FLIT (R23): A control flit crosses a die bridge under CRC-32 and link-level retry. -/
  | bridgeControlFlit (bridge : BitVec 3) (crcOk : Bool)
  /-- EVENT_COUNTER_CLEAR (R39): A write of CLR sets an event counter and its OVF bit to zero. -/
  | eventCounterClear (port : HostPort) (addr : BitVec 52)
  /-- PERF_COUNTER_CLEAR (R102): A write of CLR sets a performance counter to zero. -/
  | perfCounterClear (port : HostPort) (addr : BitVec 52)
  /-- LINK_ERROR_COUNTER_CLEAR (R382): A write of CLR sets a link error or drop counter and its OVF bits to zero. -/
  | linkErrorCounterClear (port : HostPort) (addr : BitVec 52)
  /-- REGISTER_WRITE (R423): A write to a register with no behaviour of its own updates its writable fields under their access types. -/
  | registerWrite (port : HostPort) (addr : BitVec 52) (value : Word)
  /-- HLK_LINK_UP (R515): A host port finishes training and its LINK reads UP. -/
  | hlkLinkUp (port : HostPort)
  /-- HLK_REPLAY_TIMEOUT (R418): A host port's replay buffer has held unreleased flits for 16 µs and the sender resends from the oldest unreleased HEAD. -/
  | hlkReplayTimeout (port : HostPort)
  /-- HLK_NAK_HOLDOFF_EXPIRY (R418): 2 µs pass on a host port after a NAK without the expected HEAD, so a further NAK may be sent. -/
  | hlkNakHoldoffExpiry (port : HostPort)
  /-- EDGE_OPERATION_COMPLETE (R164): A conversion, output, spill or resume on the edge queue finishes; EDGE_STAT.BUSY and ACC_STAT.INFLT clear and held AMULs and VPRDs may go on. -/
  | edgeOperationComplete (core : CoreId)
  deriving DecidableEq, Repr

end Sys2Proof
end

