-- ==== Sys2Proof/Decode.lean ====
section
/-!
DEFINITION. Commands spelled by words. The table gives no row any bits: a command comes as an event or a transfer with its operands, never as
an instruction word.
-/
namespace Sys2Proof

/-- The command that a word of `nbits` bits spells; no row has bits. -/
def decodeTableWord (_nbits _w : Nat) : Option Instr := none

end Sys2Proof
end

