-- ==== Sys2Proof/Config.lean ====
section
/-!
DEFINITION. What one module or an implementation fixes and the spec leaves open: constants without a body, so that
nothing can be proved about their values (assumption 4).
-/
namespace Sys2Proof.Config

/-- FAB_SERIAL, set at manufacture (R385). -/
opaque serial : Word

/-- The n-th fresh nonce the module draws (R434, R571). -/
opaque nonce : Nat → Word

/-- The certified identity public key, 57 bytes as a number (R564). -/
opaque identityKey : Nat

/-- The identity helper data in flash at manufacture, and the correction that it gives a response of the physical unclonable function: of the
response and the helper data (R564). -/
opaque helperData : List Byte
opaque corrected : List Byte → List Byte → List Byte

/-- The Fenram firmware key and the recovery debug key in mask ROM (R556, R561), as numbers of 57 bytes. -/
opaque firmwareKey : Nat
opaque recoveryKey : Nat

/-- The signature that the firmware image of manufacture carries, 114 bytes (R556). -/
opaque factorySignature : List Byte

/-- The certificates of the chain in flash, in its order: the Fenram root, the TX4 product and the device certificate (R564). -/
opaque rootCertificate : List Byte
opaque productCertificate : List Byte
opaque deviceCertificate : List Byte

/-- The identity key's Ed448 signature of a message, 114 bytes (R566). -/
opaque sign : List Byte → List Byte

/-- Which of the FP32 values within 2 ulp NORMBM of three draws is (R214). -/
opaque normBm : Nat → Nat → Nat → Nat

/-- Which of the FP32 values within 2 ulp the Gumbel variate of two draws is (R214, R215). -/
opaque gumbel : Nat → Nat → Nat

/-- The lane state a backstep leaves where the rule mask of R200 leaves more than one predecessor or none (R206). -/
opaque backstepState : BitVec 96 → BitVec 96

/-- Which of several predecessors a backstep takes (R206). -/
opaque backstepPick : BitVec 96 → Nat

/-- The other operand of a gill entry's product in a cell, with its block's scale, where it went into the panel before a record that the model
has not seen spilled (R152). -/
opaque gillOperand : Nat → Nat → Nat

/-- Where the FORMAT section of a plan keeps its fields (R180, R283): field number, monitor number, section bytes. -/
opaque formatField : Nat → Nat → List Byte → Nat

/-- Whether a reported mean or quotient that is not exact is the number above it: of a sum and a divisor (R545, R593). -/
opaque meanUp : Int → Nat → Bool

/-- A free value in order of use. -/
opaque free : Nat → Nat

end Sys2Proof.Config
end

