-- ==== Sys2Proof/Machine/Bits.lean ====
section
/-!
DEFINITION. Bit-field, byte-order and check-word helpers used by every family: bit lengths, little-endian bytes,
CRC-32 (R349) and Fletcher-64 (R443).
-/
namespace Sys2Proof.Machine

/-- Number of bits of `n`: 0 for 0, else the place of the leading bit plus 1. -/
def bitlen (n : Nat) : Nat := if n = 0 then 0 else Nat.log2 n + 1

/-- Bits [hi:lo] of `n`. -/
def bits (n hi lo : Nat) : Nat := (n >>> lo) % 2 ^ (hi + 1 - lo)

/-- 1 for true, 0 for false. -/
def b2n (b : Bool) : Nat := if b then 1 else 0

/-- `n` with bits [lo+width-1:lo] replaced by the low `width` bits of `v`. -/
def putBits (n lo width v : Nat) : Nat :=
  (n / 2 ^ (lo + width)) * 2 ^ (lo + width) + (v % 2 ^ width) * 2 ^ lo + n % 2 ^ lo

/-- Sign-extended value of the low `w` bits of `n`. -/
def signed (w n : Nat) : Int :=
  let m := n % 2 ^ w
  if m < 2 ^ (w - 1) then (m : Int) else (m : Int) - (2 ^ w : Nat)

/-- Two's complement image of `x` in `w` bits. -/
def twos (w : Nat) (x : Int) : Nat := (x % (2 ^ w : Nat)).toNat

/-- `k` little-endian bytes of `n`. -/
def leBytes : Nat → Nat → List Byte
  | 0, _ => []
  | k + 1, n => BitVec.ofNat 8 n :: leBytes k (n / 256)

/-- The number whose little-endian bytes are `bs`. -/
def leNat : List Byte → Nat
  | [] => 0
  | b :: bs => b.toNat + 256 * leNat bs

/-- Number of one bits among the low `w` bits of `n`. -/
def popcount : Nat → Nat → Nat
  | 0, _ => 0
  | w + 1, n => b2n (n.testBit w) + popcount w n

/-- The positions below `w` whose bit of `n` is set, rising. -/
def setBits (w n : Nat) : List Nat := (List.range w).filter (fun i => n.testBit i)

/-- The number whose set bits are `is`. -/
def ofBits (is : List Nat) : Nat := is.foldl (fun a i => a ||| 2 ^ i) 0

/-- `xs` cut into pieces of `n` (the last may be shorter); at most `fuel` pieces. -/
def chunks {α : Type} (n : Nat) : Nat → List α → List (List α)
  | 0, _ => []
  | _ + 1, [] => []
  | fuel + 1, xs => xs.take n :: chunks n fuel (xs.drop n)

/-- `x` put into its place of a rising list, and a list in rising order. -/
def insertSorted {α : Type} (le : α → α → Bool) (x : α) : List α → List α
  | [] => [x]
  | y :: ys => if le x y then x :: y :: ys else y :: insertSorted le x ys

def sortRising {α : Type} (le : α → α → Bool) (xs : List α) : List α := xs.foldr (insertSorted le) []

/-- One bit step of the reflected CRC-32 (polynomial 0x04C1_1DB7, reflected 0xEDB8_8320). -/
def crcBit (c : BitVec 32) : BitVec 32 :=
  if c.getLsbD 0 then (c >>> 1) ^^^ 0xEDB88320#32 else c >>> 1

/-- One byte step of the reflected CRC-32. -/
def crcByte (c : BitVec 32) (b : Byte) : BitVec 32 :=
  crcBit (crcBit (crcBit (crcBit (crcBit (crcBit (crcBit (crcBit (c ^^^ b.setWidth 32))))))))

/-- The CRC-32 of R349: initial value 0xFFFF_FFFF, final complement. -/
def crc32 (bs : List Byte) : Nat := (~~~ (bs.foldl crcByte 0xFFFFFFFF#32)).toNat

/-- Both Fletcher sums over 32-bit words, each kept in 0 to 0xFFFF_FFFE (R443). -/
def fletcherSums : List Nat → Nat × Nat → Nat × Nat
  | [], s => s
  | w :: ws, (a, b) =>
    let a' := (a + w) % 0xFFFFFFFF
    fletcherSums ws (a', (b + a') % 0xFFFFFFFF)

end Sys2Proof.Machine
end

