-- ==== Sys2Proof/Machine/Float.lean ====
section
/-!
DEFINITION. Exact binary floating point over integers: decoding, rounding into a format in any direction, and the
IEEE 754-2019 operations the units use (R47 to R51, R59, R61, R66 to R69). A finite value is kept exactly as
±m × 2^e; a result is formed exactly (or with a sticky bit) and rounded once.
-/
namespace Sys2Proof.Machine

/-- A decoded value. `fin neg m e` is (−1)^neg × m × 2^e, with `m = 0` for a signed zero. -/
inductive FVal where
  | nan
  | inf (neg : Bool)
  | fin (neg : Bool) (m : Nat) (e : Int)
  deriving DecidableEq, Repr

/-- Rounding directions (R250, R278), and the stochastic rounding of R66 with `k` bits of value `u`. -/
inductive Rm where
  | rne | rtz | rup | rdn | rna
  | stoch (k u : Nat)
  deriving DecidableEq, Repr

/-- The shape of a binary format: exponent bits, mantissa bits, bias, and the magnitude code of the largest finite value. -/
structure FShape where
  eb : Nat
  mb : Nat
  bias : Nat
  maxMag : Nat
  deriving DecidableEq, Repr

/-- BF16, FP16, FP32 and FP64 (R47). -/
def shapeBF16 : FShape := ⟨8, 7, 127, 0x7F7F⟩
def shapeFP16 : FShape := ⟨5, 10, 15, 0x7BFF⟩
def shapeFP32 : FShape := ⟨8, 23, 127, 0x7F7FFFFF⟩
def shapeFP64 : FShape := ⟨11, 52, 1023, 0x7FEFFFFFFFFFFFFF⟩

/-- Number of bits of a code of the shape. -/
def FShape.width (f : FShape) : Nat := 1 + f.eb + f.mb

/-- Place of the lowest bit of a subnormal: 1 − bias − mb (R48). -/
def FShape.qmin (f : FShape) : Int := 1 - (f.bias : Int) - (f.mb : Int)

/-- The magnitude code of infinity in a format that has one. -/
def FShape.infMag (f : FShape) : Nat := (2 ^ f.eb - 1) * 2 ^ f.mb

/-- The canonical quiet NaN (R51). -/
def FShape.nanCode (f : FShape) : Nat := f.infMag + 2 ^ (f.mb - 1)

/-- `code` with the sign bit `neg` put on magnitude `mag`. -/
def FShape.withSign (f : FShape) (neg : Bool) (mag : Nat) : Nat := b2n neg * 2 ^ (f.eb + f.mb) + mag

/-- The value of a magnitude code of the shape without special codes (R48). -/
def FShape.finMag (f : FShape) (neg : Bool) (mag : Nat) : FVal :=
  let e := mag / 2 ^ f.mb
  let m := mag % 2 ^ f.mb
  if e = 0 then .fin neg m f.qmin else .fin neg (2 ^ f.mb + m) (f.qmin + (e - 1 : Nat))

/-- Decodes a code of an IEEE shape (all-ones exponent is infinity or NaN, R48). -/
def FShape.decode (f : FShape) (code : Nat) : FVal :=
  let mag := code % 2 ^ (f.eb + f.mb)
  let neg := code.testBit (f.eb + f.mb)
  if mag < f.infMag then f.finMag neg mag
  else if mag = f.infMag then .inf neg else .nan

/-- Place of the leading bit of m × 2^e, for m > 0. -/
def leadPlace (m : Nat) (e : Int) : Int := e + bitlen m - 1

/-- m × 2^e compared with m' × 2^e', exactly: their difference at a common place. -/
def scaledDiff (m : Nat) (e : Int) (m' : Nat) (e' : Int) : Int :=
  let q := min e e'
  (m : Int) * 2 ^ (e - q).toNat - (m' : Int) * 2 ^ (e' - q).toNat

/-- The kept integer at place `q` of m × 2^e, and whether rounding dropped anything (before any carry). -/
structure Kept where
  mag : Nat
  inexact : Bool
  deriving DecidableEq, Repr

/-- Rounds the exact magnitude m × 2^e to a multiple of 2^q. -/
def roundAt (rm : Rm) (neg : Bool) (m : Nat) (e q : Int) : Kept :=
  if q ≤ e then ⟨m * 2 ^ (e - q).toNat, false⟩
  else
    let d := (q - e).toNat
    let lo := m % 2 ^ d
    let hi := m / 2 ^ d
    let up : Bool := match rm with
      | .rne => decide (2 ^ (d - 1) < lo) || (decide (lo = 2 ^ (d - 1)) && hi.testBit 0)
      | .rtz => false
      | .rup => decide (lo ≠ 0) && !neg
      | .rdn => decide (lo ≠ 0) && neg
      | .rna => decide (2 ^ (d - 1) ≤ lo)
      | .stoch k u => decide (2 ^ k ≤ (if k ≤ d then lo / 2 ^ (d - k) else lo * 2 ^ (k - d)) + u)
    ⟨hi + b2n up, decide (lo ≠ 0)⟩

/-- A rounded result: its code, and the IEEE outcomes. -/
structure Rounded where
  code : Nat
  overflow : Bool
  underflow : Bool
  inexact : Bool
  deriving DecidableEq, Repr

/-- The quantum (place of the kept last bit) of a magnitude whose leading bit is at place `lead`. -/
def FShape.quantum (f : FShape) (lead : Int) : Int := max (lead - f.mb) f.qmin

/-- The magnitude code of `kept` units of 2^q, for a quantum of the shape. -/
def FShape.magAt (f : FShape) (kept : Nat) (q : Int) : Nat := kept + (q - f.qmin).toNat * 2 ^ f.mb

/-- Whether the exact magnitude, rounded with unbounded exponent, lies below the smallest normal (tininess after
rounding, R250). -/
def FShape.tiny (f : FShape) (rm : Rm) (neg : Bool) (m : Nat) (e : Int) : Bool :=
  let q := leadPlace m e - f.mb
  let k := roundAt rm neg m e q
  decide (leadPlace k.mag q < f.qmin + f.mb)

/-- Rounds a finite exact value into an IEEE shape. Overflow gives the infinity or the largest finite value the
direction asks for; stochastic rounding stops at the largest finite value (R66, R67), for a magnitude that lies beyond it before any carry
as well (DESIGN CHOICE, assumption 78: R66 speaks of the carry only). -/
def FShape.round (f : FShape) (rm : Rm) (neg : Bool) (m : Nat) (e : Int) : Rounded :=
  if m = 0 then ⟨f.withSign neg 0, false, false, false⟩
  else
    let q := f.quantum (leadPlace m e)
    let k := roundAt rm neg m e q
    let mag := f.magAt k.mag q
    if f.maxMag < mag then
      let toInf : Bool := match rm with
        | .rne => true
        | .rtz => false
        | .rup => !neg
        | .rdn => neg
        | .rna => true
        | .stoch _ _ => false
      ⟨f.withSign neg (if toInf then f.infMag else f.maxMag), true, false, true⟩
    else
      let under : Bool := match rm with
        | .stoch _ _ => k.inexact && decide (mag < 2 ^ f.mb)
        | _ => k.inexact && f.tiny rm neg m e
      ⟨f.withSign neg mag, false, under, k.inexact⟩

/-- Rounds any decoded value into an IEEE shape; NaN is canonical (R51). -/
def FShape.encode (f : FShape) (rm : Rm) (v : FVal) : Rounded :=
  match v with
  | .nan => ⟨f.nanCode, false, false, false⟩
  | .inf neg => ⟨f.withSign neg f.infMag, false, false, false⟩
  | .fin neg m e => f.round rm neg m e

/-- The IEEE flags of R278: invalid, divide by zero, overflow, underflow, inexact (bits 0 to 4). -/
structure FpFlags where
  nv : Bool := false
  dz : Bool := false
  of : Bool := false
  uf : Bool := false
  nx : Bool := false
  deriving DecidableEq, Repr

def FpFlags.union (a b : FpFlags) : FpFlags :=
  ⟨a.nv || b.nv, a.dz || b.dz, a.of || b.of, a.uf || b.uf, a.nx || b.nx⟩

/-- A result code with its flags. -/
structure FpRes where
  code : Nat
  flags : FpFlags
  deriving DecidableEq, Repr

def Rounded.toRes (r : Rounded) : FpRes := ⟨r.code, ⟨false, false, r.overflow, r.underflow, r.inexact⟩⟩

def FShape.invalid (f : FShape) : FpRes := ⟨f.nanCode, ⟨true, false, false, false, false⟩⟩

/-- Whether a code of an IEEE shape is a signalling NaN: all-ones exponent, non-zero mantissa, top mantissa bit 0. -/
def FShape.isSNaN (f : FShape) (code : Nat) : Bool :=
  let mag := code % 2 ^ (f.eb + f.mb)
  decide (f.infMag < mag) && !(mag.testBit (f.mb - 1))

/-- The sign of an exact zero sum: minus only under rounding toward −∞ (R68), unless both terms have one sign. -/
def zeroSumSign (rm : Rm) : Bool := match rm with
  | .rdn => true
  | _ => false

/-- Exact sum of two finite values; an exact zero takes its sign by R68. -/
def addFin (rm : Rm) (n1 : Bool) (m1 : Nat) (e1 : Int) (n2 : Bool) (m2 : Nat) (e2 : Int) : FVal :=
  if m1 = 0 ∧ m2 = 0 then .fin (if n1 = n2 then n1 else zeroSumSign rm) 0 0
  else
    let q := min e1 e2
    let a : Int := (m1 : Int) * 2 ^ (e1 - q).toNat
    let b : Int := (m2 : Int) * 2 ^ (e2 - q).toNat
    let s : Int := (if n1 then -a else a) + (if n2 then -b else b)
    if s = 0 then .fin (zeroSumSign rm) 0 0 else .fin (decide (s < 0)) s.natAbs q

/-- Sum of two decoded values; `none` for an invalid operation (∞ − ∞). -/
def addVal (rm : Rm) (a b : FVal) : Option FVal :=
  match a, b with
  | .nan, _ => some .nan
  | _, .nan => some .nan
  | .inf s, .inf t => if s = t then some (.inf s) else none
  | .inf s, _ => some (.inf s)
  | _, .inf t => some (.inf t)
  | .fin n1 m1 e1, .fin n2 m2 e2 => some (addFin rm n1 m1 e1 n2 m2 e2)

/-- Product of two decoded values; `none` for an invalid operation (∞ × 0). -/
def mulVal (a b : FVal) : Option FVal :=
  match a, b with
  | .nan, _ => some .nan
  | _, .nan => some .nan
  | .inf s, .inf t => some (.inf (s != t))
  | .inf s, .fin n m _ => if m = 0 then none else some (.inf (s != n))
  | .fin n m _, .inf s => if m = 0 then none else some (.inf (s != n))
  | .fin n1 m1 e1, .fin n2 m2 e2 => some (.fin (n1 != n2) (m1 * m2) (e1 + e2))

def FVal.neg : FVal → FVal
  | .nan => .nan
  | .inf s => .inf (!s)
  | .fin s m e => .fin (!s) m e

def FVal.isNaN : FVal → Bool
  | .nan => true
  | _ => false

/-- Rounds the value of an operation, or reports it invalid. `snan` says an operand was a signalling NaN. -/
def FShape.finish (f : FShape) (rm : Rm) (snan : Bool) (v : Option FVal) : FpRes :=
  match v with
  | none => f.invalid
  | some v =>
    let r := (f.encode rm v).toRes
    { r with flags := { r.flags with nv := snan } }

/-- IEEE addition of two codes (R259). -/
def FShape.add (f : FShape) (rm : Rm) (a b : Nat) : FpRes :=
  f.finish rm (f.isSNaN a || f.isSNaN b) (addVal rm (f.decode a) (f.decode b))

def FShape.negate (f : FShape) (a : Nat) : Nat := a ^^^ 2 ^ (f.eb + f.mb)

/-- IEEE subtraction of two codes. -/
def FShape.sub (f : FShape) (rm : Rm) (a b : Nat) : FpRes :=
  f.finish rm (f.isSNaN a || f.isSNaN b) (addVal rm (f.decode a) (f.decode b).neg)

/-- IEEE multiplication of two codes. -/
def FShape.mul (f : FShape) (rm : Rm) (a b : Nat) : FpRes :=
  f.finish rm (f.isSNaN a || f.isSNaN b) (mulVal (f.decode a) (f.decode b))

/-- IEEE fused multiply-add a × b + c of codes; `negProd` negates the product, `negC` the addend. An invalid
product (∞ × 0) is reported whatever the addend is. -/
def FShape.fma (f : FShape) (rm : Rm) (negProd negC : Bool) (a b c : Nat) : FpRes :=
  let vc := if negC then (f.decode c).neg else f.decode c
  let s := f.isSNaN a || f.isSNaN b || f.isSNaN c
  match mulVal (f.decode a) (f.decode b) with
  | none => f.invalid
  | some p => f.finish rm s (addVal rm (if negProd then p.neg else p) vc)

/-- IEEE division of codes: the quotient to 130 bits with a sticky bit, rounded once. -/
def FShape.div (f : FShape) (rm : Rm) (a b : Nat) : FpRes :=
  let s := f.isSNaN a || f.isSNaN b
  match f.decode a, f.decode b with
  | .nan, _ => f.finish rm s (some .nan)
  | _, .nan => f.finish rm s (some .nan)
  | .inf _, .inf _ => f.invalid
  | .inf x, .fin y _ _ => f.finish rm false (some (.inf (x != y)))
  | .fin x _ _, .inf y => f.finish rm false (some (.fin (x != y) 0 0))
  | .fin x m e, .fin y m' e' =>
    if m' = 0 then
      if m = 0 then f.invalid
      else ⟨f.withSign (x != y) f.infMag, ⟨false, true, false, false, false⟩⟩
    else
      let n := m * 2 ^ 130
      let qt := 2 * (n / m') + b2n (decide (n % m' ≠ 0))
      f.finish rm false (some (.fin (x != y) qt (e - e' - 131)))

/-- Integer square root by bisection on bit places, from place `fuel` down. -/
def isqrtAux : Nat → Nat → Nat → Nat
  | 0, _, r => r
  | i + 1, n, r =>
    let t := r + 2 ^ i
    isqrtAux i n (if t * t ≤ n then t else r)

/-- The largest r with r² ≤ n. -/
def isqrt (n : Nat) : Nat := isqrtAux (bitlen n / 2 + 1) n 0

/-- IEEE square root of a code. −0 gives −0; a negative operand is invalid. -/
def FShape.sqrt (f : FShape) (rm : Rm) (a : Nat) : FpRes :=
  match f.decode a with
  | .nan => f.finish rm (f.isSNaN a) (some .nan)
  | .inf s => if s then f.invalid else f.finish rm false (some (.inf false))
  | .fin s m e =>
    if m = 0 then ⟨f.withSign s 0, {}⟩
    else if s then f.invalid
    else
      let m' := if e % 2 = 0 then m else 2 * m
      let e' := if e % 2 = 0 then e else e - 1
      let n := m' * 2 ^ 140
      let r := isqrt n
      f.finish rm false (some (.fin false (2 * r + b2n (decide (r * r ≠ n))) ((e' - 140) / 2 - 1)))

/-- Numerical order of two values that are not NaN; −0 equals +0. -/
def cmpVal (a b : FVal) : Option Ordering :=
  match a, b with
  | .nan, _ => none
  | _, .nan => none
  | .inf s, .inf t => some (if s = t then .eq else if s then .lt else .gt)
  | .inf s, .fin _ _ _ => some (if s then .lt else .gt)
  | .fin _ _ _, .inf t => some (if t then .gt else .lt)
  | .fin n1 m1 e1, .fin n2 m2 e2 =>
    let q := min e1 e2
    let x : Int := (if n1 then -1 else 1) * ((m1 : Int) * 2 ^ (e1 - q).toNat)
    let y : Int := (if n2 then -1 else 1) * ((m2 : Int) * 2 ^ (e2 - q).toNat)
    some (if x < y then .lt else if x = y then .eq else .gt)

/-- IEEE 754-2019 maximum (or minimum, `mn`): a NaN gives NaN, −0 orders below +0 (R69). -/
def FShape.maxMin (f : FShape) (mn : Bool) (a b : Nat) : FpRes :=
  let s := f.isSNaN a || f.isSNaN b
  match cmpVal (f.decode a) (f.decode b) with
  | none => ⟨f.nanCode, ⟨s, false, false, false, false⟩⟩
  | some o =>
    let aBelow : Bool := match o with
      | .lt => true
      | .gt => false
      | .eq => a.testBit (f.eb + f.mb)
    ⟨if mn then (if aBelow then a else b) else (if aBelow then b else a), {}⟩

/-- Converts a code of one IEEE shape into another. -/
def FShape.convert (src dst : FShape) (rm : Rm) (a : Nat) : FpRes :=
  dst.finish rm (src.isSNaN a) (some (src.decode a))

/-- Rounds a value to an integer in the given direction: sign, magnitude, and whether it was inexact. -/
def roundInt (rm : Rm) (neg : Bool) (m : Nat) (e : Int) : Nat × Bool :=
  let k := roundAt rm neg m e 0
  (k.mag, k.inexact)

/-- FP32 operations in round-to-nearest-even without flags, as the edge converter and accumulators use them. -/
def addF32 (a b : Nat) : Nat := (shapeFP32.add .rne a b).code
def subF32 (a b : Nat) : Nat := (shapeFP32.sub .rne a b).code
def mulF32 (a b : Nat) : Nat := (shapeFP32.mul .rne a b).code
def negF32 (a : Nat) : Nat := a ^^^ 0x80000000

def isNaN32 (a : Nat) : Bool := decide (0x7F800000 < a % 0x80000000)
def isInf32 (a : Nat) : Bool := decide (a % 0x80000000 = 0x7F800000)
def isFin32 (a : Nat) : Bool := decide (a % 0x80000000 < 0x7F800000)
def isZero32 (a : Nat) : Bool := decide (a % 0x80000000 = 0)

/-- An infinity produced from finite operands. -/
def overflowed (operandsFinite : Bool) (r : Nat) : Bool := operandsFinite && isInf32 r

end Sys2Proof.Machine
end

