-- ==== Sys2Proof/Machine/Formats.lean ====
section
/-!
DEFINITION. Number formats and block scales (R45 to R73): format codes, element codes, E8M0 scales, packing, the
conversion pairs, and element and block conversions that need no state.
-/
namespace Sys2Proof.Machine

/-- The nine number formats of R45, in code order. -/
inductive Fmt where
  | fp4 | e2m3 | e3m2 | e4m3 | e5m2 | bf16 | fp16 | fp32 | fp64
  deriving DecidableEq, Repr

/-- The format of a 4-bit code; none for the reserved codes 0x9 to 0xF (R45). -/
def Fmt.ofCode : Nat → Option Fmt
  | 0 => some .fp4 | 1 => some .e2m3 | 2 => some .e3m2 | 3 => some .e4m3 | 4 => some .e5m2
  | 5 => some .bf16 | 6 => some .fp16 | 7 => some .fp32 | 8 => some .fp64
  | _ => none

/-- The 4-bit code of a format (R45). -/
def Fmt.code : Fmt → Nat
  | .fp4 => 0 | .e2m3 => 1 | .e3m2 => 2 | .e4m3 => 3 | .e5m2 => 4
  | .bf16 => 5 | .fp16 => 6 | .fp32 => 7 | .fp64 => 8

/-- The narrow formats are the codes 0x0 to 0x4 (R46). -/
def Fmt.narrow : Fmt → Bool
  | .fp4 | .e2m3 | .e3m2 | .e4m3 | .e5m2 => true
  | .bf16 | .fp16 | .fp32 | .fp64 => false

/-- The parameters of R47. -/
def Fmt.shape : Fmt → FShape
  | .fp4 => ⟨2, 1, 1, 7⟩
  | .e2m3 => ⟨2, 3, 1, 31⟩
  | .e3m2 => ⟨3, 2, 3, 31⟩
  | .e4m3 => ⟨4, 3, 7, 0x7E⟩
  | .e5m2 => ⟨5, 2, 15, 0x7B⟩
  | .bf16 => shapeBF16
  | .fp16 => shapeFP16
  | .fp32 => shapeFP32
  | .fp64 => shapeFP64

/-- Bits of one element (R47). -/
def Fmt.bits (f : Fmt) : Nat := f.shape.width

/-- The exponent of the largest binade (R47). -/
def Fmt.emax : Fmt → Int
  | .fp4 => 2 | .e2m3 => 2 | .e3m2 => 4 | .e4m3 => 8 | .e5m2 => 15
  | .bf16 => 127 | .fp16 => 15 | .fp32 => 127 | .fp64 => 1023

/-- The value of one element code, without its scale (R48): E4M3 has one NaN magnitude, E5M2 and the wide formats the
IEEE specials, the other narrow formats none. -/
def Fmt.decode (f : Fmt) (code : Nat) : FVal :=
  let s := f.shape
  let neg := code.testBit (s.eb + s.mb)
  let mag := code % 2 ^ (s.eb + s.mb)
  match f with
  | .fp4 | .e2m3 | .e3m2 => s.finMag neg mag
  | .e4m3 => if mag = 0x7F then .nan else s.finMag neg mag
  | .e5m2 | .bf16 | .fp16 | .fp32 | .fp64 => s.decode code

/-- The exponent of an E8M0 scale code (R52). -/
def scaleExp (code : Nat) : Int := (code : Int) - 127

/-- A value times 2^k. -/
def FVal.scale (v : FVal) (k : Int) : FVal :=
  match v with
  | .fin n m e => .fin n m (e + k)
  | .nan => .nan
  | .inf s => .inf s

/-- The value of an element under its block's scale; an element of a NaN block is NaN (R52, R58). -/
def Fmt.scaled (f : Fmt) (scale code : Nat) : FVal :=
  if f.narrow then (if scale = 0xFF then .nan else (f.decode code).scale (scaleExp scale)) else f.decode code

/-- Elements per block for the block-size bit (R52). -/
def blockElems (bs16 : Bool) : Nat := if bs16 then 16 else 32

/-- Bytes of one packed block, or of `n` wide elements (R54, R55). -/
def Fmt.packedBytes (f : Fmt) (n : Nat) : Nat := n * f.bits / 8

/-- Blocks per 4 KiB element tile (R55). -/
def Fmt.blocksPerTile (f : Fmt) (bs16 : Bool) : Nat := 4096 / f.packedBytes (blockElems bs16)

/-- The `i`-th element code of packed little-endian bytes (R54): element i occupies bits [w·i+w−1:w·i]. -/
def elemAt (w : Nat) (packed i : Nat) : Nat := (packed >>> (w * i)) % 2 ^ w

/-- The packed number of a list of element codes of `w` bits, first element lowest (R54). -/
def packElems (w : Nat) : List Nat → Nat
  | [] => 0
  | c :: cs => c % 2 ^ w + 2 ^ w * packElems w cs

/-- The element codes of `n` packed elements. -/
def unpackElems (w n packed : Nat) : List Nat := (List.range n).map (elemAt w packed)

/-- How the TX4 converts a pair (R60). -/
inductive ConvKind where
  | copy | widen | narrow | vector | refused
  deriving DecidableEq, Repr

/-- The conversion table of R60. -/
def convKind (src dst : Fmt) : ConvKind :=
  if src = dst then .copy
  else if src.narrow then
    match dst with
    | .bf16 | .fp16 | .fp32 => .widen
    | _ => .refused
  else if dst.narrow then
    match src with
    | .fp64 => .refused
    | _ => .narrow
  else .vector

/-- A widening of one element (R61): the destination code and whether a finite input became an infinity. -/
def widenElem (src dst : Fmt) (scale code : Nat) : Nat × Bool :=
  let r := dst.shape.encode .rne (src.scaled scale code)
  (r.code, r.overflow)

/-- A wide-to-wide conversion at the edge: round to nearest even or stochastic (R154, R157); whether a finite input
overflowed. -/
def edgeWide (src dst : Fmt) (rm : Rm) (code : Nat) : Nat × Bool :=
  let r := dst.shape.encode rm (src.decode code)
  (r.code, r.overflow)

/-- One element divided by 2^σ and rounded into a narrow format (R62, R63, R66): the code, and whether it saturated
(beyond the largest finite value before rounding, or carried past it by stochastic rounding). -/
def narrowElem (dst : Fmt) (rm : Rm) (σ : Int) (v : FVal) : Nat × Bool :=
  let s := dst.shape
  match v with
  | .nan => (0, false)
  | .inf neg =>
    match dst with
    | .e5m2 => (s.withSign neg s.infMag, false)
    | _ => (s.withSign neg s.maxMag, true)
  | .fin neg m e =>
    if m = 0 then (s.withSign neg 0, false)
    else
      let e' := e - σ
      let q := s.quantum (leadPlace m e')
      let k := roundAt rm neg m e' q
      let mag := s.magAt k.mag q
      let beyond : Bool := match s.finMag false s.maxMag with
        | .fin _ mx ex => decide (0 < scaledDiff m e' mx ex)
        | _ => false
      if beyond || decide (s.maxMag < mag) then
        (s.withSign neg s.maxMag, beyond || (match rm with | .stoch _ _ => true | _ => false))
      else (s.withSign neg mag, false)

/-- The scale exponent of R147 for a largest finite magnitude m × 2^e > 0. -/
def scaleSigma (dst : Fmt) (headroom : Bool) (m : Nat) (e : Int) : Int :=
  max (leadPlace m e - dst.emax + (if headroom then 1 else 0)) (-127)

end Sys2Proof.Machine
end

