-- ==== Sys2Proof/Machine/Maps.lean ====
section
/-!
DEFINITION. Sparse data by key in one canonical form: keys strictly rising, no entry equal to what an unlisted key
reads as. Registers, memory bytes, panel cells and the other tables of the machine are held so.
-/
namespace Sys2Proof.Machine

/-- A sparse table from numbers to values. -/
abbrev SMap (β : Type) := List (Nat × β)

/-- The value at key `k`; `d` is what an unlisted key reads as. -/
def SMap.read {β : Type} (d : β) (m : SMap β) (k : Nat) : β :=
  match m.find? (fun p => p.1 == k) with
  | some p => p.2
  | none => d

/-- Replaces the entries with keys in [lo, hi) by `mid`. -/
def SMap.splice {β : Type} (m : SMap β) (lo hi : Nat) (mid : SMap β) : SMap β :=
  m.filter (fun p => decide (p.1 < lo)) ++ mid ++ m.filter (fun p => decide (hi ≤ p.1))

/-- Writes `v` at key `k`; writing what an unlisted key reads as removes the entry. -/
def SMap.write {β : Type} [DecidableEq β] (d : β) (m : SMap β) (k : Nat) (v : β) : SMap β :=
  m.splice k (k + 1) (if v = d then [] else [(k, v)])

/-- Removes the keys in [lo, hi). -/
def SMap.clear {β : Type} (m : SMap β) (lo hi : Nat) : SMap β := m.splice lo hi []

/-- The entries with keys in [lo, hi). -/
def SMap.window {β : Type} (m : SMap β) (lo hi : Nat) : SMap β :=
  m.filter (fun p => decide (lo ≤ p.1) && decide (p.1 < hi))

/-- Keys strictly rising from `lo` on, and no entry equal to the unlisted value `d`. -/
def SMap.wfFrom {β : Type} [DecidableEq β] (d : Nat → β) : Nat → SMap β → Bool
  | _, [] => true
  | lo, p :: m => decide (lo ≤ p.1) && decide (p.2 ≠ d p.1) && SMap.wfFrom d (p.1 + 1) m

/-- The canonical form of a table whose unlisted keys read as `d`. -/
def SMap.wf {β : Type} [DecidableEq β] (d : Nat → β) (m : SMap β) : Bool := SMap.wfFrom d 0 m

/-- The entries for consecutive keys from `k` that differ from `d`. -/
def SMap.ofList {β : Type} [DecidableEq β] (d : β) : Nat → List β → SMap β
  | _, [] => []
  | k, v :: vs => if v = d then SMap.ofList d (k + 1) vs else (k, v) :: SMap.ofList d (k + 1) vs

end Sys2Proof.Machine
end

