-- ==== Sys2Proof/Machine/CoreTypes.lean ====
section
/-!
DEFINITION. The plain data of a core's units: weight banks, accumulator cells and panels, queue entries, converter
operations, draw lanes (R82, R105, R145, R200, R231, R236).
-/
namespace Sys2Proof.Machine

/-- One operand vector of 32 elements as a lane sees it: packed element codes and the scale bytes of its lower and
upper half (equal halves for a 32-element block, unit scales for wide formats). -/
structure OpVec where
  elems : Nat
  sc0 : Byte
  sc1 : Byte
  deriving DecidableEq, Repr

/-- A stationary weight bank (R82): format (none while empty, R85), block size, and 32 rows. -/
structure Bank where
  fmt : Option Fmt := none
  bs16 : Bool := false
  rows : List OpVec := []
  deriving DecidableEq, Repr

/-- The run state of a cell (R105). -/
structure Run where
  a : BitVec 32 := 0
  er : BitVec 8 := 0
  cnt : BitVec 7 := 0
  fn : Bool := false
  fp : Bool := false
  fm : Bool := false
  nz : Bool := true
  deriving DecidableEq, Repr

/-- An accumulator cell (R105); the default is the emptied cell of R106. -/
structure Cell where
  f : BitVec 32 := 0
  c : BitVec 32 := 0
  empty : Bool := true
  run : Run := {}
  deriving DecidableEq, Repr

/-- What one AMUL fed to a panel, kept for the gill products of R152: activation vectors from row 0 and the banks. -/
structure AmulRec where
  mask : BitVec 4
  col : Bool
  fmt : Fmt
  bs16 : Bool
  acts : List OpVec
  banks : List Bank
  deriving DecidableEq, Repr

/-- What the check datapath keeps of a panel (R450): the row checksums and the operand total, each a sum and its compensation,
the largest block exponent, the blocks and the additions of each row, the closes, the gill products, and the largest |F|. -/
structure Check where
  rho : SMap (BitVec 32 × BitVec 32) := []
  tau : BitVec 32 × BitVec 32 := (0, 0)
  maxE : Option Int := none
  blocks : SMap Nat := []
  adds : SMap Nat := []
  closes : Nat := 0
  gills : Nat := 0
  peak : Nat := 0
  deriving DecidableEq, Repr

/-- An accumulator panel (R105): promotion interval, pair mode, cells keyed 1024a + 32k + j, the AMULs it received since it was
last emptied, its check state, whether a spill record was resumed into it since (R126, R453), and whether that record is none that the
model has seen spilled, so that the AMULs before it are not among those it keeps. -/
structure Panel where
  promote : BitVec 7 := 0x20
  pair : Bool := false
  cells : SMap Cell := []
  hist : List AmulRec := []
  check : Check := {}
  resumed : Bool := false
  foreign : Bool := false
  deriving DecidableEq, Repr

/-- A queued array operation (R236): its place in program order, its byte offset, the instruction word and the register values it
read at issue. -/
structure ArrayOp where
  order : Nat
  pc : Nat
  word : Nat
  a : Nat
  b : Nat
  deriving DecidableEq, Repr

/-- An AMUL in flight: its panel, bank and place in program order, the next row to reach the accumulator row, whether it still has
to empty the panel and the ACC_CTL it then copies (R106), whether its zero products are gated (R99), and its operands. -/
structure AmulFlight where
  panel : Nat
  bank : Nat
  order : Nat
  next : Nat
  start : Bool
  ctl : Nat
  gate : Bool
  data : AmulRec
  deriving DecidableEq, Repr

/-- A bank load in progress (R83): array, bank, and the operand it loads. -/
structure BankLoad where
  array : Nat
  bank : Nat
  fmt : Fmt
  bs16 : Bool
  srcA : Nat
  srcB : Nat
  deriving DecidableEq, Repr

/-- A queued edge operation (R236): its place in program order, its byte offset, the instruction word and the values of the five
registers it names. -/
structure EdgeOp where
  order : Nat
  pc : Nat
  word : Nat
  d : Nat
  a : Nat
  b : Nat
  c : Nat
  x : Nat
  deriving DecidableEq, Repr

/-- A draw lane: generator state and draw count (R200, R204). -/
structure Lane where
  state : BitVec 96 := 0
  count : BitVec 48 := 0
  deriving DecidableEq, Repr

end Sys2Proof.Machine
end

