-- ==== Sys2Proof/Machine/Rng.lean ====
section
/-!
DEFINITION. Random numbers (R198 to R227): the lane generator and its backstep, the keyed mix, and the distributions
the spec defines bit for bit.
-/
namespace Sys2Proof.Machine

/-- The rule mask CM of R200. -/
def laneMask : BitVec 96 := 0x8F3A2C51E6B094D71A6C33E5#96

/-- One transition of the cellular automaton (R200). -/
def laneStep (x : BitVec 96) : BitVec 96 := (x <<< 1) ^^^ (x >>> 1) ^^^ (x &&& laneMask)

/-- Bit `b` of the output filter (R201). -/
def laneOutBit (x : BitVec 96) (b : Nat) : Bool :=
  let c (i : Nat) : Bool := x.getLsbD (i % 96)
  c (6 * b) ^^ c (6 * b + 3) ^^ (c (6 * b + 1) && c (6 * b + 50)) ^^ (c (6 * b + 4) && c (6 * b + 77))

/-- The 16-bit output of a state (R201). -/
def laneOut (x : BitVec 96) : Nat := ofBits ((List.range 16).filter (laneOutBit x))

/-- The largest draw count, at which a lane is saturated (R204). -/
def drawMax : BitVec 48 := 0xFFFFFFFFFFFF#48

/-- A lane is saturated when its count is at the largest value. -/
def Lane.saturated (l : Lane) : Bool := decide (l.count = drawMax)

/-- A draw: two transitions, the filter, the count (R201, R204). The Bool says that this draw saturated the count. -/
def Lane.draw (l : Lane) : Nat × Lane × Bool :=
  let x := laneStep (laneStep l.state)
  let c := if l.saturated then l.count else l.count + 1
  (laneOut x, ⟨x, c⟩, !l.saturated && decide (c = drawMax))

/-- Cells 0 to 95 of the predecessor of `y` that has lower cell `b0`, found cell by cell, with the cell that would
stand at place 96 (it must be 0, R200's null boundary). -/
def lanePredAux (y : BitVec 96) : Nat → Bool → Bool → BitVec 96 → BitVec 96 × Bool
  | 0, _, cur, x => (x, cur)
  | k + 1, prev, cur, x =>
    let i := 95 - k
    let x' := if cur then x ||| (1#96 <<< i) else x
    lanePredAux y k cur (y.getLsbD i ^^ prev ^^ (laneMask.getLsbD i && cur)) x'

/-- A state from which one transition leads to `y`, with lowest cell `b0`; none when there is none. -/
def lanePred (y : BitVec 96) (b0 : Bool) : Option (BitVec 96) :=
  let r := lanePredAux y 96 false b0 0
  if r.2 then none else some r.1

/-- The states from which one transition leads to `y`. -/
def lanePreds (y : BitVec 96) : List (BitVec 96) := (lanePred y false).toList ++ (lanePred y true).toList

/-- The states from which two transitions lead to `y`. The printed rule mask makes them several or none (assumption 12). -/
def laneBefore (y : BitVec 96) : List (BitVec 96) := (lanePreds y).flatMap lanePreds

/-- A backstep of one draw (R206). -/
def Lane.back (l : Lane) : Lane :=
  let xs := laneBefore l.state
  ⟨if xs.isEmpty then Config.backstepState l.state else xs.getD (Config.backstepPick l.state % xs.length) 0, l.count - 1⟩

/-- The four 32-bit words of a 128-bit value, `a` lowest (R208). -/
structure Mix4 where
  a : BitVec 32
  b : BitVec 32
  c : BitVec 32
  d : BitVec 32
  deriving DecidableEq, Repr

/-- The rotation amounts of round `i` (R208). -/
def mixRot (i : Nat) : Nat × Nat :=
  match (i - 1) % 5 with
  | 0 => (11, 19)
  | 1 => (5, 27)
  | 2 => (23, 9)
  | 3 => (14, 21)
  | _ => (3, 29)

/-- Round `i` of the mix (R208). -/
def mixRound (k0 k1 : BitVec 32) (i : Nat) (m : Mix4) : Mix4 :=
  let r := mixRot i
  let a := m.a + m.b
  let d := (m.d ^^^ a).rotateLeft r.1
  let c := m.c + d
  let b := (m.b ^^^ c).rotateLeft r.2
  if i % 2 = 0 then
    let ci := BitVec.ofNat 32 (0x9E3779B9 * i)
    ⟨a ^^^ k0 ^^^ ci, b, c ^^^ (k1 + ci), d⟩
  else ⟨a, b, c, d⟩

/-- The keyed mix of R208: 64-bit key, 128-bit counter, 128-bit output. -/
def keyedMix (key ctr : Nat) : Nat :=
  let k0 := BitVec.ofNat 32 key
  let k1 := BitVec.ofNat 32 (key >>> 32)
  let m0 : Mix4 := ⟨BitVec.ofNat 32 ctr ^^^ k0, BitVec.ofNat 32 (ctr >>> 32),
    BitVec.ofNat 32 (ctr >>> 64) ^^^ k1, BitVec.ofNat 32 (ctr >>> 96)⟩
  let m := [1, 2, 3, 4, 5, 6, 7, 8, 9, 10].foldl (fun m i => mixRound k0 k1 i m) m0
  m.d.toNat * 2 ^ 96 + m.c.toNat * 2 ^ 64 + m.b.toNat * 2 ^ 32 + m.a.toNat

/-- The counter layout of R207. -/
def mixCounter (stream step element draw : Nat) : Nat :=
  (stream % 2 ^ 16) * 2 ^ 112 + (step % 2 ^ 40) * 2 ^ 72 + (element % 2 ^ 56) * 2 ^ 16 + draw % 2 ^ 16

/-- A 64-bit key from its tag or layer and its 48-bit seed (R144, R203, R207). -/
def mixKey (tag seed : Nat) : Nat := (tag % 2 ^ 16) * 2 ^ 48 + seed % 2 ^ 48

/-- The diagonal sign of reduction index `r` for a layer (R144): true negates. -/
def rotationSign (layer seed r : Nat) : Bool :=
  (keyedMix (mixKey layer seed) (mixCounter 0xFFFF 0 (r / 128) 0)).testBit (r % 128)

/-- The seeded lane of logical core `core` (R203). -/
def seedLane (seed core l : Nat) : Lane :=
  let o := keyedMix (mixKey 0 seed) (mixCounter 0xFFFE 0 (32 * core + l) 0)
  let x := BitVec.ofNat 96 o
  ⟨if x = 0 then 1 else x, 0⟩

/-- The 16-bit word of a keyed edge-converter draw for global element `e` (R209). -/
def keyedEdgeWord (key stream step e : Nat) : Nat :=
  let o := keyedMix key (mixCounter stream step (32 * (e / 32)) 0xFFFF)
  bits o (16 * (e % 32 / 4) + 15) (16 * (e % 32 / 4))

/-- Draw `j` of a keyed vector draw for element `e` (R210). -/
def keyedVecWord (key stream step e draw : Nat) : Nat :=
  let o := keyedMix key (mixCounter stream step (8 * (e / 8)) draw)
  bits o (16 * (e % 8) + 15) (16 * (e % 8))

/-- UNIF of R212 as an FP32 code: (u + 0.5) × 2^−16. -/
def unif16 (u : Nat) : Nat := (shapeFP32.round .rne false (2 * u + 1) (-17)).code

/-- UNIF23 of R212 as an FP32 code: (2m + 1) × 2^−24 with m = (u0 << 7) | (u1 >> 9). -/
def unif23 (u0 u1 : Nat) : Nat := (shapeFP32.round .rne false (2 * (u0 * 128 + u1 / 512) + 1) (-24)).code

/-- NORMCDF of R213 from the table `t`: the sign replaces that of m, and a NaN stays canonical (DEDUCED, assumption 19). -/
def normCdf (t : Nat → Nat) (u : Nat) : Nat :=
  let s := u.testBit 15
  let i := bits u 14 7
  let f := u % 128
  let d := if i < 255 then subF32 (t (i + 1)) (t i) else subF32 (t 255) (t 254)
  let fr := (shapeFP32.round .rne false f (-7)).code
  let m := addF32 (t i) (mulF32 d fr)
  if isNaN32 m then m else m % 0x80000000 + b2n s * 0x80000000

/-- Combines two (value, index) pairs of the argmax reduction (R216); `mn` gives the argmin. -/
def argCombine (mn : Bool) (x y : Nat × Nat) : Nat × Nat :=
  match cmpVal (shapeFP32.decode x.1) (shapeFP32.decode y.1) with
  | none => if isNaN32 x.1 then (if isNaN32 y.1 then (0x7FC00000, 0xFFFFFFFF) else y) else x
  | some o =>
    let xWins : Bool := match o with
      | .eq => decide (x.2 ≤ y.2)
      | .lt => mn
      | .gt => !mn
    if xWins then x else y

end Sys2Proof.Machine
end

