-- ==== Sys2Proof/Machine/Variates.lean ====
section
/-!
DEFINITION. The logarithm, the root and the cosine that NORMBM and GUMBEL are made of, and which FP32 values lie within 2 ulp of the exact
variate (R212, R214). Numbers are held with 160 fraction bits, some 150 of which are right: no FP32 value lies so near a bound of 2 ulp.
-/
namespace Sys2Proof.Machine

/-- The fraction bits. -/
def fixBits : Nat := 160

/-- One. -/
def fixOne : Nat := 2 ^ fixBits

/-- The sum of `n` terms t^k / k over odd k from `k` on, given t^k and t². -/
def oddSeries (t2 : Nat) : Nat → Nat → Nat → Nat
  | 0, _, _ => 0
  | n + 1, k, p => p / k + oddSeries t2 n (k + 2) (p * t2 / fixOne)

/-- ln((1 + t) / (1 − t)) for t up to 1/3. -/
def lnRatio (t : Nat) : Nat := 2 * oddSeries (t * t / fixOne) 55 1 t

/-- ln 2. -/
def fixLn2 : Nat := lnRatio (fixOne / 3)

/-- ln x. -/
def fixLn (x : Nat) : Int :=
  let e := Nat.log2 x
  let t := (x - 2 ^ e) * fixOne / (x + 2 ^ e)
  ((e : Int) - (fixBits : Int)) * (fixLn2 : Int) + (lnRatio t : Int)

/-- The sum of `n` terms of the series of the arc tangent of t from its term t^k / k on, with t² and the signs in turn. -/
def arctanSeries (t2 : Nat) : Nat → Nat → Int → Int
  | 0, _, _ => 0
  | n + 1, k, p => p / (k : Int) - arctanSeries t2 n (k + 2) (p * (t2 : Int) / (fixOne : Int))

/-- arctan(1 / q). -/
def arctanInv (q : Nat) : Int := arctanSeries (fixOne / (q * q)) 40 1 ((fixOne / q : Nat) : Int)

/-- π / 2, by Machin's formula. -/
def fixHalfPi : Int := 8 * arctanInv 5 - 2 * arctanInv 239

/-- The sum of `n` terms of the series of the cosine, from the one of index k with its value p, with x². -/
def cosSeries (x2 : Int) : Nat → Nat → Int → Int
  | 0, _, _ => 0
  | n + 1, k, p => p - cosSeries x2 n (k + 2) (p * x2 / (fixOne : Int) / (((k + 1) * (k + 2) : Nat) : Int))

/-- cos x for x from 0 to π / 2. -/
def fixCos (x : Int) : Int := cosSeries (x * x / (fixOne : Int)) 30 0 fixOne

/-- cos 2πV of V = (v + 1/2) / 2^16: the angle's quadrant, and the rest of it as a part of π / 2. -/
def cosTurn (v : Nat) : Int :=
  let n := 2 * v + 1
  let q := n / 2 ^ 15
  let r := n % 2 ^ 15
  let a : Nat := if q % 2 = 0 then r else 2 ^ 15 - r
  let c := fixCos (fixHalfPi * (a : Int) / (2 ^ 15 : Nat))
  if q = 1 ∨ q = 2 then -c else c

/-- −ln U of the UNIF23 of two draws. -/
def minusLn (u0 u1 : Nat) : Nat := (-fixLn ((2 * (u0 * 128 + u1 / 512) + 1) * 2 ^ (fixBits - 24))).toNat

/-- √(−2 ln U) × cos 2πV. -/
def exactNormBm (u0 u1 u2 : Nat) : Int := (isqrt (2 * minusLn u0 u1 * fixOne) : Int) * cosTurn u2 / (fixOne : Int)

/-- −ln(−ln U). -/
def exactGumbel (u0 u1 : Nat) : Int := -fixLn (minusLn u0 u1)

/-- Whether an FP32 code lies within 2 ulp of an exact value. -/
def within2Ulp (x : Int) (code : Nat) : Bool :=
  match shapeFP32.decode code with
  | .fin n m e =>
    let v : Int := (m : Int) * (2 ^ (e + fixBits).toNat : Nat)
    decide (((if n then -v else v) - x).natAbs ≤ 2 * 2 ^ (Nat.log2 x.natAbs - 23))
  | _ => false

/-- The FP32 codes within 2 ulp of an exact value, by rising magnitude. -/
def nearCodes (x : Int) : List Nat :=
  let r := (shapeFP32.round .rtz (decide (x < 0)) x.natAbs (-(fixBits : Int))).code
  ((List.range 11).map (fun i => r + i - 5)).filter (within2Ulp x)

/-- The code that the sequence gives, one of those: the spec does not say which (assumption 4). -/
def variate (x : Int) (pick : Nat) : Nat :=
  let cs := nearCodes x
  cs.getD (pick % cs.length) 0

/-- NORMBM (R212, R214). -/
def normBmValue (u0 u1 u2 : Nat) : Nat := variate (exactNormBm u0 u1 u2) (Config.normBm u0 u1 u2)

/-- GUMBEL (R212, R214). -/
def gumbelValue (u0 u1 : Nat) : Nat := variate (exactGumbel u0 u1) (Config.gumbel u0 u1)

end Sys2Proof.Machine
end

