-- ==== Sys2Proof/Machine/Events.lean ====
section
/-!
DEFINITION. The event codes of the spec's event tables (R38): class in bits [15:12], number in [11:0].
-/
namespace Sys2Proof.Machine.Ev

/-- EV_CHK_FAIL: A row or total check failed at a POUT. -/
def CHK_FAIL : Nat := 0x1001
/-- EV_CHK_DUP: A pair's cell values differed at a POUT. -/
def CHK_DUP : Nat := 0x1002
/-- EV_CHK_TRANSIENT: A failure was classed TRANSIENT. -/
def CHK_TRANSIENT : Nat := 0x1003
/-- EV_CHK_PERMANENT: A failure was classed PERMANENT; retirement requested. -/
def CHK_PERMANENT : Nat := 0x1004
/-- EV_CHK_DATA: A failure was classed DATA. -/
def CHK_DATA : Nat := 0x1005
/-- EV_CHK_UNRESOLVED: A failure was classed UNRESOLVED. -/
def CHK_UNRESOLVED : Nat := 0x1006
/-- EV_CHK_LOGLOST: A CPER record was dropped because the fault log was full. -/
def CHK_LOGLOST : Nat := 0x1007
/-- EV_TEST_FAIL: A slot failed a rolling or whole-device test. -/
def TEST_FAIL : Nat := 0x1010
/-- EV_TEST_BUSY: A test request was refused. -/
def TEST_BUSY : Nat := 0x1011
/-- EV_TEST_SKIP: A SWAP entry did nothing (R470). -/
def TEST_SKIP : Nat := 0x1012
/-- EV_TEST_FORCED: A forced test stopped a running plan. -/
def TEST_FORCED : Nat := 0x1013
/-- EV_TILE_CHECK: A tile's scruple did not match at use. -/
def TILE_CHECK : Nat := 0x2001
/-- EV_TILE_POISON: A tile carrying the poison scruple was used. -/
def TILE_POISON : Nat := 0x2002
/-- EV_HBM_UE: An HBM stack reported an uncorrectable error. -/
def HBM_UE : Nat := 0x2003
/-- EV_FMT_SATURATE: A narrowing block conversion saturated one or more elements, counted once per block; or a stochastic rounding in the edge converter carried past the largest finite value. -/
def FMT_SATURATE : Nat := 0x3001
/-- EV_FMT_MISMATCH: An AMUL's operands differed in format code or block size; the AMUL was not issued. -/
def FMT_MISMATCH : Nat := 0x3002
/-- EV_FMT_ILLEGAL: An operation named a reserved format code, a format its unit does not accept, or a conversion pair marked —. -/
def FMT_ILLEGAL : Nat := 0x3003
/-- EV_FMT_OVERFLOW: An edge-converter widening produced an infinity from a finite input. -/
def FMT_OVERFLOW : Nat := 0x3004
/-- EV_FMT_NAN_BLOCK: A narrowing conversion wrote a NaN block because its input held a NaN. -/
def FMT_NAN_BLOCK : Nat := 0x3005
/-- EV_ACC_OVERFLOW: The accumulation path produced an infinity from finite operands: an addition of R119, the rounding of a high block (R113), the pair-mode fold (R121 step 3), a gill product (R152) or a fused operation (R122). -/
def ACC_OVERFLOW : Nat := 0x3020
/-- EV_ACC_RECORD_BAD: A resume found a bad spill-record header; the panel is unchanged, the core stopped and the step was voted unclean. -/
def ACC_RECORD_BAD : Nat := 0x3021
/-- EV_GILL_OVERFLOW: A conversion clipped one or more outliers; counted once per conversion. -/
def GILL_OVERFLOW : Nat := 0x3040
/-- EV_GILL_CLAMP: A gill value was written as ±65,504; counted once per entry. -/
def GILL_CLAMP : Nat := 0x3041
/-- EV_EDGE_SHAPE: A rotation or inverse rotation would have acted on a partial group (R146); not carried out, core stopped, step voted unclean. -/
def EDGE_SHAPE : Nat := 0x3042
/-- EV_GILL_STALE: An output named gill entries at or above FILL; not carried out, core stopped, step voted unclean. -/
def GILL_STALE : Nat := 0x3043
/-- EV_FALLBACK_GRANTED: A layer was granted fall-back at a commit; counted once per layer. -/
def FALLBACK_GRANTED : Nat := 0x3060
/-- EV_FALLBACK_DENIED: A request was denied under R180; counted once per layer per commit. -/
def FALLBACK_DENIED : Nat := 0x3061
/-- EV_FALLBACK_STORM: A step ended under the storm rule; host port interrupted. -/
def FALLBACK_STORM : Nat := 0x3062
/-- EV_FALLBACK_SPLIT: Digests differed at a commit beat; the step aborted. -/
def FALLBACK_SPLIT : Nat := 0x3063
/-- EV_FALLBACK_REVERT_REFUSED: A write to FMT_REVERT was refused under R185. -/
def FALLBACK_REVERT_REFUSED : Nat := 0x3064
/-- EV_DRAW_SAT: A lane's draw count reached 0xFFFF_FFFF_FFFF; counted once per lane. -/
def DRAW_SAT : Nat := 0x4001
/-- EV_RNG_BACKSTEP_REFUSED: A write of RNG_BACKSTEP was refused under R206. -/
def RNG_BACKSTEP_REFUSED : Nat := 0x4002
/-- EV_RNG_INDEX: A keyed conversion's E0 was not a multiple of 4, or a vector draw index would reach 0xFFFF; not carried out, core stopped, step voted unclean. -/
def RNG_INDEX : Nat := 0x4003
/-- EV_SAMPLE_NAN: A VRED AMAX found only NaN values in its active lanes and returned index 0xFFFF_FFFF; counted once per instruction (R216). -/
def SAMPLE_NAN : Nat := 0x4004
/-- EV_FAB_EXTRA: A comparison found a port EXTRA or WRONG. -/
def FAB_EXTRA : Nat := 0x5001
/-- EV_FAB_MISSING: A comparison found a port MISSING or WRONG, or a MATCH port went DOWN. -/
def FAB_MISSING : Nat := 0x5002
/-- EV_FAB_LINK_DOWN: A port was declared DOWN under R357; host interrupted. -/
def FAB_LINK_DOWN : Nat := 0x5003
/-- EV_FAB_SLICE: A packet was dropped for its slice. -/
def FAB_SLICE : Nat := 0x5004
/-- EV_FAB_NOROUTE: A packet was dropped for an invalid or blocked route entry, or arrived on a port that is not MATCH. -/
def FAB_NOROUTE : Nat := 0x5005
/-- EV_FAB_STALL: A packet was dropped after waiting longer than STALLT. -/
def FAB_STALL : Nat := 0x5006
/-- EV_FAB_PROTOCOL: A control flit of unknown type, or a HEAD with an illegal NFLIT, was discarded. -/
def FAB_PROTOCOL : Nat := 0x5007
/-- EV_FAB_REFUSED: A fabric command, revision or slice write was refused in the present state. -/
def FAB_REFUSED : Nat := 0x5008
/-- EV_COLL_FOREIGN: A tile or message named a scope, group, rank, phase or message type outside the receiver's section; discarded. -/
def COLL_FOREIGN : Nat := 0x6001
/-- EV_COLL_STALE: A tile, message or scope tile named a step other than the one running, or a RETRACT arrived after its flip beat; discarded. -/
def COLL_STALE : Nat := 0x6002
/-- EV_COLL_EXCESS: A phase received more tiles than EXPECT; counted once per phase per step. -/
def COLL_EXCESS : Nat := 0x6003
/-- EV_COLL_POISON: The partition used a retracted tile, or held one used when the RETRACT came. -/
def COLL_POISON : Nat := 0x6004
/-- EV_COLL_RETRACT: The partition retracted its sends in a group; counted once per group per step. -/
def COLL_RETRACT : Nat := 0x6005
/-- EV_COLL_PROVOVF: The provisional table filled in a step. -/
def COLL_PROVOVF : Nat := 0x6006
/-- EV_GRP_DEGRADED: A group entered Degraded on this partition. -/
def GRP_DEGRADED : Nat := 0x6007
/-- EV_GRP_REFUSED: A PHASE entry of a Degraded group was reached. -/
def GRP_REFUSED : Nat := 0x6008
/-- EV_VOTE_LATE: A VOTE or DECISION arrived after the point at which it counts; discarded. -/
def VOTE_LATE : Nat := 0x6009
/-- EV_VOTE_BAD: A scope tile failed its scruple on receipt; treated as not received. -/
def VOTE_BAD : Nat := 0x600A
/-- EV_HLK_LINK_DOWN: A host port went DOWN (R435). -/
def HLK_LINK_DOWN : Nat := 0x7001
/-- EV_HLK_UNMAPPED: A host access or copy named an address outside the partition's window. -/
def HLK_UNMAPPED : Nat := 0x7002
/-- EV_HLK_MALFORMED: A request broke R423, arrived on an OFF port, or a COPY_IN completion lacked its scruple. -/
def HLK_MALFORMED : Nat := 0x7003
/-- EV_HLK_QUEUE: A copy queue stopped. -/
def HLK_QUEUE : Nat := 0x7004
/-- EV_HLK_TIMEOUT: A TX4 read had no completion within 10 ms. -/
def HLK_TIMEOUT : Nat := 0x7005
/-- EV_HLK_OWNER: The owner port changed. -/
def HLK_OWNER : Nat := 0x7006
/-- EV_HLK_CLAIM_BAD: An owner claim failed to verify. -/
def HLK_CLAIM_BAD : Nat := 0x7007
/-- EV_HLK_REFUSED: A write of HLK_PARTCMD was refused. -/
def HLK_REFUSED : Nat := 0x7008
/-- EV_HLK_PROTOCOL: A control flit of unknown type was discarded. -/
def HLK_PROTOCOL : Nat := 0x7009
/-- EV_SAG_WARN: The input fell below 64.0 V. -/
def SAG_WARN : Nat := 0x8001
/-- EV_SAG_RESET: READY was reached after a reset caused by sag or overvoltage. -/
def SAG_RESET : Nat := 0x8002
/-- EV_PWR_STRETCH: A cluster's clock was stretched for rail droop; counted once per episode. -/
def PWR_STRETCH : Nat := 0x8003
/-- EV_PWR_LIMIT: The input power limit stretched every cluster; counted once per episode. -/
def PWR_LIMIT : Nat := 0x8004
/-- EV_PWR_BROWNOUT: A die browned out in the low-power regulator mode and was fenced. -/
def PWR_BROWNOUT : Nat := 0x8005
/-- EV_PWR_REFUSED: A PWR_CMD write was refused. -/
def PWR_REFUSED : Nat := 0x8006
/-- EV_PWR_STATE: The entry into a commanded state completed. -/
def PWR_STATE : Nat := 0x8007
/-- EV_COOL_WARN: The coolant left its operating limits (R594). -/
def COOL_WARN : Nat := 0x8010
/-- EV_COOL_LIMIT: Coolant or junction temperature stretched every cluster. -/
def COOL_LIMIT : Nat := 0x8011
/-- EV_COOL_TRIP: A junction exceeded 110 °C; thermal trip (R595). -/
def COOL_TRIP : Nat := 0x8012
/-- EV_COOL_SENSOR: A coolant thermistor reading was out of range. -/
def COOL_SENSOR : Nat := 0x8013
/-- EV_FW_VERIFY_FAIL: A controller rejected the flash image at boot. -/
def FW_VERIFY_FAIL : Nat := 0x9001
/-- EV_FW_UPDATE_DONE: An update was written to flash. -/
def FW_UPDATE_DONE : Nat := 0x9002
/-- EV_FW_REFUSED: An update was refused. -/
def FW_REFUSED : Nat := 0x9003
/-- EV_SEC_ID_FAIL: The identity key is not usable. -/
def SEC_ID_FAIL : Nat := 0x9004
/-- EV_SEC_KEYS: The key table changed. -/
def SEC_KEYS : Nat := 0x9005
/-- EV_SEC_REFUSED: A key command or SPDM submission was refused. -/
def SEC_REFUSED : Nat := 0x9006
/-- EV_SEC_SVN_RAISED: The fuse floor was raised. -/
def SEC_SVN_RAISED : Nat := 0x9007
/-- EV_PLAN_UNSIGNED: A plan without a signature was refused while signing was required. -/
def PLAN_UNSIGNED : Nat := 0x9101
/-- EV_PLAN_SIG_BAD: A plan's signature was present and not valid; load refused. -/
def PLAN_SIG_BAD : Nat := 0x9102
/-- EV_BUSHEL_SIG_BAD: A bushel's signature was not valid. -/
def BUSHEL_SIG_BAD : Nat := 0x9201
/-- EV_BUSHEL_REFUSED: A bushel's format or version was refused. -/
def BUSHEL_REFUSED : Nat := 0x9202
/-- EV_DBG_D2: The device entered D2. -/
def DBG_D2 : Nat := 0x9301
/-- EV_DBG_TOKEN_BAD: A token failed its fields or signature. -/
def DBG_TOKEN_BAD : Nat := 0x9302
/-- EV_DBG_LEVEL: The debug level changed. -/
def DBG_LEVEL : Nat := 0x9303
/-- EV_DBG_REFUSED: A valid token was refused in the present state. -/
def DBG_REFUSED : Nat := 0x9304
/-- EV_SPR_RETIRE: A slot was retired. -/
def SPR_RETIRE : Nat := 0xA001
/-- EV_SPR_FILL_DONE: A fill completed. -/
def SPR_FILL_DONE : Nat := 0xA002
/-- EV_SPR_FILL_ABORT: A fill ended under R488 without completing. -/
def SPR_FILL_ABORT : Nat := 0xA003
/-- EV_LOGICAL_SHORTFALL: A cluster became short; the logical count fell by 16. -/
def LOGICAL_SHORTFALL : Nat := 0xA004
/-- EV_SPR_REQUEST: A retirement request awaits the owner port. -/
def SPR_REQUEST : Nat := 0xA005
/-- EV_SPR_REFUSED: A sparing command or request was refused. -/
def SPR_REFUSED : Nat := 0xA006
/-- EV_CORE_ILLEGAL: An illegal instruction under R234 or any rule that calls an encoding illegal, or an illegal DMA descriptor; the core stopped and the step was voted unclean. -/
def CORE_ILLEGAL : Nat := 0xB0C1
/-- EV_CORE_ADDR: An address fault: a fetch, load, store, staging operand, spill record (R123) or DMA descriptor outside its permitted range or misaligned; the core stopped and the step was voted unclean. -/
def CORE_ADDR : Nat := 0xB0C2
/-- EV_PLAN_FORMAT: An image, section or schedule broke a rule of this chapter; load refused. -/
def PLAN_FORMAT : Nat := 0xB101
/-- EV_PLAN_COREMAP: Binding found too few present clusters, or the plan needs more logical cores than the partition presents. -/
def PLAN_COREMAP : Nat := 0xB102
/-- EV_PLAN_CHAIN: A CHAIN section differed from the running chain configuration. -/
def PLAN_CHAIN : Nat := 0xB103
/-- EV_PLAN_STATE: A PLAN_CMD or PLAN_RUN request was refused in the partition's present state. -/
def PLAN_STATE : Nat := 0xB104
/-- EV_CHAIN_HOLDOVER: The chain entered holdover. -/
def CHAIN_HOLDOVER : Nat := 0xB110
/-- EV_CHAIN_LOST: Holdover reached 65,536 beats; no new steps start. -/
def CHAIN_LOST : Nat := 0xB111
/-- EV_CHAIN_CONFLICT: The pod's chain count disagreed with the device's; steps in progress aborted. -/
def CHAIN_CONFLICT : Nat := 0xB112
/-- EV_CHAIN_HORIZON: A chain symbol arrived too late to compensate and was discarded. -/
def CHAIN_HORIZON : Nat := 0xB113
/-- EV_SCHED_SLIP: A step's schedule slid; counted once per step. -/
def SCHED_SLIP : Nat := 0xB114
/-- EV_STEP_OVERRUN: A vote reached its deadline unready and was sent unclean. -/
def STEP_OVERRUN : Nat := 0xB115
/-- EV_STEP_ABORT: A step aborted, on its flip beat or at once (R327); for a partition whose lowest-numbered die is fenced, counted in the device-wide array. -/
def STEP_ABORT : Nat := 0xB201
/-- EV_NAN_LOSS: A LOSS instruction reported a NaN or an infinity; the step was voted unclean. -/
def NAN_LOSS : Nat := 0xB202
/-- EV_STEP_LIMIT: The step counter reached 0xFF_FFFF_FFFF; no step starts until a new stream is written. -/
def STEP_LIMIT : Nat := 0xB203
/-- EV_DRAIN_STALL: A flip was held for a drain; counted once per held flip. -/
def DRAIN_STALL : Nat := 0xB204
/-- EV_DRAIN_ABANDON: A drain was abandoned at HOLDMAX, or by a host link failure. -/
def DRAIN_ABANDON : Nat := 0xB205
/-- EV_RESTORE_ALIGNED: A lane one draw ahead was backstepped; counted once per lane. -/
def RESTORE_ALIGNED : Nat := 0xB206
/-- EV_RESTORE_SKEW: A lane failed the check of R340; counted once per lane. -/
def RESTORE_SKEW : Nat := 0xB207
/-- EV_CTX_CORECOUNT: A restore found fewer serving logical cores than the context records. -/
def CTX_CORECOUNT : Nat := 0xB208
/-- EV_CTX_FORMAT: A context image broke a rule of R337, or did not match the commit table. -/
def CTX_FORMAT : Nat := 0xB209
/-- EV_CTX_PLAN: A context belongs to a different plan. -/
def CTX_PLAN : Nat := 0xB20A
/-- EV_CTX_STATE: A step or context write or command was refused in the partition's present state. -/
def CTX_STATE : Nat := 0xB20B
/-- EV_CTX_CTAB: A commit table failed the check of R320. -/
def CTX_CTAB : Nat := 0xB20C
/-- EV_COMMIT_UNCERTAIN: A partition aborted after voting clean without knowing the scope's outcome (R325). -/
def COMMIT_UNCERTAIN : Nat := 0xB20D
/-- EV_PERF_WRAP: A 48-bit performance counter wrapped to zero; counted once per wrap of each counter, in the array of the die that owns the counter, or in the device-wide array for a counter in the device-wide block. -/
def PERF_WRAP : Nat := 0xC0F0
/-- EV_BRIDGE_DOWN: A die bridge was declared down as R24 states; counted in the device-wide array. -/
def BRIDGE_DOWN : Nat := 0xC0F1
/-- EV_CHAIN_EPOCH: The chain count wrapped to zero. -/
def CHAIN_EPOCH : Nat := 0xC100
/-- EV_CTL_ELECTED: An election after module reset chose a lead. -/
def CTL_ELECTED : Nat := 0xC201
/-- EV_CTL_TAKEOVER: The next-in-line took over as lead. -/
def CTL_TAKEOVER : Nat := 0xC202
/-- EV_CTL_RESET: A controller was reset. -/
def CTL_RESET : Nat := 0xC203
/-- EV_DIE_LOSS: A die was fenced. -/
def DIE_LOSS : Nat := 0xC204
/-- EV_BOOT_READY: The device reached READY; sent on every UP host port (R514). -/
def BOOT_READY : Nat := 0xC301
/-- EV_BOOT_FLASH: A copy of the retirement list failed its CRC or disagreed with the other copy, and was rewritten; or both copies failed. -/
def BOOT_FLASH : Nat := 0xC302
/-- EV_BOOT_STAGE: A die exceeded a stage bound, or no controller announced. -/
def BOOT_STAGE : Nat := 0xC303


/-- Every defined code (R39, R40). -/
def all : List Nat :=
  [CHK_FAIL, CHK_DUP, CHK_TRANSIENT, CHK_PERMANENT, CHK_DATA, CHK_UNRESOLVED,
   CHK_LOGLOST, TEST_FAIL, TEST_BUSY, TEST_SKIP, TEST_FORCED, TILE_CHECK,
   TILE_POISON, HBM_UE, FMT_SATURATE, FMT_MISMATCH, FMT_ILLEGAL, FMT_OVERFLOW,
   FMT_NAN_BLOCK, ACC_OVERFLOW, ACC_RECORD_BAD, GILL_OVERFLOW, GILL_CLAMP, EDGE_SHAPE,
   GILL_STALE, FALLBACK_GRANTED, FALLBACK_DENIED, FALLBACK_STORM, FALLBACK_SPLIT, FALLBACK_REVERT_REFUSED,
   DRAW_SAT, RNG_BACKSTEP_REFUSED, RNG_INDEX, SAMPLE_NAN, FAB_EXTRA, FAB_MISSING,
   FAB_LINK_DOWN, FAB_SLICE, FAB_NOROUTE, FAB_STALL, FAB_PROTOCOL, FAB_REFUSED,
   COLL_FOREIGN, COLL_STALE, COLL_EXCESS, COLL_POISON, COLL_RETRACT, COLL_PROVOVF,
   GRP_DEGRADED, GRP_REFUSED, VOTE_LATE, VOTE_BAD, HLK_LINK_DOWN, HLK_UNMAPPED,
   HLK_MALFORMED, HLK_QUEUE, HLK_TIMEOUT, HLK_OWNER, HLK_CLAIM_BAD, HLK_REFUSED] ++
  [HLK_PROTOCOL, SAG_WARN, SAG_RESET, PWR_STRETCH, PWR_LIMIT, PWR_BROWNOUT,
   PWR_REFUSED, PWR_STATE, COOL_WARN, COOL_LIMIT, COOL_TRIP, COOL_SENSOR,
   FW_VERIFY_FAIL, FW_UPDATE_DONE, FW_REFUSED, SEC_ID_FAIL, SEC_KEYS, SEC_REFUSED,
   SEC_SVN_RAISED, PLAN_UNSIGNED, PLAN_SIG_BAD, BUSHEL_SIG_BAD, BUSHEL_REFUSED, DBG_D2,
   DBG_TOKEN_BAD, DBG_LEVEL, DBG_REFUSED, SPR_RETIRE, SPR_FILL_DONE, SPR_FILL_ABORT,
   LOGICAL_SHORTFALL, SPR_REQUEST, SPR_REFUSED, CORE_ILLEGAL, CORE_ADDR, PLAN_FORMAT,
   PLAN_COREMAP, PLAN_CHAIN, PLAN_STATE, CHAIN_HOLDOVER, CHAIN_LOST, CHAIN_CONFLICT,
   CHAIN_HORIZON, SCHED_SLIP, STEP_OVERRUN, STEP_ABORT, NAN_LOSS, STEP_LIMIT,
   DRAIN_STALL, DRAIN_ABANDON, RESTORE_ALIGNED, RESTORE_SKEW, CTX_CORECOUNT, CTX_FORMAT,
   CTX_PLAN, CTX_STATE, CTX_CTAB, COMMIT_UNCERTAIN, PERF_WRAP, BRIDGE_DOWN,
   CHAIN_EPOCH, CTL_ELECTED, CTL_TAKEOVER, CTL_RESET, DIE_LOSS, BOOT_READY,
   BOOT_FLASH, BOOT_STAGE]

/-- Codes whose chapter says that they interrupt a host whatever HLK_IMASK holds (R432). -/
def forced : List Nat :=
  [FAB_LINK_DOWN, FALLBACK_STORM, HLK_LINK_DOWN, HLK_OWNER, CHK_PERMANENT, TEST_FAIL, HBM_UE, LOGICAL_SHORTFALL,
   DIE_LOSS, CTL_TAKEOVER, SAG_WARN, PWR_BROWNOUT, DBG_D2, SEC_ID_FAIL, FW_VERIFY_FAIL, COOL_WARN, COOL_TRIP, BRIDGE_DOWN]

end Sys2Proof.Machine.Ev
end

