-- ==== Sys2Proof/Machine/MemOps.lean ====
section
/-!
DEFINITION. Byte memory over the device address space (R26 to R28, R443 to R445): reading and writing bytes, where a
payload tile's scruple lies, and how a write keeps it in step.
-/
namespace Sys2Proof.Machine

/-- Byte memory at device addresses; an unlisted byte reads as 0 (assumption 2). -/
abbrev Memory := SMap Byte

/-- The canonical form: addresses strictly rising, and no entry equal to what an unlisted byte reads as. -/
def Memory.wf (m : Memory) : Bool := SMap.wf (fun _ => 0) m

/-- The byte at an address. -/
def Memory.byte (m : Memory) (a : Nat) : Byte := SMap.read 0 m a

/-- The bytes at `a`, `a+1`, …, `a+n−1`, found in an already narrowed table. -/
def Memory.bytesFrom (m : Memory) (a : Nat) : Nat → List Byte
  | 0 => []
  | n + 1 => Memory.byte m a :: Memory.bytesFrom m (a + 1) n

/-- `n` bytes from address `a`. -/
def Memory.bytes (m : Memory) (a n : Nat) : List Byte := Memory.bytesFrom (SMap.window m a (a + n)) a n

/-- Writes bytes from address `a` on. -/
def Memory.put (m : Memory) (a : Nat) (bs : List Byte) : Memory := SMap.splice m a (a + bs.length) (SMap.ofList 0 a bs)

/-- The little-endian number in `n` bytes from `a`. -/
def Memory.num (m : Memory) (a n : Nat) : Nat := leNat (Memory.bytes m a n)

/-- Start of the core-store region, of each core's stride, and the sizes of R26 to R28. -/
def coreBase : Nat := 0x1000000000000
def strideSize : Nat := 0x200000
def stackSize : Nat := 0x1800000000
def hbmEnd : Nat := 24 * 0x1800000000
def sidebandOff : Nat := 0x17F4000000
def tileSize : Nat := 4096

/-- The base of die space, the size of a die's, and the base of the device-wide block (R26). -/
def ctlBase : Nat := 0x2000000000000
def ctlSize : Nat := 0x100000000
def devBase : Nat := 0x2000800000000

/-- Whether an address is control and status space or the device-wide block, whose accesses are of 8 bytes (R423). -/
def isCtl (a : Nat) : Bool := (decide (ctlBase ≤ a) && decide (a < ctlBase + 6 * ctlSize)) || (decide (devBase ≤ a) && decide (a < devBase + ctlSize))

/-- The device address of a stride offset of a logical core (R26, R27). -/
def strideAddr (core off : Nat) : Nat := coreBase + core * strideSize + off

/-- What a device address names in the memory regions (R26 to R28). -/
inductive MemPlace where
  | hbmPayload (stack tile : Nat)
  | hbmSideband (stack : Nat)
  | corePayload (core tile : Nat)
  | coreSideband (core : Nat)
  | staging (core : Nat)
  | gill (core : Nat)
  | other
  deriving DecidableEq, Repr

/-- Classifies a memory address (R26 to R28, R137); reserved places are `other`. -/
def memPlace (a : Nat) : MemPlace :=
  if a < hbmEnd then
    if a % stackSize < sidebandOff then .hbmPayload (a / stackSize) (a % stackSize / tileSize)
    else .hbmSideband (a / stackSize)
  else if coreBase ≤ a ∧ a < coreBase + 65536 * strideSize then
    let c := (a - coreBase) / strideSize
    let o := (a - coreBase) % strideSize
    if o < 0xFF000 then .corePayload c (o / tileSize)
    else if o < 0xFF7F8 then .coreSideband c
    else if o < 0x100000 then .other
    else if o < 0x11A000 then .staging c
    else if o < 0x120000 then .gill c
    else .other
  else .other

/-- The device address of the scruple of the payload tile that holds `a` (R27, R28); none outside payload. -/
def scrupleAddr (a : Nat) : Option Nat :=
  match memPlace a with
  | .hbmPayload st t => some (st * stackSize + sidebandOff + 8 * t)
  | .corePayload c t => some (strideAddr c (0xFF000 + 8 * t))
  | _ => none

/-- The poison scruple (R444). -/
def poisonScruple : Nat := 0xFFFFFFFFFFFFFFFF

/-- The scruple of a tile's content (R443). -/
def tileScruple (bs : List Byte) : Nat :=
  let ws := (chunks 4 1024 bs).map leNat
  let s := fletcherSums ws (0, 0)
  s.2 * 2 ^ 32 + s.1

/-- The scruple after word `i` of a tile changes from `o` to `n` (R445). -/
def scrupleStep (scr : Nat) (i o n : Nat) : Nat :=
  let d := (n + 0xFFFFFFFF * 2 - o) % 0xFFFFFFFF
  let s1 := (scr % 2 ^ 32 + d) % 0xFFFFFFFF
  let s2 := (scr / 2 ^ 32 + (1024 - i) * d) % 0xFFFFFFFF
  s2 * 2 ^ 32 + s1

/-- The updates of the words `i`, `i+1`, … given old and new bytes from word `i` on. -/
def scrupleWords : Nat → List (List Byte) → List (List Byte) → Nat → Nat
  | _, [], _, s => s
  | _, _, [], s => s
  | i, o :: os, n :: ns, s => scrupleWords (i + 1) os ns (scrupleStep s i (leNat o) (leNat n))

/-- A write inside one payload tile (or outside payload, where there is no scruple), keeping the scruple by the
word-by-word rule; the poison scruple stays (R445). -/
def Memory.putPart (m : Memory) (a : Nat) (bs : List Byte) : Memory :=
  let m' := Memory.put m a bs
  match scrupleAddr a with
  | none => m'
  | some sa =>
    let scr := Memory.num m sa 8
    if scr = poisonScruple then m'
    else
      let base := a / 4 * 4
      let len := (a + bs.length + 3) / 4 * 4 - base
      let scr' := scrupleWords (base % tileSize / 4) (chunks 4 1024 (Memory.bytes m base len))
        (chunks 4 1024 (Memory.bytes m' base len)) scr
      Memory.put m' sa (leBytes 8 scr')

/-- A write that covers a whole tile, with the scruple it leaves (R445). -/
def Memory.putTile (m : Memory) (a : Nat) (bs : List Byte) (scr : Nat) : Memory :=
  let m' := Memory.put m a bs
  match scrupleAddr a with
  | none => m'
  | some sa => Memory.put m' sa (leBytes 8 scr)

/-- A write inside one tile: whole tiles get a fresh scruple, parts the word-by-word update (R445). -/
def Memory.store (m : Memory) (a : Nat) (bs : List Byte) : Memory :=
  if a % tileSize = 0 ∧ bs.length = tileSize then Memory.putTile m a bs (tileScruple bs) else Memory.putPart m a bs

/-- A write of any length, cut at tile boundaries. -/
def Memory.storeAll : Nat → Memory → Nat → List Byte → Memory
  | 0, m, _, _ => m
  | _, m, _, [] => m
  | fuel + 1, m, a, bs =>
    let n := tileSize - a % tileSize
    Memory.storeAll fuel (Memory.store m a (bs.take n)) (a + n) (bs.drop n)

/-- Whether the tile at `a` verifies: its content's scruple is the stored one (R443, R446). -/
def Memory.verify (m : Memory) (a : Nat) : Bool :=
  match scrupleAddr a with
  | none => true
  | some sa => tileScruple (Memory.bytes m (a / tileSize * tileSize) tileSize) == Memory.num m sa 8

/-- The stored scruple of the tile at `a` (0 outside payload). -/
def Memory.scruple (m : Memory) (a : Nat) : Nat :=
  match scrupleAddr a with
  | none => 0
  | some sa => Memory.num m sa 8

end Sys2Proof.Machine
end

