-- ==== Sys2Proof/Machine/RegMap.lean ====
section
/-!
DEFINITION. The register map: every register of the device, die and core spaces, by the spec's name, with its place,
its fields (access type and reset value) and who may write it. Each line follows the register table of the rule named
in it. Arrays of registers are one kind with an instance number.
-/
namespace Sys2Proof.Machine

/-- The registers, by their names in the spec. -/
inductive RegKind where
  | SPR_REMAP_LO | SPR_REMAP_HI | SPR_CLSTAT | CTL_BRG | CTL_DIECFG | CTL_CLPRES
  | CTL_DEVCFG | CTL_EVCNT | CTL_EVCNT_DEV | ARR_CTL | ARR_STAT | ARR_BANK
  | ARR_PC_ISSUE | ARR_PC_BLOCKS | ARR_PC_TRUNC_ROW | ARR_PC_TRUNC_COL | ARR_PC_GATED | ACC_CTL
  | ACC_STAT | ACC_PC_PROMOTE | ACC_PC_ALIGN_TRUNC | ACC_PC_BYPASS | ACC_PC_SPILL | ACC_PC_RESUME
  | EDGE_CTL | EDGE_LAYER | EDGE_ROTSEED | EDGE_STAT | GILL_CTL | GILL_STAT
  | GILL_OVF | EDGE_PC_BLOCKS | EDGE_PC_SAT | EDGE_PC_UNDER | EDGE_PC_EXTRACT | EDGE_PC_DRAWS
  | RNG_CTL | RNG_SEED | RNG_STREAM | RNG_BACKSTEP | RNG_STAT | RNG_PC_LANE
  | RNG_PC_KEYED | RNG_LANE_LO | RNG_LANE_HI | RNG_LANE_CNT | RNG_CDF | FMT_CTL
  | FMT_STAT | FMT_BUDGET | FMT_REVERT | FMT_MON_CFG | FMT_MON_SIZE | FMT_MON_STATE
  | FMT_MON_BASE | FMT_MON_RVSTEP | FMT_MON_BLK | FMT_MON_SAT | FMT_MON_ZERO | FMT_MON_NZ
  | FMT_MON_EXTRACT | FMT_MON_CLIP | CORE_ENTRY | CORE_STAT | CORE_FPC | CORE_FADDR
  | CORE_VFP | CORE_PC_ISSUE | CORE_PC_STALL_REG | CORE_PC_STALL_UNIT | CORE_PC_STALL_DRAW | CORE_PC_STALL_SYNC
  | CORE_PC_HOLD_BANK | CORE_PC_HOLD_PANEL | GRP_CORETAG | PLAN_ADDR | PLAN_CMD | PLAN_STAT
  | PLAN_ID | PLAN_RUN | PLAN_STEPBEAT | PLAN_SCHED | PLAN_PC_SLIP | PLAN_DIGEST
  | PLAN_BIND | PLAN_CTL | CHN_CTL | CHN_CFG | CHN_FWD | CHN_STAT
  | CHN_COUNT | CHN_PC_MISS | CHN_DLY | STEP_CFG | STEP_CTAB | STEP_CTR
  | STEP_STREAM | STEP_STAT | STEP_NANL | STEP_PC_COMMIT | STEP_PC_ABORT | STEP_PC_HOLD
  | CTX_CTL | CTX_DHOST | CTX_DSTAT | CTX_RADDR | CTX_CMD | CTX_STAT
  | CTX_SIZE | STEP_CORE | FAB_PORT_CTL | FAB_PORT_STAT | FAB_PORT_PEER | FAB_PORT_ERR
  | FAB_PORT_DROP | FAB_PORT_PC_TXT | FAB_PORT_PC_RXT | FAB_CMD | FAB_STAT | FAB_PLAN_ACK
  | FAB_REVDIGEST | FAB_INJDROP | FAB_RT | FAB_SERIAL | FAB_CTL | FAB_PARTSLICE
  | FAB_PSL | GRP_STAT | GRP_SCOPE | GRP_PC_ACCEPT | GRP_PC_REJECT | GRP_G
  | HLK_PCTL | HLK_PSTAT | HLK_PERR | HLK_PC_TX | HLK_PC_RX | HLK_IMASK
  | HLK_Q_BASE | HLK_Q_CBASE | HLK_Q_CFG | HLK_Q_DB | HLK_Q_STAT | HLK_PARTCFG
  | HLK_PARTCMD | HLK_OWNSTAT | HLK_OWNNONCE | HLK_OWNCMD | HLK_CLAIM | CHK_CTL
  | CHK_STAT | CHK_PC_CHECKS | CHK_PC_SKIP | CHK_LOGSTAT | CHK_LOGACK | CHK_LOG
  | TEST_CTL | TEST_CMD | TEST_STAT | TEST_BINST | TEST_BSLOT | SPR_POLICY
  | SPR_CMD | SPR_REQ | SPR_STAT | CTL_ELECT | CTL_JSTAT | CTL_CSTAT
  | CTL_BOOT | CTL_DBOOT | PWR_CMD | PWR_STAT | PWR_RETAIN | PWR_INPUT
  | PWR_RSTCAUSE | PWR_DSTAT | PWR_LPREG | PWR_PC_STRETCH | SEC_STAT | SEC_SVN
  | SEC_FWUPD | SEC_KEYCMD | SEC_KEY | SEC_IDKEY | SEC_SPDM | DBG_CTL
  | DBG_STAT | DBG_NONCE | DBG_TOKEN | PWR_COOL | PWR_COOLCFG | SPDM_REQ
  | SPDM_RSP
  deriving DecidableEq, Repr

/-- Where a register lies: in each die's control space, in the device-wide block, or in each core's window (R26, R97). -/
inductive RegSpace where
  | die | dev | core
  deriving DecidableEq, Repr

/-- The access types of the scope chapter; RSV bits are those no field covers. -/
inductive Access where
  | ro | rw | wo | w1c | w1s | rc
  deriving DecidableEq, Repr

/-- Who may write a register: nobody; any port whose partition holds the die (or the core's own SCSR); the same in the
partition's lowest die only; the owner port; or any host port. -/
inductive Writer where
  | none | partition | lowest | owner | anyPort
  deriving DecidableEq, Repr

/-- A field of a register: lowest bit, width, access type and reset value. -/
structure FieldDesc where
  lo : Nat
  width : Nat
  acc : Access
  reset : Nat
  deriving DecidableEq, Repr

/-- A register kind: its space, the offset of instance 0, the number of instances per space and their stride. -/
structure RegDesc where
  space : RegSpace
  base : Nat
  count : Nat
  stride : Nat
  writer : Writer
  fields : List FieldDesc
  deriving DecidableEq, Repr

/-- A named field: its register, lowest bit and width. -/
structure Fld where
  reg : RegKind
  lo : Nat
  width : Nat
  deriving DecidableEq, Repr

/-- The map itself. -/
def regDesc : RegKind → RegDesc
  | .SPR_REMAP_LO => ⟨.die, 0x100000, 272, 0x20, .none, [⟨0, 5, .ro, 0⟩, ⟨8, 5, .ro, 1⟩, ⟨16, 5, .ro, 2⟩, ⟨24, 5, .ro, 3⟩, ⟨32, 5, .ro, 4⟩, ⟨40, 5, .ro, 5⟩, ⟨48, 5, .ro, 6⟩, ⟨56, 5, .ro, 7⟩]⟩ -- R15
  | .SPR_REMAP_HI => ⟨.die, 0x100008, 272, 0x20, .none, [⟨0, 5, .ro, 8⟩, ⟨8, 5, .ro, 9⟩, ⟨16, 5, .ro, 10⟩, ⟨24, 5, .ro, 11⟩, ⟨32, 5, .ro, 12⟩, ⟨40, 5, .ro, 13⟩, ⟨48, 5, .ro, 14⟩, ⟨56, 5, .ro, 15⟩]⟩ -- R15
  | .SPR_CLSTAT => ⟨.die, 0x100010, 272, 0x20, .none, [⟨0, 5, .ro, 0x10⟩, ⟨8, 17, .ro, 0⟩, ⟨25, 1, .ro, 0⟩, ⟨26, 1, .ro, 0⟩, ⟨27, 1, .ro, 0⟩, ⟨32, 8, .ro, 0⟩]⟩ -- R15
  | .CTL_BRG => ⟨.dev, 0x100, 7, 0x8, .owner, [⟨0, 1, .ro, 0⟩, ⟨16, 16, .ro, 0⟩, ⟨32, 1, .ro, 0⟩, ⟨63, 1, .wo, 0⟩]⟩ -- R25
  | .CTL_DIECFG => ⟨.die, 0x0, 1, 0x8, .none, [⟨0, 3, .ro, 0⟩, ⟨3, 1, .ro, 0⟩, ⟨4, 1, .ro, 0⟩, ⟨8, 9, .ro, 0x110⟩, ⟨32, 13, .ro, 0x1100⟩, ⟨48, 13, .ro, 0x1210⟩]⟩ -- R30
  | .CTL_CLPRES => ⟨.die, 0x100, 5, 0x8, .none, [⟨0, 64, .ro, 0xFFFFFFFFFFFFFFFF⟩]⟩ -- R31
  | .CTL_DEVCFG => ⟨.dev, 0x0, 1, 0x8, .none, [⟨0, 16, .ro, 0x6600⟩, ⟨16, 16, .ro, 0x6C60⟩, ⟨32, 6, .ro, 0x3F⟩, ⟨40, 3, .ro, 0⟩, ⟨44, 4, .ro, 1⟩]⟩ -- R32
  | .CTL_EVCNT => ⟨.die, 0x200000, 65536, 0x8, .partition, [⟨0, 32, .ro, 0⟩, ⟨32, 1, .ro, 0⟩, ⟨63, 1, .wo, 0⟩]⟩ -- R39
  | .CTL_EVCNT_DEV => ⟨.dev, 0x200000, 65536, 0x8, .owner, [⟨0, 32, .ro, 0⟩, ⟨32, 1, .ro, 0⟩, ⟨63, 1, .wo, 0⟩]⟩ -- R39
  | .ARR_CTL => ⟨.core, 0x200, 1, 0x8, .partition, [⟨0, 1, .rw, 1⟩]⟩ -- R99
  | .ARR_STAT => ⟨.core, 0x208, 1, 0x8, .none, [⟨0, 4, .ro, 0⟩, ⟨4, 8, .ro, 0⟩]⟩ -- R100
  | .ARR_BANK => ⟨.core, 0x210, 8, 0x8, .none, [⟨0, 4, .ro, 0xF⟩, ⟨4, 1, .ro, 0⟩, ⟨5, 1, .ro, 0⟩, ⟨8, 8, .ro, 0xFF⟩, ⟨16, 8, .ro, 0⟩, ⟨32, 32, .ro, 0⟩]⟩ -- R101
  | .ARR_PC_ISSUE => ⟨.core, 0x280, 1, 0x8, .partition, [⟨0, 48, .ro, 0⟩, ⟨63, 1, .wo, 0⟩]⟩ -- R102
  | .ARR_PC_BLOCKS => ⟨.core, 0x288, 1, 0x8, .partition, [⟨0, 48, .ro, 0⟩, ⟨63, 1, .wo, 0⟩]⟩ -- R102
  | .ARR_PC_TRUNC_ROW => ⟨.core, 0x290, 1, 0x8, .partition, [⟨0, 48, .ro, 0⟩, ⟨63, 1, .wo, 0⟩]⟩ -- R102
  | .ARR_PC_TRUNC_COL => ⟨.core, 0x298, 1, 0x8, .partition, [⟨0, 48, .ro, 0⟩, ⟨63, 1, .wo, 0⟩]⟩ -- R102
  | .ARR_PC_GATED => ⟨.core, 0x2a0, 1, 0x8, .partition, [⟨0, 48, .ro, 0⟩, ⟨63, 1, .wo, 0⟩]⟩ -- R102
  | .ACC_CTL => ⟨.core, 0x300, 1, 0x8, .partition, [⟨0, 7, .rw, 0x20⟩, ⟨8, 1, .rw, 0⟩]⟩ -- R133
  | .ACC_STAT => ⟨.core, 0x308, 1, 0x8, .none, [⟨0, 8, .ro, 0⟩, ⟨8, 8, .ro, 0⟩, ⟨16, 8, .ro, 0⟩]⟩ -- R134
  | .ACC_PC_PROMOTE => ⟨.core, 0x380, 1, 0x8, .partition, [⟨0, 48, .ro, 0⟩, ⟨63, 1, .wo, 0⟩]⟩ -- R135
  | .ACC_PC_ALIGN_TRUNC => ⟨.core, 0x388, 1, 0x8, .partition, [⟨0, 48, .ro, 0⟩, ⟨63, 1, .wo, 0⟩]⟩ -- R135
  | .ACC_PC_BYPASS => ⟨.core, 0x390, 1, 0x8, .partition, [⟨0, 48, .ro, 0⟩, ⟨63, 1, .wo, 0⟩]⟩ -- R135
  | .ACC_PC_SPILL => ⟨.core, 0x398, 1, 0x8, .partition, [⟨0, 48, .ro, 0⟩, ⟨63, 1, .wo, 0⟩]⟩ -- R135
  | .ACC_PC_RESUME => ⟨.core, 0x3a0, 1, 0x8, .partition, [⟨0, 48, .ro, 0⟩, ⟨63, 1, .wo, 0⟩]⟩ -- R135
  | .EDGE_CTL => ⟨.core, 0x400, 1, 0x8, .partition, [⟨0, 1, .rw, 0⟩, ⟨1, 2, .rw, 0⟩, ⟨3, 2, .rw, 0⟩, ⟨5, 1, .rw, 0⟩, ⟨8, 3, .rw, 3⟩]⟩ -- R161
  | .EDGE_LAYER => ⟨.core, 0x408, 1, 0x8, .partition, [⟨0, 16, .rw, 0⟩]⟩ -- R162
  | .EDGE_ROTSEED => ⟨.core, 0x410, 1, 0x8, .none, [⟨0, 48, .ro, 0⟩]⟩ -- R163
  | .EDGE_STAT => ⟨.core, 0x418, 1, 0x8, .none, [⟨0, 1, .ro, 0⟩, ⟨1, 1, .ro, 0⟩]⟩ -- R164
  | .GILL_CTL => ⟨.core, 0x420, 1, 0x8, .partition, [⟨0, 8, .rw, 0⟩, ⟨8, 3, .rw, 2⟩, ⟨63, 1, .wo, 0⟩]⟩ -- R165
  | .GILL_STAT => ⟨.core, 0x428, 1, 0x8, .none, [⟨0, 13, .ro, 0⟩, ⟨13, 1, .ro, 0⟩]⟩ -- R166
  | .GILL_OVF => ⟨.core, 0x430, 1, 0x8, .partition, [⟨0, 32, .ro, 0⟩, ⟨32, 1, .ro, 0⟩, ⟨63, 1, .wo, 0⟩]⟩ -- R167
  | .EDGE_PC_BLOCKS => ⟨.core, 0x480, 1, 0x8, .partition, [⟨0, 48, .ro, 0⟩, ⟨63, 1, .wo, 0⟩]⟩ -- R168
  | .EDGE_PC_SAT => ⟨.core, 0x488, 1, 0x8, .partition, [⟨0, 48, .ro, 0⟩, ⟨63, 1, .wo, 0⟩]⟩ -- R168
  | .EDGE_PC_UNDER => ⟨.core, 0x490, 1, 0x8, .partition, [⟨0, 48, .ro, 0⟩, ⟨63, 1, .wo, 0⟩]⟩ -- R168
  | .EDGE_PC_EXTRACT => ⟨.core, 0x498, 1, 0x8, .partition, [⟨0, 48, .ro, 0⟩, ⟨63, 1, .wo, 0⟩]⟩ -- R168
  | .EDGE_PC_DRAWS => ⟨.core, 0x4a0, 1, 0x8, .partition, [⟨0, 48, .ro, 0⟩, ⟨63, 1, .wo, 0⟩]⟩ -- R168
  | .RNG_CTL => ⟨.core, 0x500, 1, 0x8, .partition, [⟨0, 1, .rw, 0⟩, ⟨16, 16, .rw, 0⟩]⟩ -- R222
  | .RNG_SEED => ⟨.core, 0x508, 1, 0x8, .none, [⟨0, 48, .ro, 0⟩]⟩ -- R223
  | .RNG_STREAM => ⟨.core, 0x510, 1, 0x8, .none, [⟨0, 16, .ro, 0⟩]⟩ -- R223
  | .RNG_BACKSTEP => ⟨.core, 0x518, 1, 0x8, .partition, [⟨0, 32, .wo, 0⟩]⟩ -- R223
  | .RNG_STAT => ⟨.core, 0x520, 1, 0x8, .none, [⟨0, 1, .ro, 0⟩, ⟨32, 32, .ro, 0⟩]⟩ -- R224
  | .RNG_PC_LANE => ⟨.core, 0x580, 1, 0x8, .partition, [⟨0, 48, .ro, 0⟩, ⟨63, 1, .wo, 0⟩]⟩ -- R226
  | .RNG_PC_KEYED => ⟨.core, 0x588, 1, 0x8, .partition, [⟨0, 48, .ro, 0⟩, ⟨63, 1, .wo, 0⟩]⟩ -- R226
  | .RNG_LANE_LO => ⟨.core, 0x600, 32, 0x20, .none, [⟨0, 64, .ro, 0⟩]⟩ -- R225
  | .RNG_LANE_HI => ⟨.core, 0x608, 32, 0x20, .none, [⟨0, 32, .ro, 0⟩]⟩ -- R225
  | .RNG_LANE_CNT => ⟨.core, 0x610, 32, 0x20, .none, [⟨0, 48, .ro, 0⟩]⟩ -- R225
  | .RNG_CDF => ⟨.core, 0xa00, 128, 0x8, .none, [⟨0, 32, .ro, 0⟩, ⟨32, 32, .ro, 0⟩]⟩ -- R225
  | .FMT_CTL => ⟨.die, 0x300000, 1, 0x8, .lowest, [⟨0, 1, .rw, 0⟩]⟩ -- R191
  | .FMT_STAT => ⟨.die, 0x300008, 1, 0x8, .lowest, [⟨0, 32, .ro, 0⟩, ⟨32, 11, .ro, 0⟩, ⟨43, 1, .w1c, 0⟩, ⟨44, 1, .w1c, 0⟩]⟩ -- R192
  | .FMT_BUDGET => ⟨.die, 0x300010, 1, 0x8, .lowest, [⟨0, 28, .ro, 0⟩, ⟨32, 28, .ro, 0⟩]⟩ -- R193
  | .FMT_REVERT => ⟨.die, 0x300018, 1, 0x8, .lowest, [⟨0, 10, .wo, 0⟩, ⟨10, 1, .wo, 0⟩, ⟨11, 40, .wo, 0⟩]⟩ -- R194
  | .FMT_MON_CFG => ⟨.die, 0x310000, 1024, 0x80, .lowest, [⟨0, 16, .ro, 0⟩, ⟨16, 16, .ro, 0⟩, ⟨32, 4, .ro, 0⟩, ⟨36, 1, .ro, 0⟩, ⟨37, 1, .ro, 0⟩, ⟨38, 4, .ro, 0⟩]⟩ -- R195
  | .FMT_MON_SIZE => ⟨.die, 0x310008, 1024, 0x80, .lowest, [⟨0, 28, .ro, 0⟩, ⟨28, 36, .ro, 0⟩]⟩ -- R195
  | .FMT_MON_STATE => ⟨.die, 0x310010, 1024, 0x80, .lowest, [⟨0, 4, .ro, 0⟩, ⟨4, 1, .ro, 0⟩, ⟨5, 1, .ro, 0⟩, ⟨6, 1, .ro, 0⟩, ⟨7, 1, .ro, 0⟩, ⟨8, 40, .ro, 0⟩]⟩ -- R196
  | .FMT_MON_BASE => ⟨.die, 0x310018, 1024, 0x80, .lowest, [⟨0, 52, .ro, 0⟩]⟩ -- R196
  | .FMT_MON_RVSTEP => ⟨.die, 0x310020, 1024, 0x80, .lowest, [⟨0, 40, .ro, 0⟩]⟩ -- R195
  | .FMT_MON_BLK => ⟨.die, 0x310028, 1024, 0x80, .lowest, [⟨0, 48, .ro, 0⟩]⟩ -- R190
  | .FMT_MON_SAT => ⟨.die, 0x310030, 1024, 0x80, .lowest, [⟨0, 48, .ro, 0⟩]⟩ -- R190
  | .FMT_MON_ZERO => ⟨.die, 0x310038, 1024, 0x80, .lowest, [⟨0, 48, .ro, 0⟩]⟩ -- R190
  | .FMT_MON_NZ => ⟨.die, 0x310040, 1024, 0x80, .lowest, [⟨0, 48, .ro, 0⟩]⟩ -- R190
  | .FMT_MON_EXTRACT => ⟨.die, 0x310048, 1024, 0x80, .lowest, [⟨0, 48, .ro, 0⟩]⟩ -- R190
  | .FMT_MON_CLIP => ⟨.die, 0x310050, 1024, 0x80, .lowest, [⟨0, 48, .ro, 0⟩]⟩ -- R190
  | .CORE_ENTRY => ⟨.core, 0x0, 1, 0x8, .none, [⟨0, 20, .ro, 0⟩]⟩ -- R276
  | .CORE_STAT => ⟨.core, 0x8, 1, 0x8, .none, [⟨0, 2, .ro, 0⟩, ⟨2, 1, .ro, 0⟩, ⟨16, 16, .ro, 0⟩]⟩ -- R276
  | .CORE_FPC => ⟨.core, 0x10, 1, 0x8, .none, [⟨0, 20, .ro, 0⟩]⟩ -- R277
  | .CORE_FADDR => ⟨.core, 0x18, 1, 0x8, .none, [⟨0, 52, .ro, 0⟩]⟩ -- R277
  | .CORE_VFP => ⟨.core, 0x20, 1, 0x8, .partition, [⟨0, 3, .rw, 0⟩, ⟨4, 1, .rw, 0⟩, ⟨5, 1, .rw, 0⟩, ⟨6, 1, .rw, 0⟩, ⟨7, 1, .rw, 0⟩, ⟨8, 1, .rw, 0⟩]⟩ -- R278
  | .CORE_PC_ISSUE => ⟨.core, 0x80, 1, 0x8, .partition, [⟨0, 48, .ro, 0⟩, ⟨63, 1, .wo, 0⟩]⟩ -- R275
  | .CORE_PC_STALL_REG => ⟨.core, 0x88, 1, 0x8, .partition, [⟨0, 48, .ro, 0⟩, ⟨63, 1, .wo, 0⟩]⟩ -- R275
  | .CORE_PC_STALL_UNIT => ⟨.core, 0x90, 1, 0x8, .partition, [⟨0, 48, .ro, 0⟩, ⟨63, 1, .wo, 0⟩]⟩ -- R275
  | .CORE_PC_STALL_DRAW => ⟨.core, 0x98, 1, 0x8, .partition, [⟨0, 48, .ro, 0⟩, ⟨63, 1, .wo, 0⟩]⟩ -- R275
  | .CORE_PC_STALL_SYNC => ⟨.core, 0xa0, 1, 0x8, .partition, [⟨0, 48, .ro, 0⟩, ⟨63, 1, .wo, 0⟩]⟩ -- R275
  | .CORE_PC_HOLD_BANK => ⟨.core, 0xa8, 1, 0x8, .partition, [⟨0, 48, .ro, 0⟩, ⟨63, 1, .wo, 0⟩]⟩ -- R275
  | .CORE_PC_HOLD_PANEL => ⟨.core, 0xb0, 1, 0x8, .partition, [⟨0, 48, .ro, 0⟩, ⟨63, 1, .wo, 0⟩]⟩ -- R275
  | .GRP_CORETAG => ⟨.core, 0xe80, 1, 0x8, .partition, [⟨0, 16, .rw, 0xFFFE⟩, ⟨16, 12, .rw, 0⟩]⟩ -- R412
  | .PLAN_ADDR => ⟨.die, 0x330000, 1, 0x8, .lowest, [⟨0, 52, .rw, 0⟩]⟩ -- R313
  | .PLAN_CMD => ⟨.die, 0x330008, 1, 0x8, .lowest, [⟨0, 2, .wo, 0⟩]⟩ -- R313
  | .PLAN_STAT => ⟨.die, 0x330010, 1, 0x8, .lowest, [⟨0, 2, .ro, 0⟩, ⟨2, 1, .ro, 0⟩, ⟨3, 1, .ro, 0⟩, ⟨16, 16, .ro, 0⟩]⟩ -- R314
  | .PLAN_ID => ⟨.die, 0x330018, 1, 0x8, .lowest, [⟨0, 64, .ro, 0⟩]⟩ -- R314
  | .PLAN_RUN => ⟨.die, 0x330020, 1, 0x8, .lowest, [⟨0, 64, .wo, 0⟩]⟩ -- R313
  | .PLAN_STEPBEAT => ⟨.die, 0x330028, 1, 0x8, .lowest, [⟨0, 64, .ro, 0⟩]⟩ -- R314
  | .PLAN_SCHED => ⟨.die, 0x330030, 1, 0x8, .lowest, [⟨0, 32, .ro, 0⟩, ⟨32, 32, .ro, 0⟩]⟩ -- R314
  | .PLAN_PC_SLIP => ⟨.die, 0x330038, 1, 0x8, .lowest, [⟨0, 48, .ro, 0⟩, ⟨63, 1, .wo, 0⟩]⟩ -- R315
  | .PLAN_DIGEST => ⟨.die, 0x330040, 8, 0x8, .lowest, [⟨0, 64, .ro, 0⟩]⟩ -- R315
  | .PLAN_BIND => ⟨.die, 0x340000, 272, 0x8, .none, [⟨0, 9, .ro, 0x1FF⟩, ⟨9, 1, .ro, 0⟩]⟩ -- R315
  | .PLAN_CTL => ⟨.dev, 0x2000, 1, 0x8, .owner, [⟨0, 1, .w1s, 0⟩]⟩ -- R316
  | .CHN_CTL => ⟨.dev, 0x3000, 1, 0x8, .none, [⟨0, 4, .ro, 0⟩, ⟨4, 2, .ro, 0⟩, ⟨8, 6, .ro, 0⟩, ⟨16, 8, .ro, 0⟩]⟩ -- R316
  | .CHN_CFG => ⟨.dev, 0x3008, 1, 0x8, .none, [⟨0, 32, .ro, 0⟩, ⟨32, 16, .ro, 0⟩, ⟨48, 16, .ro, 0⟩]⟩ -- R316
  | .CHN_FWD => ⟨.dev, 0x3010, 1, 0x8, .none, [⟨0, 36, .ro, 0⟩]⟩ -- R316
  | .CHN_STAT => ⟨.dev, 0x3018, 1, 0x8, .none, [⟨0, 3, .ro, 0⟩, ⟨8, 17, .ro, 0⟩, ⟨32, 6, .ro, 0⟩]⟩ -- R316
  | .CHN_COUNT => ⟨.dev, 0x3020, 1, 0x8, .none, [⟨0, 64, .ro, 0⟩]⟩ -- R316
  | .CHN_PC_MISS => ⟨.dev, 0x3028, 1, 0x8, .owner, [⟨0, 48, .ro, 0⟩, ⟨63, 1, .wo, 0⟩]⟩ -- R316
  | .CHN_DLY => ⟨.dev, 0x3100, 36, 0x8, .none, [⟨0, 16, .ro, 0⟩, ⟨16, 1, .ro, 0⟩]⟩ -- R316
  | .STEP_CFG => ⟨.die, 0x350000, 1, 0x8, .lowest, [⟨0, 8, .rw, 0x40⟩, ⟨8, 8, .rw, 0xFF⟩]⟩ -- R342
  | .STEP_CTAB => ⟨.die, 0x350008, 1, 0x8, .lowest, [⟨0, 52, .rw, 0⟩]⟩ -- R342
  | .STEP_CTR => ⟨.die, 0x350010, 1, 0x8, .lowest, [⟨0, 40, .rw, 0⟩]⟩ -- R342
  | .STEP_STREAM => ⟨.die, 0x350018, 1, 0x8, .lowest, [⟨0, 16, .rw, 0⟩]⟩ -- R342
  | .STEP_STAT => ⟨.die, 0x350020, 1, 0x8, .lowest, [⟨0, 1, .ro, 0⟩, ⟨1, 1, .ro, 0⟩, ⟨2, 1, .ro, 0⟩, ⟨3, 1, .ro, 0⟩, ⟨4, 1, .ro, 0⟩, ⟨16, 16, .ro, 0⟩, ⟨32, 8, .ro, 0⟩]⟩ -- R343
  | .STEP_NANL => ⟨.die, 0x350028, 1, 0x8, .lowest, [⟨0, 32, .ro, 0⟩, ⟨32, 16, .ro, 0⟩, ⟨48, 1, .ro, 0⟩]⟩ -- R343
  | .STEP_PC_COMMIT => ⟨.die, 0x350080, 1, 0x8, .lowest, [⟨0, 48, .ro, 0⟩, ⟨63, 1, .wo, 0⟩]⟩ -- R341
  | .STEP_PC_ABORT => ⟨.die, 0x350088, 1, 0x8, .lowest, [⟨0, 48, .ro, 0⟩, ⟨63, 1, .wo, 0⟩]⟩ -- R341
  | .STEP_PC_HOLD => ⟨.die, 0x350090, 1, 0x8, .lowest, [⟨0, 48, .ro, 0⟩, ⟨63, 1, .wo, 0⟩]⟩ -- R341
  | .CTX_CTL => ⟨.die, 0x350100, 1, 0x8, .lowest, [⟨0, 1, .rw, 1⟩, ⟨1, 1, .rw, 0⟩]⟩ -- R344
  | .CTX_DHOST => ⟨.die, 0x350108, 1, 0x8, .lowest, [⟨0, 64, .rw, 0⟩]⟩ -- R344
  | .CTX_DSTAT => ⟨.die, 0x350110, 1, 0x8, .lowest, [⟨0, 2, .ro, 0⟩, ⟨24, 40, .ro, 0⟩]⟩ -- R344
  | .CTX_RADDR => ⟨.die, 0x350118, 1, 0x8, .lowest, [⟨0, 52, .rw, 0⟩]⟩ -- R344
  | .CTX_CMD => ⟨.die, 0x350120, 1, 0x8, .lowest, [⟨0, 2, .wo, 0⟩]⟩ -- R344
  | .CTX_STAT => ⟨.die, 0x350128, 1, 0x8, .lowest, [⟨0, 2, .ro, 0⟩, ⟨2, 1, .ro, 0⟩, ⟨16, 16, .ro, 0⟩]⟩ -- R344
  | .CTX_SIZE => ⟨.die, 0x350130, 1, 0x8, .lowest, [⟨0, 32, .ro, 0⟩]⟩ -- R344
  | .STEP_CORE => ⟨.core, 0xe00, 1, 0x8, .none, [⟨0, 1, .ro, 0⟩, ⟨24, 40, .ro, 0⟩]⟩ -- R343
  | .FAB_PORT_CTL => ⟨.die, 0x360000, 6, 0x40, .partition, [⟨0, 1, .rw, 1⟩]⟩ -- R381
  | .FAB_PORT_STAT => ⟨.die, 0x360008, 6, 0x40, .none, [⟨0, 3, .ro, 0⟩, ⟨8, 3, .ro, 0⟩, ⟨16, 6, .ro, 0⟩, ⟨22, 1, .ro, 0⟩, ⟨32, 16, .ro, 0⟩]⟩ -- R381
  | .FAB_PORT_PEER => ⟨.die, 0x360010, 6, 0x40, .none, [⟨0, 64, .ro, 0⟩]⟩ -- R381
  | .FAB_PORT_ERR => ⟨.die, 0x360018, 6, 0x40, .partition, [⟨0, 16, .ro, 0⟩, ⟨16, 16, .ro, 0⟩, ⟨32, 1, .ro, 0⟩, ⟨33, 1, .ro, 0⟩, ⟨63, 1, .wo, 0⟩]⟩ -- R382
  | .FAB_PORT_DROP => ⟨.die, 0x360020, 6, 0x40, .partition, [⟨0, 16, .ro, 0⟩, ⟨16, 16, .ro, 0⟩, ⟨32, 16, .ro, 0⟩, ⟨48, 3, .ro, 0⟩, ⟨63, 1, .wo, 0⟩]⟩ -- R382
  | .FAB_PORT_PC_TXT => ⟨.die, 0x360028, 6, 0x40, .partition, [⟨0, 48, .ro, 0⟩, ⟨63, 1, .wo, 0⟩]⟩ -- R380
  | .FAB_PORT_PC_RXT => ⟨.die, 0x360030, 6, 0x40, .partition, [⟨0, 48, .ro, 0⟩, ⟨63, 1, .wo, 0⟩]⟩ -- R380
  | .FAB_CMD => ⟨.die, 0x361000, 1, 0x8, .lowest, [⟨0, 2, .wo, 0⟩]⟩ -- R383
  | .FAB_STAT => ⟨.die, 0x361008, 1, 0x8, .lowest, [⟨0, 1, .ro, 0⟩, ⟨1, 1, .ro, 0⟩, ⟨8, 6, .ro, 0⟩, ⟨16, 6, .ro, 0⟩, ⟨32, 16, .ro, 0⟩]⟩ -- R383
  | .FAB_PLAN_ACK => ⟨.die, 0x361010, 1, 0x8, .lowest, [⟨0, 52, .wo, 0⟩, ⟨52, 1, .wo, 0⟩]⟩ -- R383
  | .FAB_REVDIGEST => ⟨.die, 0x361040, 8, 0x8, .lowest, [⟨0, 64, .ro, 0⟩]⟩ -- R383
  | .FAB_INJDROP => ⟨.die, 0x361100, 1, 0x8, .partition, [⟨0, 16, .ro, 0⟩, ⟨16, 16, .ro, 0⟩, ⟨32, 16, .ro, 0⟩, ⟨48, 3, .ro, 0⟩, ⟨63, 1, .wo, 0⟩]⟩ -- R382
  | .FAB_RT => ⟨.die, 0x400000, 65536, 0x8, .none, [⟨0, 1, .ro, 0⟩, ⟨1, 1, .ro, 0⟩, ⟨2, 6, .ro, 0⟩, ⟨8, 2, .ro, 0⟩, ⟨16, 8, .ro, 0⟩, ⟨24, 1, .ro, 0⟩]⟩ -- R384
  | .FAB_SERIAL => ⟨.dev, 0x4000, 1, 0x8, .none, [⟨0, 64, .ro, 0⟩]⟩ -- R385
  | .FAB_CTL => ⟨.dev, 0x4008, 1, 0x8, .owner, [⟨0, 16, .rw, 0x3E8⟩]⟩ -- R385
  | .FAB_PARTSLICE => ⟨.dev, 0x4010, 6, 0x8, .owner, [⟨0, 8, .rw, 0⟩]⟩ -- R385
  | .FAB_PSL => ⟨.dev, 0x4100, 36, 0x8, .owner, [⟨0, 8, .rw, 0⟩, ⟨8, 8, .rw, 0⟩, ⟨16, 8, .rw, 0⟩, ⟨24, 8, .rw, 0⟩, ⟨32, 4, .rw, 0⟩]⟩ -- R385
  | .GRP_STAT => ⟨.die, 0x370000, 1, 0x8, .lowest, [⟨0, 1, .ro, 0⟩, ⟨1, 1, .ro, 0⟩, ⟨2, 1, .ro, 0⟩, ⟨3, 1, .ro, 0⟩, ⟨16, 11, .ro, 0⟩]⟩ -- R414
  | .GRP_SCOPE => ⟨.die, 0x370008, 1, 0x8, .lowest, [⟨0, 32, .ro, 0⟩, ⟨32, 15, .ro, 0⟩, ⟨47, 1, .ro, 0⟩]⟩ -- R414
  | .GRP_PC_ACCEPT => ⟨.die, 0x370080, 1, 0x8, .lowest, [⟨0, 48, .ro, 0⟩, ⟨63, 1, .wo, 0⟩]⟩ -- R413
  | .GRP_PC_REJECT => ⟨.die, 0x370088, 1, 0x8, .lowest, [⟨0, 48, .ro, 0⟩, ⟨63, 1, .wo, 0⟩]⟩ -- R413
  | .GRP_G => ⟨.die, 0x371000, 1024, 0x8, .lowest, [⟨0, 16, .ro, 0⟩, ⟨16, 1, .ro, 0⟩, ⟨17, 1, .ro, 0⟩, ⟨18, 1, .ro, 0⟩, ⟨19, 12, .ro, 0⟩, ⟨32, 32, .ro, 0⟩]⟩ -- R414
  | .HLK_PCTL => ⟨.die, 0x380000, 1, 0x8, .partition, [⟨1, 1, .rw, 1⟩]⟩ -- R440
  | .HLK_PSTAT => ⟨.die, 0x380008, 1, 0x8, .none, [⟨0, 3, .ro, 0⟩, ⟨4, 2, .ro, 2⟩, ⟨8, 3, .ro, 0⟩]⟩ -- R440
  | .HLK_PERR => ⟨.die, 0x380010, 1, 0x8, .partition, [⟨0, 16, .ro, 0⟩, ⟨16, 16, .ro, 0⟩, ⟨32, 1, .ro, 0⟩, ⟨33, 1, .ro, 0⟩, ⟨63, 1, .wo, 0⟩]⟩ -- R439
  | .HLK_PC_TX => ⟨.die, 0x380018, 1, 0x8, .partition, [⟨0, 48, .ro, 0⟩, ⟨63, 1, .wo, 0⟩]⟩ -- R439
  | .HLK_PC_RX => ⟨.die, 0x380020, 1, 0x8, .partition, [⟨0, 48, .ro, 0⟩, ⟨63, 1, .wo, 0⟩]⟩ -- R439
  | .HLK_IMASK => ⟨.die, 0x380100, 1, 0x8, .lowest, [⟨0, 16, .rw, 0x1FFE⟩]⟩ -- R440
  | .HLK_Q_BASE => ⟨.die, 0x381000, 16, 0x40, .lowest, [⟨12, 52, .rw, 0⟩]⟩ -- R440
  | .HLK_Q_CBASE => ⟨.die, 0x381008, 16, 0x40, .lowest, [⟨12, 52, .rw, 0⟩]⟩ -- R440
  | .HLK_Q_CFG => ⟨.die, 0x381010, 16, 0x40, .lowest, [⟨0, 1, .rw, 0⟩, ⟨1, 4, .rw, 4⟩, ⟨5, 3, .rw, 0⟩]⟩ -- R440
  | .HLK_Q_DB => ⟨.die, 0x381018, 16, 0x40, .lowest, [⟨0, 16, .wo, 0⟩]⟩ -- R440
  | .HLK_Q_STAT => ⟨.die, 0x381020, 16, 0x40, .lowest, [⟨0, 16, .ro, 0⟩, ⟨16, 1, .ro, 0⟩, ⟨17, 1, .ro, 0⟩, ⟨32, 16, .ro, 0⟩]⟩ -- R440
  | .HLK_PARTCFG => ⟨.dev, 0x5000, 1, 0x8, .none, [⟨0, 4, .ro, 1⟩, ⟨4, 12, .ro, 0xAA9⟩, ⟨16, 1, .ro, 0⟩]⟩ -- R441
  | .HLK_PARTCMD => ⟨.dev, 0x5008, 1, 0x8, .owner, [⟨0, 4, .wo, 0⟩, ⟨4, 12, .wo, 0⟩]⟩ -- R441
  | .HLK_OWNSTAT => ⟨.dev, 0x5010, 1, 0x8, .none, [⟨0, 6, .ro, 0⟩, ⟨8, 3, .ro, 0⟩, ⟨11, 1, .ro, 1⟩, ⟨12, 1, .ro, 0⟩]⟩ -- R441
  | .HLK_OWNNONCE => ⟨.dev, 0x5018, 1, 0x8, .none, [⟨0, 64, .ro, 0⟩]⟩ -- R441
  | .HLK_OWNCMD => ⟨.dev, 0x5020, 1, 0x8, .anyPort, [⟨0, 2, .wo, 0⟩]⟩ -- R441
  | .HLK_CLAIM => ⟨.dev, 0x5080, 16, 0x8, .anyPort, [⟨0, 64, .wo, 0⟩]⟩ -- R441
  | .CHK_CTL => ⟨.die, 0x390000, 1, 0x8, .lowest, [⟨0, 1, .ro, 0⟩, ⟨1, 1, .ro, 0⟩, ⟨2, 3, .ro, 0⟩, ⟨5, 1, .ro, 0⟩]⟩ -- R477
  | .CHK_STAT => ⟨.die, 0x390008, 1, 0x8, .lowest, [⟨0, 1, .ro, 0⟩, ⟨1, 3, .ro, 0⟩, ⟨16, 16, .ro, 0⟩]⟩ -- R477
  | .CHK_PC_CHECKS => ⟨.die, 0x390080, 1, 0x8, .lowest, [⟨0, 48, .ro, 0⟩, ⟨63, 1, .wo, 0⟩]⟩ -- R476
  | .CHK_PC_SKIP => ⟨.die, 0x390088, 1, 0x8, .lowest, [⟨0, 48, .ro, 0⟩, ⟨63, 1, .wo, 0⟩]⟩ -- R476
  | .CHK_LOGSTAT => ⟨.die, 0x391000, 1, 0x8, .none, [⟨0, 5, .ro, 0⟩, ⟨8, 6, .ro, 0⟩]⟩ -- R477
  | .CHK_LOGACK => ⟨.die, 0x391008, 1, 0x8, .partition, [⟨0, 6, .wo, 0⟩]⟩ -- R477
  | .CHK_LOG => ⟨.die, 0x3a0000, 2048, 0x8, .none, [⟨0, 64, .ro, 0⟩]⟩ -- R476
  | .TEST_CTL => ⟨.dev, 0x6000, 1, 0x8, .owner, [⟨0, 1, .rw, 0⟩]⟩ -- R478
  | .TEST_CMD => ⟨.dev, 0x6008, 1, 0x8, .owner, [⟨0, 6, .wo, 0⟩, ⟨8, 3, .wo, 0⟩]⟩ -- R478
  | .TEST_STAT => ⟨.dev, 0x6010, 1, 0x8, .none, [⟨0, 2, .ro, 0⟩, ⟨2, 2, .ro, 0⟩, ⟨16, 16, .ro, 0⟩]⟩ -- R478
  | .TEST_BINST => ⟨.dev, 0x6018, 1, 0x8, .owner, [⟨0, 52, .wo, 0⟩, ⟨52, 3, .wo, 0⟩]⟩ -- R478
  | .TEST_BSLOT => ⟨.dev, 0x6020, 8, 0x8, .none, [⟨0, 32, .ro, 0⟩, ⟨32, 16, .ro, 0⟩, ⟨48, 1, .ro, 0⟩]⟩ -- R478
  | .SPR_POLICY => ⟨.dev, 0x7000, 1, 0x8, .owner, [⟨0, 1, .rw, 1⟩, ⟨1, 1, .rw, 1⟩]⟩ -- R506
  | .SPR_CMD => ⟨.dev, 0x7008, 1, 0x8, .owner, [⟨0, 2, .wo, 0⟩, ⟨32, 17, .wo, 0⟩]⟩ -- R506
  | .SPR_REQ => ⟨.dev, 0x7010, 1, 0x8, .none, [⟨0, 17, .ro, 0⟩, ⟨17, 3, .ro, 0⟩, ⟨20, 1, .ro, 0⟩, ⟨32, 7, .ro, 0⟩]⟩ -- R506
  | .SPR_STAT => ⟨.dev, 0x7018, 1, 0x8, .none, [⟨0, 11, .ro, 0⟩, ⟨16, 11, .ro, 0⟩, ⟨32, 15, .ro, 0⟩]⟩ -- R507
  | .CTL_ELECT => ⟨.dev, 0x7100, 1, 0x8, .none, [⟨0, 3, .ro, 0⟩, ⟨3, 1, .ro, 0⟩, ⟨4, 3, .ro, 1⟩, ⟨7, 1, .ro, 1⟩, ⟨8, 6, .ro, 0x3F⟩, ⟨16, 16, .ro, 1⟩]⟩ -- R507
  | .CTL_JSTAT => ⟨.dev, 0x7108, 1, 0x8, .none, [⟨0, 13, .ro, 0⟩, ⟨13, 1, .ro, 0⟩, ⟨32, 32, .ro, 0⟩]⟩ -- R507
  | .CTL_CSTAT => ⟨.die, 0x200, 1, 0x8, .none, [⟨0, 2, .ro, 0⟩, ⟨2, 2, .ro, 0⟩]⟩ -- R507
  | .CTL_BOOT => ⟨.dev, 0x8000, 1, 0x8, .none, [⟨0, 4, .ro, 1⟩, ⟨8, 6, .ro, 0⟩, ⟨16, 16, .ro, 0⟩, ⟨32, 16, .ro, 0⟩]⟩ -- R526
  | .CTL_DBOOT => ⟨.die, 0x208, 1, 0x8, .none, [⟨0, 4, .ro, 1⟩, ⟨4, 4, .ro, 0⟩, ⟨8, 1, .ro, 0⟩, ⟨16, 13, .ro, 0⟩]⟩ -- R526
  | .PWR_CMD => ⟨.dev, 0x9000, 1, 0x8, .owner, [⟨0, 3, .wo, 0⟩]⟩ -- R552
  | .PWR_STAT => ⟨.dev, 0x9008, 1, 0x8, .none, [⟨0, 3, .ro, 0⟩, ⟨3, 1, .ro, 0⟩, ⟨16, 16, .ro, 0⟩]⟩ -- R552
  | .PWR_RETAIN => ⟨.dev, 0x9010, 1, 0x8, .owner, [⟨0, 4, .rw, 0⟩, ⟨8, 24, .rw, 0⟩]⟩ -- R552
  | .PWR_INPUT => ⟨.dev, 0x9018, 1, 0x8, .none, [⟨0, 16, .ro, 0⟩, ⟨16, 16, .ro, 0⟩, ⟨32, 1, .ro, 0⟩, ⟨33, 1, .ro, 0⟩]⟩ -- R553
  | .PWR_RSTCAUSE => ⟨.dev, 0x9020, 1, 0x8, .none, [⟨0, 3, .ro, 0⟩, ⟨16, 32, .ro, 0⟩, ⟨48, 1, .ro, 0⟩]⟩ -- R553
  | .PWR_DSTAT => ⟨.die, 0x500000, 1, 0x8, .none, [⟨0, 1, .ro, 0⟩, ⟨1, 1, .ro, 0⟩, ⟨2, 1, .ro, 0⟩]⟩ -- R554
  | .PWR_LPREG => ⟨.die, 0x500008, 1, 0x8, .owner, [⟨0, 1, .rw, 0⟩]⟩ -- R554
  | .PWR_PC_STRETCH => ⟨.die, 0x500080, 1, 0x8, .partition, [⟨0, 48, .ro, 0⟩, ⟨63, 1, .wo, 0⟩]⟩ -- R551
  | .SEC_STAT => ⟨.dev, 0xa000, 1, 0x8, .none, [⟨0, 2, .ro, 0⟩, ⟨2, 1, .ro, 0⟩, ⟨3, 1, .ro, 0⟩, ⟨4, 1, .ro, 0⟩, ⟨5, 3, .ro, 0⟩, ⟨16, 16, .ro, 0⟩, ⟨32, 3, .ro, 0⟩, ⟨35, 5, .ro, 0⟩]⟩ -- R579
  | .SEC_SVN => ⟨.dev, 0xa008, 1, 0x8, .none, [⟨0, 7, .ro, 0⟩, ⟨16, 7, .ro, 0⟩]⟩ -- R579
  | .SEC_FWUPD => ⟨.dev, 0xa010, 1, 0x8, .owner, [⟨0, 52, .wo, 0⟩]⟩ -- R579
  | .SEC_KEYCMD => ⟨.dev, 0xa018, 1, 0x8, .owner, [⟨0, 3, .wo, 0⟩]⟩ -- R579
  | .SEC_KEY => ⟨.dev, 0xa040, 8, 0x8, .owner, [⟨0, 64, .wo, 0⟩]⟩ -- R579
  | .SEC_IDKEY => ⟨.dev, 0xa080, 8, 0x8, .none, [⟨0, 64, .ro, 0⟩]⟩ -- R578
  | .SEC_SPDM => ⟨.dev, 0xa100, 6, 0x8, .anyPort, [⟨0, 13, .wo, 0⟩, ⟨16, 13, .ro, 0⟩, ⟨32, 1, .ro, 0⟩, ⟨33, 1, .ro, 0⟩]⟩ -- R579
  | .DBG_CTL => ⟨.dev, 0xb000, 1, 0x8, .owner, [⟨0, 2, .rw, 0⟩, ⟨2, 1, .rw, 0⟩]⟩ -- R580
  | .DBG_STAT => ⟨.dev, 0xb008, 1, 0x8, .none, [⟨0, 2, .ro, 0⟩, ⟨2, 1, .ro, 0⟩, ⟨3, 1, .ro, 0⟩, ⟨16, 16, .ro, 0⟩]⟩ -- R580
  | .DBG_NONCE => ⟨.dev, 0xb010, 1, 0x8, .none, [⟨0, 64, .ro, 0⟩]⟩ -- R580
  | .DBG_TOKEN => ⟨.dev, 0xb040, 20, 0x8, .owner, [⟨0, 64, .wo, 0⟩]⟩ -- R578
  | .PWR_COOL => ⟨.dev, 0x9100, 1, 0x8, .none, [⟨0, 12, .ro, 0⟩, ⟨12, 12, .ro, 0⟩, ⟨24, 10, .ro, 0⟩, ⟨34, 8, .ro, 0⟩, ⟨42, 1, .ro, 0⟩, ⟨43, 1, .ro, 0⟩, ⟨44, 1, .ro, 0⟩, ⟨45, 1, .ro, 0⟩]⟩ -- R597
  | .PWR_COOLCFG => ⟨.dev, 0x9108, 1, 0x8, .owner, [⟨0, 10, .rw, 0x64⟩]⟩ -- R597
  | .SPDM_REQ => ⟨.dev, 0x10000, 3072, 0x8, .anyPort, [⟨0, 64, .wo, 0⟩]⟩ -- R567
  | .SPDM_RSP => ⟨.dev, 0x11000, 3072, 0x8, .none, [⟨0, 64, .ro, 0⟩]⟩ -- R567

namespace Fld
def SPR_REMAP_LO_SLOT0 : Fld := ⟨.SPR_REMAP_LO, 0, 5⟩
def SPR_REMAP_LO_SLOT1 : Fld := ⟨.SPR_REMAP_LO, 8, 5⟩
def SPR_REMAP_LO_SLOT2 : Fld := ⟨.SPR_REMAP_LO, 16, 5⟩
def SPR_REMAP_LO_SLOT3 : Fld := ⟨.SPR_REMAP_LO, 24, 5⟩
def SPR_REMAP_LO_SLOT4 : Fld := ⟨.SPR_REMAP_LO, 32, 5⟩
def SPR_REMAP_LO_SLOT5 : Fld := ⟨.SPR_REMAP_LO, 40, 5⟩
def SPR_REMAP_LO_SLOT6 : Fld := ⟨.SPR_REMAP_LO, 48, 5⟩
def SPR_REMAP_LO_SLOT7 : Fld := ⟨.SPR_REMAP_LO, 56, 5⟩
def SPR_REMAP_HI_SLOT8 : Fld := ⟨.SPR_REMAP_HI, 0, 5⟩
def SPR_REMAP_HI_SLOT9 : Fld := ⟨.SPR_REMAP_HI, 8, 5⟩
def SPR_REMAP_HI_SLOT10 : Fld := ⟨.SPR_REMAP_HI, 16, 5⟩
def SPR_REMAP_HI_SLOT11 : Fld := ⟨.SPR_REMAP_HI, 24, 5⟩
def SPR_REMAP_HI_SLOT12 : Fld := ⟨.SPR_REMAP_HI, 32, 5⟩
def SPR_REMAP_HI_SLOT13 : Fld := ⟨.SPR_REMAP_HI, 40, 5⟩
def SPR_REMAP_HI_SLOT14 : Fld := ⟨.SPR_REMAP_HI, 48, 5⟩
def SPR_REMAP_HI_SLOT15 : Fld := ⟨.SPR_REMAP_HI, 56, 5⟩
def SPR_CLSTAT_SPARE : Fld := ⟨.SPR_CLSTAT, 0, 5⟩
def SPR_CLSTAT_RETIRED : Fld := ⟨.SPR_CLSTAT, 8, 17⟩
def SPR_CLSTAT_FILL : Fld := ⟨.SPR_CLSTAT, 25, 1⟩
def SPR_CLSTAT_SWAP : Fld := ⟨.SPR_CLSTAT, 26, 1⟩
def SPR_CLSTAT_SHORT : Fld := ⟨.SPR_CLSTAT, 27, 1⟩
def SPR_CLSTAT_GEN : Fld := ⟨.SPR_CLSTAT, 32, 8⟩
def CTL_BRG_UP : Fld := ⟨.CTL_BRG, 0, 1⟩
def CTL_BRG_RETRY : Fld := ⟨.CTL_BRG, 16, 16⟩
def CTL_BRG_RETRY_OVF : Fld := ⟨.CTL_BRG, 32, 1⟩
def CTL_BRG_CLR : Fld := ⟨.CTL_BRG, 63, 1⟩
def CTL_DIECFG_DIE : Fld := ⟨.CTL_DIECFG, 0, 3⟩
def CTL_DIECFG_LEAD : Fld := ⟨.CTL_DIECFG, 3, 1⟩
def CTL_DIECFG_FENCED : Fld := ⟨.CTL_DIECFG, 4, 1⟩
def CTL_DIECFG_CLUSTERS : Fld := ⟨.CTL_DIECFG, 8, 9⟩
def CTL_DIECFG_LCORES : Fld := ⟨.CTL_DIECFG, 32, 13⟩
def CTL_DIECFG_PCORES : Fld := ⟨.CTL_DIECFG, 48, 13⟩
def CTL_CLPRES_MAP : Fld := ⟨.CTL_CLPRES, 0, 64⟩
def CTL_DEVCFG_LCORES : Fld := ⟨.CTL_DEVCFG, 0, 16⟩
def CTL_DEVCFG_PCORES : Fld := ⟨.CTL_DEVCFG, 16, 16⟩
def CTL_DEVCFG_DIES : Fld := ⟨.CTL_DEVCFG, 32, 6⟩
def CTL_DEVCFG_LEAD : Fld := ⟨.CTL_DEVCFG, 40, 3⟩
def CTL_DEVCFG_PARTS : Fld := ⟨.CTL_DEVCFG, 44, 4⟩
def CTL_EVCNT_COUNT : Fld := ⟨.CTL_EVCNT, 0, 32⟩
def CTL_EVCNT_OVF : Fld := ⟨.CTL_EVCNT, 32, 1⟩
def CTL_EVCNT_CLR : Fld := ⟨.CTL_EVCNT, 63, 1⟩
def CTL_EVCNT_DEV_COUNT : Fld := ⟨.CTL_EVCNT_DEV, 0, 32⟩
def CTL_EVCNT_DEV_OVF : Fld := ⟨.CTL_EVCNT_DEV, 32, 1⟩
def CTL_EVCNT_DEV_CLR : Fld := ⟨.CTL_EVCNT_DEV, 63, 1⟩
def ARR_CTL_ZGATE : Fld := ⟨.ARR_CTL, 0, 1⟩
def ARR_STAT_BUSY : Fld := ⟨.ARR_STAT, 0, 4⟩
def ARR_STAT_LOADING : Fld := ⟨.ARR_STAT, 4, 8⟩
def ARR_BANK_FMT : Fld := ⟨.ARR_BANK, 0, 4⟩
def ARR_BANK_BS16 : Fld := ⟨.ARR_BANK, 4, 1⟩
def ARR_BANK_VALID : Fld := ⟨.ARR_BANK, 5, 1⟩
def ARR_BANK_SCMIN : Fld := ⟨.ARR_BANK, 8, 8⟩
def ARR_BANK_SCMAX : Fld := ⟨.ARR_BANK, 16, 8⟩
def ARR_BANK_NANROW : Fld := ⟨.ARR_BANK, 32, 32⟩
def ARR_PC_ISSUE_COUNT : Fld := ⟨.ARR_PC_ISSUE, 0, 48⟩
def ARR_PC_ISSUE_CLR : Fld := ⟨.ARR_PC_ISSUE, 63, 1⟩
def ARR_PC_BLOCKS_COUNT : Fld := ⟨.ARR_PC_BLOCKS, 0, 48⟩
def ARR_PC_BLOCKS_CLR : Fld := ⟨.ARR_PC_BLOCKS, 63, 1⟩
def ARR_PC_TRUNC_ROW_COUNT : Fld := ⟨.ARR_PC_TRUNC_ROW, 0, 48⟩
def ARR_PC_TRUNC_ROW_CLR : Fld := ⟨.ARR_PC_TRUNC_ROW, 63, 1⟩
def ARR_PC_TRUNC_COL_COUNT : Fld := ⟨.ARR_PC_TRUNC_COL, 0, 48⟩
def ARR_PC_TRUNC_COL_CLR : Fld := ⟨.ARR_PC_TRUNC_COL, 63, 1⟩
def ARR_PC_GATED_COUNT : Fld := ⟨.ARR_PC_GATED, 0, 48⟩
def ARR_PC_GATED_CLR : Fld := ⟨.ARR_PC_GATED, 63, 1⟩
def ACC_CTL_PROMOTE : Fld := ⟨.ACC_CTL, 0, 7⟩
def ACC_CTL_PAIR : Fld := ⟨.ACC_CTL, 8, 1⟩
def ACC_STAT_LIVE : Fld := ⟨.ACC_STAT, 0, 8⟩
def ACC_STAT_INFLT : Fld := ⟨.ACC_STAT, 8, 8⟩
def ACC_STAT_PAIRP : Fld := ⟨.ACC_STAT, 16, 8⟩
def ACC_PC_PROMOTE_COUNT : Fld := ⟨.ACC_PC_PROMOTE, 0, 48⟩
def ACC_PC_PROMOTE_CLR : Fld := ⟨.ACC_PC_PROMOTE, 63, 1⟩
def ACC_PC_ALIGN_TRUNC_COUNT : Fld := ⟨.ACC_PC_ALIGN_TRUNC, 0, 48⟩
def ACC_PC_ALIGN_TRUNC_CLR : Fld := ⟨.ACC_PC_ALIGN_TRUNC, 63, 1⟩
def ACC_PC_BYPASS_COUNT : Fld := ⟨.ACC_PC_BYPASS, 0, 48⟩
def ACC_PC_BYPASS_CLR : Fld := ⟨.ACC_PC_BYPASS, 63, 1⟩
def ACC_PC_SPILL_COUNT : Fld := ⟨.ACC_PC_SPILL, 0, 48⟩
def ACC_PC_SPILL_CLR : Fld := ⟨.ACC_PC_SPILL, 63, 1⟩
def ACC_PC_RESUME_COUNT : Fld := ⟨.ACC_PC_RESUME, 0, 48⟩
def ACC_PC_RESUME_CLR : Fld := ⟨.ACC_PC_RESUME, 63, 1⟩
def EDGE_CTL_SCALE : Fld := ⟨.EDGE_CTL, 0, 1⟩
def EDGE_CTL_ROT : Fld := ⟨.EDGE_CTL, 1, 2⟩
def EDGE_CTL_IROT : Fld := ⟨.EDGE_CTL, 3, 2⟩
def EDGE_CTL_SR : Fld := ⟨.EDGE_CTL, 5, 1⟩
def EDGE_CTL_SR_BITS : Fld := ⟨.EDGE_CTL, 8, 3⟩
def EDGE_LAYER_LAYER : Fld := ⟨.EDGE_LAYER, 0, 16⟩
def EDGE_ROTSEED_SEED : Fld := ⟨.EDGE_ROTSEED, 0, 48⟩
def EDGE_STAT_BUSY : Fld := ⟨.EDGE_STAT, 0, 1⟩
def EDGE_STAT_RSTPEND : Fld := ⟨.EDGE_STAT, 1, 1⟩
def GILL_CTL_THRESH : Fld := ⟨.GILL_CTL, 0, 8⟩
def GILL_CTL_PERBLK : Fld := ⟨.GILL_CTL, 8, 3⟩
def GILL_CTL_RESET : Fld := ⟨.GILL_CTL, 63, 1⟩
def GILL_STAT_FILL : Fld := ⟨.GILL_STAT, 0, 13⟩
def GILL_STAT_FULL : Fld := ⟨.GILL_STAT, 13, 1⟩
def GILL_OVF_COUNT : Fld := ⟨.GILL_OVF, 0, 32⟩
def GILL_OVF_OVF : Fld := ⟨.GILL_OVF, 32, 1⟩
def GILL_OVF_CLR : Fld := ⟨.GILL_OVF, 63, 1⟩
def EDGE_PC_BLOCKS_COUNT : Fld := ⟨.EDGE_PC_BLOCKS, 0, 48⟩
def EDGE_PC_BLOCKS_CLR : Fld := ⟨.EDGE_PC_BLOCKS, 63, 1⟩
def EDGE_PC_SAT_COUNT : Fld := ⟨.EDGE_PC_SAT, 0, 48⟩
def EDGE_PC_SAT_CLR : Fld := ⟨.EDGE_PC_SAT, 63, 1⟩
def EDGE_PC_UNDER_COUNT : Fld := ⟨.EDGE_PC_UNDER, 0, 48⟩
def EDGE_PC_UNDER_CLR : Fld := ⟨.EDGE_PC_UNDER, 63, 1⟩
def EDGE_PC_EXTRACT_COUNT : Fld := ⟨.EDGE_PC_EXTRACT, 0, 48⟩
def EDGE_PC_EXTRACT_CLR : Fld := ⟨.EDGE_PC_EXTRACT, 63, 1⟩
def EDGE_PC_DRAWS_COUNT : Fld := ⟨.EDGE_PC_DRAWS, 0, 48⟩
def EDGE_PC_DRAWS_CLR : Fld := ⟨.EDGE_PC_DRAWS, 63, 1⟩
def RNG_CTL_MODE : Fld := ⟨.RNG_CTL, 0, 1⟩
def RNG_CTL_TAG : Fld := ⟨.RNG_CTL, 16, 16⟩
def RNG_SEED_SEED : Fld := ⟨.RNG_SEED, 0, 48⟩
def RNG_STREAM_STREAM : Fld := ⟨.RNG_STREAM, 0, 16⟩
def RNG_BACKSTEP_LANES : Fld := ⟨.RNG_BACKSTEP, 0, 32⟩
def RNG_STAT_BKBUSY : Fld := ⟨.RNG_STAT, 0, 1⟩
def RNG_STAT_SAT : Fld := ⟨.RNG_STAT, 32, 32⟩
def RNG_PC_LANE_COUNT : Fld := ⟨.RNG_PC_LANE, 0, 48⟩
def RNG_PC_LANE_CLR : Fld := ⟨.RNG_PC_LANE, 63, 1⟩
def RNG_PC_KEYED_COUNT : Fld := ⟨.RNG_PC_KEYED, 0, 48⟩
def RNG_PC_KEYED_CLR : Fld := ⟨.RNG_PC_KEYED, 63, 1⟩
def RNG_LANE_LO_STATE : Fld := ⟨.RNG_LANE_LO, 0, 64⟩
def RNG_LANE_HI_STATE : Fld := ⟨.RNG_LANE_HI, 0, 32⟩
def RNG_LANE_CNT_COUNT : Fld := ⟨.RNG_LANE_CNT, 0, 48⟩
def RNG_CDF_T_LO : Fld := ⟨.RNG_CDF, 0, 32⟩
def RNG_CDF_T_HI : Fld := ⟨.RNG_CDF, 32, 32⟩
def FMT_CTL_FREEZE : Fld := ⟨.FMT_CTL, 0, 1⟩
def FMT_STAT_DIGEST : Fld := ⟨.FMT_STAT, 0, 32⟩
def FMT_STAT_NFB : Fld := ⟨.FMT_STAT, 32, 11⟩
def FMT_STAT_STORM : Fld := ⟨.FMT_STAT, 43, 1⟩
def FMT_STAT_SPLIT : Fld := ⟨.FMT_STAT, 44, 1⟩
def FMT_BUDGET_TOTAL : Fld := ⟨.FMT_BUDGET, 0, 28⟩
def FMT_BUDGET_USED : Fld := ⟨.FMT_BUDGET, 32, 28⟩
def FMT_REVERT_LAYER : Fld := ⟨.FMT_REVERT, 0, 10⟩
def FMT_REVERT_ALL : Fld := ⟨.FMT_REVERT, 10, 1⟩
def FMT_REVERT_STEP : Fld := ⟨.FMT_REVERT, 11, 40⟩
def FMT_MON_CFG_SATMAX : Fld := ⟨.FMT_MON_CFG, 0, 16⟩
def FMT_MON_CFG_UNDMAX : Fld := ⟨.FMT_MON_CFG, 16, 16⟩
def FMT_MON_CFG_FBFMT : Fld := ⟨.FMT_MON_CFG, 32, 4⟩
def FMT_MON_CFG_SENS : Fld := ⟨.FMT_MON_CFG, 36, 1⟩
def FMT_MON_CFG_VALID : Fld := ⟨.FMT_MON_CFG, 37, 1⟩
def FMT_MON_CFG_SFMT : Fld := ⟨.FMT_MON_CFG, 38, 4⟩
def FMT_MON_SIZE_COST : Fld := ⟨.FMT_MON_SIZE, 0, 28⟩
def FMT_MON_SIZE_WORK : Fld := ⟨.FMT_MON_SIZE, 28, 36⟩
def FMT_MON_STATE_FMT : Fld := ⟨.FMT_MON_STATE, 0, 4⟩
def FMT_MON_STATE_FB : Fld := ⟨.FMT_MON_STATE, 4, 1⟩
def FMT_MON_STATE_REQ : Fld := ⟨.FMT_MON_STATE, 5, 1⟩
def FMT_MON_STATE_DEN : Fld := ⟨.FMT_MON_STATE, 6, 1⟩
def FMT_MON_STATE_RVPEND : Fld := ⟨.FMT_MON_STATE, 7, 1⟩
def FMT_MON_STATE_GSTEP : Fld := ⟨.FMT_MON_STATE, 8, 40⟩
def FMT_MON_BASE_ADDR : Fld := ⟨.FMT_MON_BASE, 0, 52⟩
def FMT_MON_RVSTEP_RVSTEP : Fld := ⟨.FMT_MON_RVSTEP, 0, 40⟩
def FMT_MON_BLK_COUNT : Fld := ⟨.FMT_MON_BLK, 0, 48⟩
def FMT_MON_SAT_COUNT : Fld := ⟨.FMT_MON_SAT, 0, 48⟩
def FMT_MON_ZERO_COUNT : Fld := ⟨.FMT_MON_ZERO, 0, 48⟩
def FMT_MON_NZ_COUNT : Fld := ⟨.FMT_MON_NZ, 0, 48⟩
def FMT_MON_EXTRACT_COUNT : Fld := ⟨.FMT_MON_EXTRACT, 0, 48⟩
def FMT_MON_CLIP_COUNT : Fld := ⟨.FMT_MON_CLIP, 0, 48⟩
def CORE_ENTRY_ENTRY : Fld := ⟨.CORE_ENTRY, 0, 20⟩
def CORE_STAT_STATE : Fld := ⟨.CORE_STAT, 0, 2⟩
def CORE_STAT_MULTI : Fld := ⟨.CORE_STAT, 2, 1⟩
def CORE_STAT_CAUSE : Fld := ⟨.CORE_STAT, 16, 16⟩
def CORE_FPC_FPC : Fld := ⟨.CORE_FPC, 0, 20⟩
def CORE_FADDR_ADDR : Fld := ⟨.CORE_FADDR, 0, 52⟩
def CORE_VFP_RM : Fld := ⟨.CORE_VFP, 0, 3⟩
def CORE_VFP_NV : Fld := ⟨.CORE_VFP, 4, 1⟩
def CORE_VFP_DZ : Fld := ⟨.CORE_VFP, 5, 1⟩
def CORE_VFP_OF : Fld := ⟨.CORE_VFP, 6, 1⟩
def CORE_VFP_UF : Fld := ⟨.CORE_VFP, 7, 1⟩
def CORE_VFP_NX : Fld := ⟨.CORE_VFP, 8, 1⟩
def CORE_PC_ISSUE_COUNT : Fld := ⟨.CORE_PC_ISSUE, 0, 48⟩
def CORE_PC_ISSUE_CLR : Fld := ⟨.CORE_PC_ISSUE, 63, 1⟩
def CORE_PC_STALL_REG_COUNT : Fld := ⟨.CORE_PC_STALL_REG, 0, 48⟩
def CORE_PC_STALL_REG_CLR : Fld := ⟨.CORE_PC_STALL_REG, 63, 1⟩
def CORE_PC_STALL_UNIT_COUNT : Fld := ⟨.CORE_PC_STALL_UNIT, 0, 48⟩
def CORE_PC_STALL_UNIT_CLR : Fld := ⟨.CORE_PC_STALL_UNIT, 63, 1⟩
def CORE_PC_STALL_DRAW_COUNT : Fld := ⟨.CORE_PC_STALL_DRAW, 0, 48⟩
def CORE_PC_STALL_DRAW_CLR : Fld := ⟨.CORE_PC_STALL_DRAW, 63, 1⟩
def CORE_PC_STALL_SYNC_COUNT : Fld := ⟨.CORE_PC_STALL_SYNC, 0, 48⟩
def CORE_PC_STALL_SYNC_CLR : Fld := ⟨.CORE_PC_STALL_SYNC, 63, 1⟩
def CORE_PC_HOLD_BANK_COUNT : Fld := ⟨.CORE_PC_HOLD_BANK, 0, 48⟩
def CORE_PC_HOLD_BANK_CLR : Fld := ⟨.CORE_PC_HOLD_BANK, 63, 1⟩
def CORE_PC_HOLD_PANEL_COUNT : Fld := ⟨.CORE_PC_HOLD_PANEL, 0, 48⟩
def CORE_PC_HOLD_PANEL_CLR : Fld := ⟨.CORE_PC_HOLD_PANEL, 63, 1⟩
def GRP_CORETAG_GROUP : Fld := ⟨.GRP_CORETAG, 0, 16⟩
def GRP_CORETAG_PHASE : Fld := ⟨.GRP_CORETAG, 16, 12⟩
def PLAN_ADDR_ADDR : Fld := ⟨.PLAN_ADDR, 0, 52⟩
def PLAN_CMD_CMD : Fld := ⟨.PLAN_CMD, 0, 2⟩
def PLAN_STAT_STATE : Fld := ⟨.PLAN_STAT, 0, 2⟩
def PLAN_STAT_SIGNED : Fld := ⟨.PLAN_STAT, 2, 1⟩
def PLAN_STAT_SUBST : Fld := ⟨.PLAN_STAT, 3, 1⟩
def PLAN_STAT_ERR : Fld := ⟨.PLAN_STAT, 16, 16⟩
def PLAN_ID_ID : Fld := ⟨.PLAN_ID, 0, 64⟩
def PLAN_RUN_BEAT : Fld := ⟨.PLAN_RUN, 0, 64⟩
def PLAN_STEPBEAT_B0 : Fld := ⟨.PLAN_STEPBEAT, 0, 64⟩
def PLAN_SCHED_ROFF : Fld := ⟨.PLAN_SCHED, 0, 32⟩
def PLAN_SCHED_SLIDE : Fld := ⟨.PLAN_SCHED, 32, 32⟩
def PLAN_PC_SLIP_COUNT : Fld := ⟨.PLAN_PC_SLIP, 0, 48⟩
def PLAN_PC_SLIP_CLR : Fld := ⟨.PLAN_PC_SLIP, 63, 1⟩
def PLAN_DIGEST_D : Fld := ⟨.PLAN_DIGEST, 0, 64⟩
def PLAN_BIND_PCL : Fld := ⟨.PLAN_BIND, 0, 9⟩
def PLAN_BIND_SUB : Fld := ⟨.PLAN_BIND, 9, 1⟩
def PLAN_CTL_REQUIRE_SIGNED : Fld := ⟨.PLAN_CTL, 0, 1⟩
def CHN_CTL_PERIOD : Fld := ⟨.CHN_CTL, 0, 4⟩
def CHN_CTL_SRC : Fld := ⟨.CHN_CTL, 4, 2⟩
def CHN_CTL_PRIMARY : Fld := ⟨.CHN_CTL, 8, 6⟩
def CHN_CTL_ALT : Fld := ⟨.CHN_CTL, 16, 8⟩
def CHN_CFG_MID : Fld := ⟨.CHN_CFG, 0, 32⟩
def CHN_CFG_HORIZON : Fld := ⟨.CHN_CFG, 32, 16⟩
def CHN_CFG_INSKEW : Fld := ⟨.CHN_CFG, 48, 16⟩
def CHN_FWD_FWD : Fld := ⟨.CHN_FWD, 0, 36⟩
def CHN_STAT_STATE : Fld := ⟨.CHN_STAT, 0, 3⟩
def CHN_STAT_HOLD : Fld := ⟨.CHN_STAT, 8, 17⟩
def CHN_STAT_SRCPORT : Fld := ⟨.CHN_STAT, 32, 6⟩
def CHN_COUNT_COUNT : Fld := ⟨.CHN_COUNT, 0, 64⟩
def CHN_PC_MISS_COUNT : Fld := ⟨.CHN_PC_MISS, 0, 48⟩
def CHN_PC_MISS_CLR : Fld := ⟨.CHN_PC_MISS, 63, 1⟩
def CHN_DLY_DLY : Fld := ⟨.CHN_DLY, 0, 16⟩
def CHN_DLY_VALID : Fld := ⟨.CHN_DLY, 16, 1⟩
def STEP_CFG_HOLDQ : Fld := ⟨.STEP_CFG, 0, 8⟩
def STEP_CFG_HOLDMAX : Fld := ⟨.STEP_CFG, 8, 8⟩
def STEP_CTAB_ADDR : Fld := ⟨.STEP_CTAB, 0, 52⟩
def STEP_CTR_STEP : Fld := ⟨.STEP_CTR, 0, 40⟩
def STEP_STREAM_STREAM : Fld := ⟨.STEP_STREAM, 0, 16⟩
def STEP_STAT_FRONT : Fld := ⟨.STEP_STAT, 0, 1⟩
def STEP_STAT_UNCLEAN : Fld := ⟨.STEP_STAT, 1, 1⟩
def STEP_STAT_HELD : Fld := ⟨.STEP_STAT, 2, 1⟩
def STEP_STAT_LIMIT : Fld := ⟨.STEP_STAT, 3, 1⟩
def STEP_STAT_UNCERT : Fld := ⟨.STEP_STAT, 4, 1⟩
def STEP_STAT_CAUSE : Fld := ⟨.STEP_STAT, 16, 16⟩
def STEP_STAT_HOLDN : Fld := ⟨.STEP_STAT, 32, 8⟩
def STEP_NANL_VALUE : Fld := ⟨.STEP_NANL, 0, 32⟩
def STEP_NANL_CORE : Fld := ⟨.STEP_NANL, 32, 16⟩
def STEP_NANL_VALID : Fld := ⟨.STEP_NANL, 48, 1⟩
def STEP_PC_COMMIT_COUNT : Fld := ⟨.STEP_PC_COMMIT, 0, 48⟩
def STEP_PC_COMMIT_CLR : Fld := ⟨.STEP_PC_COMMIT, 63, 1⟩
def STEP_PC_ABORT_COUNT : Fld := ⟨.STEP_PC_ABORT, 0, 48⟩
def STEP_PC_ABORT_CLR : Fld := ⟨.STEP_PC_ABORT, 63, 1⟩
def STEP_PC_HOLD_COUNT : Fld := ⟨.STEP_PC_HOLD, 0, 48⟩
def STEP_PC_HOLD_CLR : Fld := ⟨.STEP_PC_HOLD, 63, 1⟩
def CTX_CTL_ALIGN : Fld := ⟨.CTX_CTL, 0, 1⟩
def CTX_CTL_DEN : Fld := ⟨.CTX_CTL, 1, 1⟩
def CTX_DHOST_ADDR : Fld := ⟨.CTX_DHOST, 0, 64⟩
def CTX_DSTAT_STATE : Fld := ⟨.CTX_DSTAT, 0, 2⟩
def CTX_DSTAT_STEP : Fld := ⟨.CTX_DSTAT, 24, 40⟩
def CTX_RADDR_ADDR : Fld := ⟨.CTX_RADDR, 0, 52⟩
def CTX_CMD_CMD : Fld := ⟨.CTX_CMD, 0, 2⟩
def CTX_STAT_STATE : Fld := ⟨.CTX_STAT, 0, 2⟩
def CTX_STAT_ALIGNED : Fld := ⟨.CTX_STAT, 2, 1⟩
def CTX_STAT_ERR : Fld := ⟨.CTX_STAT, 16, 16⟩
def CTX_SIZE_TILES : Fld := ⟨.CTX_SIZE, 0, 32⟩
def STEP_CORE_FRONT : Fld := ⟨.STEP_CORE, 0, 1⟩
def STEP_CORE_STEP : Fld := ⟨.STEP_CORE, 24, 40⟩
def FAB_PORT_CTL_EN : Fld := ⟨.FAB_PORT_CTL, 0, 1⟩
def FAB_PORT_STAT_LINK : Fld := ⟨.FAB_PORT_STAT, 0, 3⟩
def FAB_PORT_STAT_PLAN : Fld := ⟨.FAB_PORT_STAT, 8, 3⟩
def FAB_PORT_STAT_PEERPORT : Fld := ⟨.FAB_PORT_STAT, 16, 6⟩
def FAB_PORT_STAT_PEERVALID : Fld := ⟨.FAB_PORT_STAT, 22, 1⟩
def FAB_PORT_STAT_GEN : Fld := ⟨.FAB_PORT_STAT, 32, 16⟩
def FAB_PORT_PEER_SERIAL : Fld := ⟨.FAB_PORT_PEER, 0, 64⟩
def FAB_PORT_ERR_RETRY : Fld := ⟨.FAB_PORT_ERR, 0, 16⟩
def FAB_PORT_ERR_LERR : Fld := ⟨.FAB_PORT_ERR, 16, 16⟩
def FAB_PORT_ERR_RETRY_OVF : Fld := ⟨.FAB_PORT_ERR, 32, 1⟩
def FAB_PORT_ERR_LERR_OVF : Fld := ⟨.FAB_PORT_ERR, 33, 1⟩
def FAB_PORT_ERR_CLR : Fld := ⟨.FAB_PORT_ERR, 63, 1⟩
def FAB_PORT_DROP_SLICE : Fld := ⟨.FAB_PORT_DROP, 0, 16⟩
def FAB_PORT_DROP_NOROUTE : Fld := ⟨.FAB_PORT_DROP, 16, 16⟩
def FAB_PORT_DROP_STALL : Fld := ⟨.FAB_PORT_DROP, 32, 16⟩
def FAB_PORT_DROP_OVF : Fld := ⟨.FAB_PORT_DROP, 48, 3⟩
def FAB_PORT_DROP_CLR : Fld := ⟨.FAB_PORT_DROP, 63, 1⟩
def FAB_PORT_PC_TXT_COUNT : Fld := ⟨.FAB_PORT_PC_TXT, 0, 48⟩
def FAB_PORT_PC_TXT_CLR : Fld := ⟨.FAB_PORT_PC_TXT, 63, 1⟩
def FAB_PORT_PC_RXT_COUNT : Fld := ⟨.FAB_PORT_PC_RXT, 0, 48⟩
def FAB_PORT_PC_RXT_CLR : Fld := ⟨.FAB_PORT_PC_RXT, 63, 1⟩
def FAB_CMD_CMD : Fld := ⟨.FAB_CMD, 0, 2⟩
def FAB_STAT_BUSY : Fld := ⟨.FAB_STAT, 0, 1⟩
def FAB_STAT_REV : Fld := ⟨.FAB_STAT, 1, 1⟩
def FAB_STAT_NMISS : Fld := ⟨.FAB_STAT, 8, 6⟩
def FAB_STAT_NEXTRA : Fld := ⟨.FAB_STAT, 16, 6⟩
def FAB_STAT_ERR : Fld := ⟨.FAB_STAT, 32, 16⟩
def FAB_PLAN_ACK_ADDR : Fld := ⟨.FAB_PLAN_ACK, 0, 52⟩
def FAB_PLAN_ACK_SIGNED : Fld := ⟨.FAB_PLAN_ACK, 52, 1⟩
def FAB_REVDIGEST_D : Fld := ⟨.FAB_REVDIGEST, 0, 64⟩
def FAB_INJDROP_SLICE : Fld := ⟨.FAB_INJDROP, 0, 16⟩
def FAB_INJDROP_NOROUTE : Fld := ⟨.FAB_INJDROP, 16, 16⟩
def FAB_INJDROP_STALL : Fld := ⟨.FAB_INJDROP, 32, 16⟩
def FAB_INJDROP_OVF : Fld := ⟨.FAB_INJDROP, 48, 3⟩
def FAB_INJDROP_CLR : Fld := ⟨.FAB_INJDROP, 63, 1⟩
def FAB_RT_VALID : Fld := ⟨.FAB_RT, 0, 1⟩
def FAB_RT_LOCAL : Fld := ⟨.FAB_RT, 1, 1⟩
def FAB_RT_PORT : Fld := ⟨.FAB_RT, 2, 6⟩
def FAB_RT_VC : Fld := ⟨.FAB_RT, 8, 2⟩
def FAB_RT_SLICE : Fld := ⟨.FAB_RT, 16, 8⟩
def FAB_RT_BLOCKED : Fld := ⟨.FAB_RT, 24, 1⟩
def FAB_SERIAL_SERIAL : Fld := ⟨.FAB_SERIAL, 0, 64⟩
def FAB_CTL_STALLT : Fld := ⟨.FAB_CTL, 0, 16⟩
def FAB_PARTSLICE_SLICE : Fld := ⟨.FAB_PARTSLICE, 0, 8⟩
def FAB_PSL_S0 : Fld := ⟨.FAB_PSL, 0, 8⟩
def FAB_PSL_S1 : Fld := ⟨.FAB_PSL, 8, 8⟩
def FAB_PSL_S2 : Fld := ⟨.FAB_PSL, 16, 8⟩
def FAB_PSL_S3 : Fld := ⟨.FAB_PSL, 24, 8⟩
def FAB_PSL_EN : Fld := ⟨.FAB_PSL, 32, 4⟩
def GRP_STAT_POISON : Fld := ⟨.GRP_STAT, 0, 1⟩
def GRP_STAT_RETRACTED : Fld := ⟨.GRP_STAT, 1, 1⟩
def GRP_STAT_PROVOVF : Fld := ⟨.GRP_STAT, 2, 1⟩
def GRP_STAT_DECIDED : Fld := ⟨.GRP_STAT, 3, 1⟩
def GRP_STAT_NDEG : Fld := ⟨.GRP_STAT, 16, 11⟩
def GRP_SCOPE_SCOPEID : Fld := ⟨.GRP_SCOPE, 0, 32⟩
def GRP_SCOPE_TOTAL : Fld := ⟨.GRP_SCOPE, 32, 15⟩
def GRP_SCOPE_ROOT : Fld := ⟨.GRP_SCOPE, 47, 1⟩
def GRP_PC_ACCEPT_COUNT : Fld := ⟨.GRP_PC_ACCEPT, 0, 48⟩
def GRP_PC_ACCEPT_CLR : Fld := ⟨.GRP_PC_ACCEPT, 63, 1⟩
def GRP_PC_REJECT_COUNT : Fld := ⟨.GRP_PC_REJECT, 0, 48⟩
def GRP_PC_REJECT_CLR : Fld := ⟨.GRP_PC_REJECT, 63, 1⟩
def GRP_G_GID : Fld := ⟨.GRP_G, 0, 16⟩
def GRP_G_VALID : Fld := ⟨.GRP_G, 16, 1⟩
def GRP_G_LDEG : Fld := ⟨.GRP_G, 17, 1⟩
def GRP_G_DEG : Fld := ⟨.GRP_G, 18, 1⟩
def GRP_G_PHASE : Fld := ⟨.GRP_G, 19, 12⟩
def GRP_G_RCOUNT : Fld := ⟨.GRP_G, 32, 32⟩
def HLK_PCTL_DRAIN : Fld := ⟨.HLK_PCTL, 1, 1⟩
def HLK_PSTAT_LINK : Fld := ⟨.HLK_PSTAT, 0, 3⟩
def HLK_PSTAT_ROLE : Fld := ⟨.HLK_PSTAT, 4, 2⟩
def HLK_PSTAT_PART : Fld := ⟨.HLK_PSTAT, 8, 3⟩
def HLK_PERR_RETRY : Fld := ⟨.HLK_PERR, 0, 16⟩
def HLK_PERR_LERR : Fld := ⟨.HLK_PERR, 16, 16⟩
def HLK_PERR_RETRY_OVF : Fld := ⟨.HLK_PERR, 32, 1⟩
def HLK_PERR_LERR_OVF : Fld := ⟨.HLK_PERR, 33, 1⟩
def HLK_PERR_CLR : Fld := ⟨.HLK_PERR, 63, 1⟩
def HLK_PC_TX_COUNT : Fld := ⟨.HLK_PC_TX, 0, 48⟩
def HLK_PC_TX_CLR : Fld := ⟨.HLK_PC_TX, 63, 1⟩
def HLK_PC_RX_COUNT : Fld := ⟨.HLK_PC_RX, 0, 48⟩
def HLK_PC_RX_CLR : Fld := ⟨.HLK_PC_RX, 63, 1⟩
def HLK_IMASK_CLASS : Fld := ⟨.HLK_IMASK, 0, 16⟩
def HLK_Q_BASE_ADDR : Fld := ⟨.HLK_Q_BASE, 12, 52⟩
def HLK_Q_CBASE_ADDR : Fld := ⟨.HLK_Q_CBASE, 12, 52⟩
def HLK_Q_CFG_EN : Fld := ⟨.HLK_Q_CFG, 0, 1⟩
def HLK_Q_CFG_LOG2 : Fld := ⟨.HLK_Q_CFG, 1, 4⟩
def HLK_Q_CFG_PORT : Fld := ⟨.HLK_Q_CFG, 5, 3⟩
def HLK_Q_DB_TAIL : Fld := ⟨.HLK_Q_DB, 0, 16⟩
def HLK_Q_STAT_HEAD : Fld := ⟨.HLK_Q_STAT, 0, 16⟩
def HLK_Q_STAT_STOP : Fld := ⟨.HLK_Q_STAT, 16, 1⟩
def HLK_Q_STAT_BUSY : Fld := ⟨.HLK_Q_STAT, 17, 1⟩
def HLK_Q_STAT_ERR : Fld := ⟨.HLK_Q_STAT, 32, 16⟩
def HLK_PARTCFG_PARTS : Fld := ⟨.HLK_PARTCFG, 0, 4⟩
def HLK_PARTCFG_ROLES : Fld := ⟨.HLK_PARTCFG, 4, 12⟩
def HLK_PARTCFG_BUSY : Fld := ⟨.HLK_PARTCFG, 16, 1⟩
def HLK_PARTCMD_PARTS : Fld := ⟨.HLK_PARTCMD, 0, 4⟩
def HLK_PARTCMD_ROLES : Fld := ⟨.HLK_PARTCMD, 4, 12⟩
def HLK_OWNSTAT_HOLD : Fld := ⟨.HLK_OWNSTAT, 0, 6⟩
def HLK_OWNSTAT_OWNER : Fld := ⟨.HLK_OWNSTAT, 8, 3⟩
def HLK_OWNSTAT_NONE : Fld := ⟨.HLK_OWNSTAT, 11, 1⟩
def HLK_OWNSTAT_CLBUSY : Fld := ⟨.HLK_OWNSTAT, 12, 1⟩
def HLK_OWNNONCE_NONCE : Fld := ⟨.HLK_OWNNONCE, 0, 64⟩
def HLK_OWNCMD_CMD : Fld := ⟨.HLK_OWNCMD, 0, 2⟩
def HLK_CLAIM_BYTES : Fld := ⟨.HLK_CLAIM, 0, 64⟩
def CHK_CTL_ABFT : Fld := ⟨.CHK_CTL, 0, 1⟩
def CHK_CTL_DUP : Fld := ⟨.CHK_CTL, 1, 1⟩
def CHK_CTL_MARGIN : Fld := ⟨.CHK_CTL, 2, 3⟩
def CHK_CTL_DIAG : Fld := ⟨.CHK_CTL, 5, 1⟩
def CHK_STAT_DIAG : Fld := ⟨.CHK_STAT, 0, 1⟩
def CHK_STAT_LAST : Fld := ⟨.CHK_STAT, 1, 3⟩
def CHK_STAT_NCAP : Fld := ⟨.CHK_STAT, 16, 16⟩
def CHK_PC_CHECKS_COUNT : Fld := ⟨.CHK_PC_CHECKS, 0, 48⟩
def CHK_PC_CHECKS_CLR : Fld := ⟨.CHK_PC_CHECKS, 63, 1⟩
def CHK_PC_SKIP_COUNT : Fld := ⟨.CHK_PC_SKIP, 0, 48⟩
def CHK_PC_SKIP_CLR : Fld := ⟨.CHK_PC_SKIP, 63, 1⟩
def CHK_LOGSTAT_HEAD : Fld := ⟨.CHK_LOGSTAT, 0, 5⟩
def CHK_LOGSTAT_COUNT : Fld := ⟨.CHK_LOGSTAT, 8, 6⟩
def CHK_LOGACK_N : Fld := ⟨.CHK_LOGACK, 0, 6⟩
def CHK_LOG_BYTES : Fld := ⟨.CHK_LOG, 0, 64⟩
def TEST_CTL_FORCE : Fld := ⟨.TEST_CTL, 0, 1⟩
def TEST_CMD_DIES : Fld := ⟨.TEST_CMD, 0, 6⟩
def TEST_CMD_SLOT : Fld := ⟨.TEST_CMD, 8, 3⟩
def TEST_STAT_STATE : Fld := ⟨.TEST_STAT, 0, 2⟩
def TEST_STAT_RESULT : Fld := ⟨.TEST_STAT, 2, 2⟩
def TEST_STAT_NFAIL : Fld := ⟨.TEST_STAT, 16, 16⟩
def TEST_BINST_ADDR : Fld := ⟨.TEST_BINST, 0, 52⟩
def TEST_BINST_SLOT : Fld := ⟨.TEST_BINST, 52, 3⟩
def TEST_BSLOT_ID : Fld := ⟨.TEST_BSLOT, 0, 32⟩
def TEST_BSLOT_VERSION : Fld := ⟨.TEST_BSLOT, 32, 16⟩
def TEST_BSLOT_VALID : Fld := ⟨.TEST_BSLOT, 48, 1⟩
def SPR_POLICY_AUTO : Fld := ⟨.SPR_POLICY, 0, 1⟩
def SPR_POLICY_RTESTFILL : Fld := ⟨.SPR_POLICY, 1, 1⟩
def SPR_CMD_OP : Fld := ⟨.SPR_CMD, 0, 2⟩
def SPR_CMD_PCORE : Fld := ⟨.SPR_CMD, 32, 17⟩
def SPR_REQ_PCORE : Fld := ⟨.SPR_REQ, 0, 17⟩
def SPR_REQ_SOURCE : Fld := ⟨.SPR_REQ, 17, 3⟩
def SPR_REQ_VALID : Fld := ⟨.SPR_REQ, 20, 1⟩
def SPR_REQ_COUNT : Fld := ⟨.SPR_REQ, 32, 7⟩
def SPR_STAT_NFILL : Fld := ⟨.SPR_STAT, 0, 11⟩
def SPR_STAT_NSHORT : Fld := ⟨.SPR_STAT, 16, 11⟩
def SPR_STAT_NRET : Fld := ⟨.SPR_STAT, 32, 15⟩
def CTL_ELECT_LEAD : Fld := ⟨.CTL_ELECT, 0, 3⟩
def CTL_ELECT_NONE : Fld := ⟨.CTL_ELECT, 3, 1⟩
def CTL_ELECT_NEXT : Fld := ⟨.CTL_ELECT, 4, 3⟩
def CTL_ELECT_NEXTV : Fld := ⟨.CTL_ELECT, 7, 1⟩
def CTL_ELECT_UP : Fld := ⟨.CTL_ELECT, 8, 6⟩
def CTL_ELECT_TERM : Fld := ⟨.CTL_ELECT, 16, 16⟩
def CTL_JSTAT_OPEN : Fld := ⟨.CTL_JSTAT, 0, 13⟩
def CTL_JSTAT_SOLO : Fld := ⟨.CTL_JSTAT, 13, 1⟩
def CTL_JSTAT_SEQ : Fld := ⟨.CTL_JSTAT, 32, 32⟩
def CTL_CSTAT_ROLE : Fld := ⟨.CTL_CSTAT, 0, 2⟩
def CTL_CSTAT_MISSED : Fld := ⟨.CTL_CSTAT, 2, 2⟩
def CTL_BOOT_STAGE : Fld := ⟨.CTL_BOOT, 0, 4⟩
def CTL_BOOT_READY : Fld := ⟨.CTL_BOOT, 8, 6⟩
def CTL_BOOT_ERR : Fld := ⟨.CTL_BOOT, 16, 16⟩
def CTL_BOOT_MS : Fld := ⟨.CTL_BOOT, 32, 16⟩
def CTL_DBOOT_STAGE : Fld := ⟨.CTL_DBOOT, 0, 4⟩
def CTL_DBOOT_HBMOK : Fld := ⟨.CTL_DBOOT, 4, 4⟩
def CTL_DBOOT_CRESET : Fld := ⟨.CTL_DBOOT, 8, 1⟩
def CTL_DBOOT_NFAIL : Fld := ⟨.CTL_DBOOT, 16, 13⟩
def PWR_CMD_STATE : Fld := ⟨.PWR_CMD, 0, 3⟩
def PWR_STAT_STATE : Fld := ⟨.PWR_STAT, 0, 3⟩
def PWR_STAT_BUSY : Fld := ⟨.PWR_STAT, 3, 1⟩
def PWR_STAT_ERR : Fld := ⟨.PWR_STAT, 16, 16⟩
def PWR_RETAIN_CSBANK : Fld := ⟨.PWR_RETAIN, 0, 4⟩
def PWR_RETAIN_HBM : Fld := ⟨.PWR_RETAIN, 8, 24⟩
def PWR_INPUT_VIN : Fld := ⟨.PWR_INPUT, 0, 16⟩
def PWR_INPUT_PIN : Fld := ⟨.PWR_INPUT, 16, 16⟩
def PWR_INPUT_SAGW : Fld := ⟨.PWR_INPUT, 32, 1⟩
def PWR_INPUT_LIMIT : Fld := ⟨.PWR_INPUT, 33, 1⟩
def PWR_RSTCAUSE_CAUSE : Fld := ⟨.PWR_RSTCAUSE, 0, 3⟩
def PWR_RSTCAUSE_NSAG : Fld := ⟨.PWR_RSTCAUSE, 16, 32⟩
def PWR_RSTCAUSE_OVF : Fld := ⟨.PWR_RSTCAUSE, 48, 1⟩
def PWR_DSTAT_CLK : Fld := ⟨.PWR_DSTAT, 0, 1⟩
def PWR_DSTAT_LP : Fld := ⟨.PWR_DSTAT, 1, 1⟩
def PWR_DSTAT_LOCK : Fld := ⟨.PWR_DSTAT, 2, 1⟩
def PWR_LPREG_EN : Fld := ⟨.PWR_LPREG, 0, 1⟩
def PWR_PC_STRETCH_COUNT : Fld := ⟨.PWR_PC_STRETCH, 0, 48⟩
def PWR_PC_STRETCH_CLR : Fld := ⟨.PWR_PC_STRETCH, 63, 1⟩
def SEC_STAT_STATE : Fld := ⟨.SEC_STAT, 0, 2⟩
def SEC_STAT_IDOK : Fld := ⟨.SEC_STAT, 2, 1⟩
def SEC_STAT_FWBUSY : Fld := ⟨.SEC_STAT, 3, 1⟩
def SEC_STAT_RESETREQ : Fld := ⟨.SEC_STAT, 4, 1⟩
def SEC_STAT_RDIE : Fld := ⟨.SEC_STAT, 5, 3⟩
def SEC_STAT_ERR : Fld := ⟨.SEC_STAT, 16, 16⟩
def SEC_STAT_NOWNER : Fld := ⟨.SEC_STAT, 32, 3⟩
def SEC_STAT_NOPER : Fld := ⟨.SEC_STAT, 35, 5⟩
def SEC_SVN_FLOOR : Fld := ⟨.SEC_SVN, 0, 7⟩
def SEC_SVN_SVN : Fld := ⟨.SEC_SVN, 16, 7⟩
def SEC_FWUPD_ADDR : Fld := ⟨.SEC_FWUPD, 0, 52⟩
def SEC_KEYCMD_OP : Fld := ⟨.SEC_KEYCMD, 0, 3⟩
def SEC_KEY_BYTES : Fld := ⟨.SEC_KEY, 0, 64⟩
def SEC_IDKEY_BYTES : Fld := ⟨.SEC_IDKEY, 0, 64⟩
def SEC_SPDM_REQLEN : Fld := ⟨.SEC_SPDM, 0, 13⟩
def SEC_SPDM_RSPLEN : Fld := ⟨.SEC_SPDM, 16, 13⟩
def SEC_SPDM_BUSY : Fld := ⟨.SEC_SPDM, 32, 1⟩
def SEC_SPDM_READY : Fld := ⟨.SEC_SPDM, 33, 1⟩
def DBG_CTL_LEVEL : Fld := ⟨.DBG_CTL, 0, 2⟩
def DBG_CTL_ALLOWD2 : Fld := ⟨.DBG_CTL, 2, 1⟩
def DBG_STAT_LEVEL : Fld := ⟨.DBG_STAT, 0, 2⟩
def DBG_STAT_D2SEEN : Fld := ⟨.DBG_STAT, 2, 1⟩
def DBG_STAT_BUSY : Fld := ⟨.DBG_STAT, 3, 1⟩
def DBG_STAT_ERR : Fld := ⟨.DBG_STAT, 16, 16⟩
def DBG_NONCE_NONCE : Fld := ⟨.DBG_NONCE, 0, 64⟩
def DBG_TOKEN_BYTES : Fld := ⟨.DBG_TOKEN, 0, 64⟩
def PWR_COOL_TIN : Fld := ⟨.PWR_COOL, 0, 12⟩
def PWR_COOL_TOUT : Fld := ⟨.PWR_COOL, 12, 12⟩
def PWR_COOL_FLOW : Fld := ⟨.PWR_COOL, 24, 10⟩
def PWR_COOL_TJMAX : Fld := ⟨.PWR_COOL, 34, 8⟩
def PWR_COOL_WARN : Fld := ⟨.PWR_COOL, 42, 1⟩
def PWR_COOL_LIMIT : Fld := ⟨.PWR_COOL, 43, 1⟩
def PWR_COOL_TINF : Fld := ⟨.PWR_COOL, 44, 1⟩
def PWR_COOL_TOUTF : Fld := ⟨.PWR_COOL, 45, 1⟩
def PWR_COOLCFG_KFLOW : Fld := ⟨.PWR_COOLCFG, 0, 10⟩
def SPDM_REQ_BYTES : Fld := ⟨.SPDM_REQ, 0, 64⟩
def SPDM_RSP_BYTES : Fld := ⟨.SPDM_RSP, 0, 64⟩
end Fld

/-- Every register kind, in declaration order. -/
def allRegs : List RegKind := [
  .SPR_REMAP_LO, .SPR_REMAP_HI, .SPR_CLSTAT, .CTL_BRG, .CTL_DIECFG, .CTL_CLPRES,
  .CTL_DEVCFG, .CTL_EVCNT, .CTL_EVCNT_DEV, .ARR_CTL, .ARR_STAT, .ARR_BANK,
  .ARR_PC_ISSUE, .ARR_PC_BLOCKS, .ARR_PC_TRUNC_ROW, .ARR_PC_TRUNC_COL, .ARR_PC_GATED, .ACC_CTL,
  .ACC_STAT, .ACC_PC_PROMOTE, .ACC_PC_ALIGN_TRUNC, .ACC_PC_BYPASS, .ACC_PC_SPILL, .ACC_PC_RESUME,
  .EDGE_CTL, .EDGE_LAYER, .EDGE_ROTSEED, .EDGE_STAT, .GILL_CTL, .GILL_STAT,
  .GILL_OVF, .EDGE_PC_BLOCKS, .EDGE_PC_SAT, .EDGE_PC_UNDER, .EDGE_PC_EXTRACT, .EDGE_PC_DRAWS,
  .RNG_CTL, .RNG_SEED, .RNG_STREAM, .RNG_BACKSTEP, .RNG_STAT, .RNG_PC_LANE,
  .RNG_PC_KEYED, .RNG_LANE_LO, .RNG_LANE_HI, .RNG_LANE_CNT, .RNG_CDF, .FMT_CTL,
  .FMT_STAT, .FMT_BUDGET, .FMT_REVERT, .FMT_MON_CFG, .FMT_MON_SIZE, .FMT_MON_STATE,
  .FMT_MON_BASE, .FMT_MON_RVSTEP, .FMT_MON_BLK, .FMT_MON_SAT, .FMT_MON_ZERO, .FMT_MON_NZ,
  .FMT_MON_EXTRACT, .FMT_MON_CLIP, .CORE_ENTRY, .CORE_STAT, .CORE_FPC, .CORE_FADDR,
  .CORE_VFP, .CORE_PC_ISSUE, .CORE_PC_STALL_REG, .CORE_PC_STALL_UNIT, .CORE_PC_STALL_DRAW, .CORE_PC_STALL_SYNC,
  .CORE_PC_HOLD_BANK, .CORE_PC_HOLD_PANEL, .GRP_CORETAG, .PLAN_ADDR, .PLAN_CMD, .PLAN_STAT,
  .PLAN_ID, .PLAN_RUN, .PLAN_STEPBEAT, .PLAN_SCHED, .PLAN_PC_SLIP, .PLAN_DIGEST,
  .PLAN_BIND, .PLAN_CTL, .CHN_CTL, .CHN_CFG, .CHN_FWD, .CHN_STAT,
  .CHN_COUNT, .CHN_PC_MISS, .CHN_DLY, .STEP_CFG, .STEP_CTAB, .STEP_CTR,
  .STEP_STREAM, .STEP_STAT, .STEP_NANL, .STEP_PC_COMMIT, .STEP_PC_ABORT, .STEP_PC_HOLD,
  .CTX_CTL, .CTX_DHOST, .CTX_DSTAT, .CTX_RADDR, .CTX_CMD, .CTX_STAT,
  .CTX_SIZE, .STEP_CORE, .FAB_PORT_CTL, .FAB_PORT_STAT, .FAB_PORT_PEER, .FAB_PORT_ERR,
  .FAB_PORT_DROP, .FAB_PORT_PC_TXT, .FAB_PORT_PC_RXT, .FAB_CMD, .FAB_STAT, .FAB_PLAN_ACK,
  .FAB_REVDIGEST, .FAB_INJDROP, .FAB_RT, .FAB_SERIAL, .FAB_CTL, .FAB_PARTSLICE,
  .FAB_PSL, .GRP_STAT, .GRP_SCOPE, .GRP_PC_ACCEPT, .GRP_PC_REJECT, .GRP_G,
  .HLK_PCTL, .HLK_PSTAT, .HLK_PERR, .HLK_PC_TX, .HLK_PC_RX, .HLK_IMASK,
  .HLK_Q_BASE, .HLK_Q_CBASE, .HLK_Q_CFG, .HLK_Q_DB, .HLK_Q_STAT, .HLK_PARTCFG,
  .HLK_PARTCMD, .HLK_OWNSTAT, .HLK_OWNNONCE, .HLK_OWNCMD, .HLK_CLAIM, .CHK_CTL,
  .CHK_STAT, .CHK_PC_CHECKS, .CHK_PC_SKIP, .CHK_LOGSTAT, .CHK_LOGACK, .CHK_LOG,
  .TEST_CTL, .TEST_CMD, .TEST_STAT, .TEST_BINST, .TEST_BSLOT, .SPR_POLICY,
  .SPR_CMD, .SPR_REQ, .SPR_STAT, .CTL_ELECT, .CTL_JSTAT, .CTL_CSTAT,
  .CTL_BOOT, .CTL_DBOOT, .PWR_CMD, .PWR_STAT, .PWR_RETAIN, .PWR_INPUT,
  .PWR_RSTCAUSE, .PWR_DSTAT, .PWR_LPREG, .PWR_PC_STRETCH, .SEC_STAT, .SEC_SVN,
  .SEC_FWUPD, .SEC_KEYCMD, .SEC_KEY, .SEC_IDKEY, .SEC_SPDM, .DBG_CTL,
  .DBG_STAT, .DBG_NONCE, .DBG_TOKEN, .PWR_COOL, .PWR_COOLCFG, .SPDM_REQ,
  .SPDM_RSP]

/-- The number of a register kind. -/
def RegKind.num (k : RegKind) : Nat := k.ctorIdx

/-- The key of instance `i` of a kind in the register table of State. -/
def regKey (k : RegKind) (i : Nat) : Nat := k.num + 1024 * i

/-- The fields' reset values packed. -/
def fieldsReset : List FieldDesc → Nat
  | [] => 0
  | f :: fs => (f.reset % 2 ^ f.width) * 2 ^ f.lo + fieldsReset fs

/-- The reset value of an instance: the map's, but for the die number (R30), the last CTL_CLPRES word
(R31), the role of port 0 (R440) and the nonces, fresh at reset (R441, R580). -/
def regReset (k : RegKind) (i : Nat) : Nat :=
  match k with
  | .CTL_DIECFG => fieldsReset (regDesc k).fields + i % 8
  | .CTL_CLPRES => if i % 5 = 4 then 0xFFFF else 0xFFFFFFFFFFFFFFFF
  | .HLK_PSTAT => if i = 0 then 0x10 else 0x20
  | .HLK_OWNNONCE => (Config.nonce 0).toNat
  | .DBG_NONCE => (Config.nonce 1).toNat
  | _ => fieldsReset (regDesc k).fields

end Sys2Proof.Machine
end

