-- ==== Sys2Proof/Machine/Lanes.lean ====
section
/-!
DEFINITION. Lanes (R74 to R96): exact products of element pairs, the block anchor and window, the block sum with its
truncation flag, and the special outcomes carried beside the adder tree.
-/
namespace Sys2Proof.Machine

/-- One classified product of a block (R75, R80). `fin neg mag p` is ±mag × 2^p, with mag > 0. -/
inductive LaneProd where
  | nan
  | inf (neg : Bool)
  | zero (neg : Bool)
  | fin (neg : Bool) (mag : Nat) (p : Int)
  deriving DecidableEq, Repr

/-- The product of two scaled element values (R75, R80). -/
def laneProd (a w : FVal) : LaneProd :=
  match a, w with
  | .nan, _ => .nan
  | _, .nan => .nan
  | .inf s, .inf t => .inf (s != t)
  | .inf s, .fin t m _ => if m = 0 then .nan else .inf (s != t)
  | .fin t m _, .inf s => if m = 0 then .nan else .inf (s != t)
  | .fin s m e, .fin t m' e' =>
    if m * m' = 0 then .zero (s != t) else .fin (s != t) (m * m') (e + e')

/-- What a block hands to the accumulation path (R80, R111). -/
inductive BlockOut where
  | nan
  | inf (neg : Bool)
  | zero (neg : Bool)
  | fin (s : Int) (eb : Int)
  deriving DecidableEq, Repr

/-- A block's outcome with its truncation flag (R78) and the number of its products that R93 may gate. -/
structure BlockRes where
  out : BlockOut
  trunc : Bool
  zeros : Nat
  deriving DecidableEq, Repr

/-- Leading place of a product, for the finite non-zero ones (R75). -/
def LaneProd.lead : LaneProd → Option Int
  | .fin _ mag p => some (leadPlace mag p)
  | _ => none

/-- The anchor λ: the largest leading place (R76). -/
def anchor (ps : List LaneProd) : Option Int :=
  ps.foldl (fun acc p => match p.lead, acc with
    | none, a => a
    | some l, none => some l
    | some l, some a => some (max l a)) none

/-- The signed 20-bit term of a finite product in the window that ends at place λ − 19, and whether bits were
dropped (R77). -/
def laneTerm (lam : Int) (neg : Bool) (mag : Nat) (p : Int) : Int × Bool :=
  let d := p - (lam - 19)
  let t : Nat := if 0 ≤ d then mag * 2 ^ d.toNat else mag / 2 ^ (-d).toNat
  (if neg then -(t : Int) else t, if 0 ≤ d then false else decide (mag % 2 ^ (-d).toNat ≠ 0))

/-- Adds one product's term to the exact sum (R78). -/
def addTerm (lam : Int) (acc : Int × Bool) (p : LaneProd) : Int × Bool :=
  match p with
  | .fin neg mag q => let t := laneTerm lam neg mag q; (acc.1 + t.1, acc.2 || t.2)
  | _ => acc

/-- The block sum and outcome of a block's products (R76 to R81). -/
def blockSum (ps : List LaneProd) : BlockRes :=
  let zeros := (ps.filter (fun p => match p with | .zero _ => true | _ => false)).length
  let n := ps.any (fun p => decide (p = .nan))
  let pinf := ps.any (fun p => decide (p = .inf false))
  let minf := ps.any (fun p => decide (p = .inf true))
  match anchor ps with
  | none =>
    let out : BlockOut :=
      if n || (pinf && minf) then .nan
      else if pinf then .inf false
      else if minf then .inf true
      else .zero (ps.all (fun p => decide (p = .zero true)))
    ⟨out, false, zeros⟩
  | some lam =>
    let st := ps.foldl (addTerm lam) (0, false)
    let out : BlockOut :=
      if n || (pinf && minf) then .nan
      else if pinf then .inf false
      else if minf then .inf true
      else .fin st.1 (lam + 5)
    ⟨out, st.2, zeros⟩

end Sys2Proof.Machine
end

