-- ==== Sys2Proof/Machine/Accum.lean ====
section
/-!
DEFINITION. Accumulation (R105 to R131): aligning blocks into a run, promotion, the accumulator row, closing and
output of a cell, and the spill record's bytes.
-/
namespace Sys2Proof.Machine

/-- v shifted right by k places in magnitude, keeping its sign, and whether a non-zero bit was dropped (R111). -/
def truncShift (v : Int) (k : Nat) : Int × Bool :=
  let m := v.natAbs
  let r := m / 2 ^ k
  (if v < 0 then -(r : Int) else r, decide (m % 2 ^ k ≠ 0))

/-- The effective promotion interval of R107. -/
def effPromote (p : Nat) (bs16 : Bool) : Nat := if bs16 then p + p % 2 else p

/-- A run after a block, the high block it did not take, and the alignments that dropped a bit (R111, R113). -/
structure AlignRes where
  run : Run
  high : Option (Int × Int)
  truncs : Nat
  deriving DecidableEq, Repr

/-- Applies one block to a run (R111, R112: the sum wraps silently). -/
def Run.align (r : Run) (b : BlockOut) : AlignRes :=
  let r1 : Run := { r with
    cnt := r.cnt + 1
    fn := r.fn || decide (b = .nan)
    fp := r.fp || decide (b = .inf false)
    fm := r.fm || decide (b = .inf true)
    nz := r.nz && decide (b = .zero true) }
  match b with
  | .fin s eb =>
    if s = 0 then ⟨r1, none, 0⟩
    else if 105 < eb then ⟨r1, some (s, eb), 0⟩
    else
      let told : Int := (r.er.toNat : Int) - 150
      let t := max told eb
      let x := truncShift (2 * s) (t - eb).toNat
      let a := truncShift r.a.toInt (t - told).toNat
      ⟨{ r1 with a := BitVec.ofInt 32 (a.1 + x.1), er := BitVec.ofInt 8 (t + 150) }, none, b2n x.2 + b2n a.2⟩
  | _ => ⟨r1, none, 0⟩

/-- The FP32 value of a run at promotion (R118). -/
def Run.value (r : Run) : Nat :=
  if r.fn || (r.fp && r.fm) then 0x7FC00000
  else if r.fp then 0x7F800000
  else if r.fm then 0xFF800000
  else if r.a = 0 then (if r.nz then 0x80000000 else 0)
  else (shapeFP32.round .rne (decide (r.a.toInt < 0)) r.a.toInt.natAbs ((r.er.toNat : Int) - 175)).code

/-- A cell after an addition, how many EV_ACC_OVERFLOW it raised, and the magnitude code of F after it (0 for a NaN). -/
structure CellRes where
  cell : Cell
  overflows : Nat
  peak : Nat := 0
  deriving DecidableEq, Repr

/-- The magnitude code that R450's bound B takes from a value of F. -/
def peakOf (f : Nat) : Nat := if isNaN32 f then 0 else f % 0x80000000

/-- Adds a value into a cell at the accumulator row (R119). -/
def Cell.add (c : Cell) (pair : Bool) (r : Nat) : CellRes :=
  if c.empty then ⟨{ c with f := BitVec.ofNat 32 r, c := 0, empty := false }, 0, peakOf r⟩
  else
    let f := c.f.toNat
    let s := addF32 f r
    let ov := b2n (overflowed (isFin32 f && isFin32 r) s)
    if !pair then ⟨{ c with f := BitVec.ofNat 32 s }, ov, peakOf s⟩
    else if isNaN32 s || isInf32 s then ⟨{ c with f := BitVec.ofNat 32 s, c := 0 }, ov, peakOf s⟩
    else
      let exact := addVal .rne (shapeFP32.decode f) (shapeFP32.decode r)
      let err := match exact with
        | some v => (match addVal .rne v (shapeFP32.decode s).neg with
          | some e => (shapeFP32.encode .rne e).code
          | none => 0)
        | none => 0
      let c' := addF32 c.c.toNat err
      ⟨{ c with f := BitVec.ofNat 32 s, c := BitVec.ofNat 32 c' },
        ov + b2n (overflowed (isFin32 c.c.toNat && isFin32 err) c'), peakOf s⟩

/-- Promotes a cell's run unless its count is 0 (R117), and resets it: the result and whether it was promoted. -/
def Cell.promote (c : Cell) (pair : Bool) : CellRes × Bool :=
  if c.run.cnt = 0 then (⟨c, 0, 0⟩, false)
  else
    let r := Cell.add c pair c.run.value
    (⟨{ r.cell with run := {} }, r.overflows, r.peak⟩, true)

/-- Counts gathered while a vector passes the accumulator row. -/
structure AccCounts where
  promotes : Nat := 0
  truncs : Nat := 0
  bypass : Nat := 0
  overflows : Nat := 0
  peak : Nat := 0
  deriving DecidableEq, Repr

def AccCounts.plus (a b : AccCounts) : AccCounts :=
  ⟨a.promotes + b.promotes, a.truncs + b.truncs, a.bypass + b.bypass, a.overflows + b.overflows, max a.peak b.peak⟩

/-- The high block's value in FP32 and whether it overflowed (R113). -/
def highValue (h : Int × Int) : Nat × Bool :=
  let r := shapeFP32.round .rne (decide (h.1 < 0)) h.1.natAbs (h.2 - 24)
  (r.code, r.overflow)

/-- Adds the high blocks of a vector in half order (R113). -/
def Cell.addHighs (pair : Bool) : List (Int × Int) → Cell × AccCounts → Cell × AccCounts
  | [], s => s
  | h :: hs, (c, n) =>
    let v := highValue h
    let r := Cell.add c pair v.1
    Cell.addHighs pair hs (r.cell, n.plus ⟨0, 0, 1, b2n v.2 + r.overflows, r.peak⟩)

/-- Aligns the blocks of one vector into the run, in index order, gathering the high blocks. -/
def Run.alignAll : List BlockOut → Run × List (Int × Int) × Nat → Run × List (Int × Int) × Nat
  | [], s => s
  | b :: bs, (r, hs, n) =>
    let x := r.align b
    Run.alignAll bs (x.run, hs ++ x.high.toList, n + x.truncs)

/-- One vector's effect on a cell, with any promotion due at the accumulator row (R108, R113, R117). -/
def Cell.vector (pe : Nat) (pair : Bool) (bs : List BlockOut) (c : Cell) : Cell × AccCounts :=
  let al := Run.alignAll bs (c.run, [], 0)
  let c1 := { c with run := al.1 }
  let highs := al.2.1
  if highs ≠ [] ∨ pe ≤ c1.run.cnt.toNat then
    let p := Cell.promote c1 pair
    Cell.addHighs pair highs (p.1.cell, ⟨b2n p.2, al.2.2, 0, p.1.overflows, p.1.peak⟩)
  else (c1, ⟨0, al.2.2, 0, 0, 0⟩)

/-- Closes a panel: promotes every run whose count is not 0 (R120). -/
def Panel.close (p : Panel) : Panel × AccCounts :=
  let rs := p.cells.map (fun kc => (kc.1, Cell.promote kc.2 p.pair))
  let n := rs.foldl (fun n r => n.plus ⟨b2n r.2.2, 0, 0, r.2.1.overflows, r.2.1.peak⟩) ({} : AccCounts)
  ({ p with cells := rs.map (fun r => (r.1, r.2.1.cell)) }, n)

/-- Every cell emptied (R106). -/
def Panel.emptied (p : Panel) : Panel := { p with cells := [], hist := [], resumed := false, foreign := false }

/-- The key of cell (k, j) of array a. -/
def cellKey (a k j : Nat) : Nat := 1024 * a + 32 * k + j

/-- The cell at a key. -/
def Panel.cell (p : Panel) (key : Nat) : Cell := SMap.read {} p.cells key

/-- Writes a cell. -/
def Panel.setCell (p : Panel) (key : Nat) (c : Cell) : Panel := { p with cells := SMap.write {} p.cells key c }

/-- Whether the panel shows in ACC_STAT.LIVE (R134). -/
def Panel.live (p : Panel) : Bool := p.cells.any (fun kc => !kc.2.empty || decide (kc.2.run.cnt ≠ 0))

/-- The pair-mode fold of R121 step 3 on a cell's value: the FP32 value and whether it overflowed. An EMPTY cell reads
as +0. -/
def Cell.outValue (c : Cell) (pair : Bool) : Nat × Bool :=
  if c.empty then (0, false)
  else if pair then
    let s := addF32 c.f.toNat c.c.toNat
    (s, overflowed (isFin32 c.f.toNat && isFin32 c.c.toNat) s)
  else (c.f.toNat, false)

/-- The magic of a spill record header (R124). -/
def spillMagic : Nat := 0x48534844

/-- The header tile of a spill record (R124). -/
def Panel.header (p : Panel) : List Byte :=
  let empties := ofBits ((List.range 4096).filter (fun i => (p.cell i).empty))
  leBytes 4 spillMagic ++ leBytes 1 (b2n p.pair) ++ leBytes 1 p.promote.toNat ++ List.replicate 10 0
    ++ leBytes 512 empties ++ List.replicate 3568 0

/-- One F tile (or C tile, `comp`) of array `a` (R123). -/
def Panel.tileBytes (p : Panel) (comp : Bool) (a : Nat) : List Byte :=
  (List.range 1024).flatMap (fun i =>
    let c := p.cell (1024 * a + i)
    leBytes 4 (if comp then c.c.toNat else c.f.toNat))

/-- The whole record, header first (R123). -/
def Panel.record (p : Panel) : List Byte :=
  p.header ++ (List.range 4).flatMap (p.tileBytes false)
    ++ (if p.pair then (List.range 4).flatMap (p.tileBytes true) else [])

/-- Whether a header tile is bad (R127). -/
def headerBad (h : List Byte) : Bool :=
  let n := leNat h
  decide (bits n 31 0 ≠ spillMagic) || decide (bits n 39 33 ≠ 0) || n.testBit 47
    || decide (bits n 46 40 = 0) || decide (64 < bits n 46 40)
    || decide (bits n 127 48 ≠ 0) || decide (n >>> (8 * 528) ≠ 0)

/-- The panel a record gives back (R126), the AMULs it received apart. `bs` starts at the header. -/
def Panel.ofRecord (bs : List Byte) : Panel :=
  let h := leNat (bs.take 528)
  let pair := h.testBit 32
  let cells := (List.range 4096).map (fun i =>
    let f := leNat ((bs.drop (4096 + 4 * i)).take 4)
    let c := if pair then leNat ((bs.drop (20480 + 4 * i)).take 4) else 0
    ({ f := BitVec.ofNat 32 f, c := BitVec.ofNat 32 c, empty := h.testBit (128 + i), run := {} } : Cell))
  { promote := BitVec.ofNat 7 (bits h 46 40), pair := pair, cells := SMap.ofList {} 0 cells, resumed := true }

end Sys2Proof.Machine
end

