-- ==== Sys2Proof/Machine/Types.lean ====
section
/-!
DEFINITION. The plain data of everything outside the register map: cores, packets and links, loaded plans, partitions,
the chain, sparing and the controllers, the standby controller, security and module flash.
-/
namespace Sys2Proof.Machine

/-- A cluster-DMA descriptor handed over (R242, R243), with the collective tag captured at issue (R392), and whether its tiles have moved,
so that only its completion is outstanding (R241). -/
structure DmaDesc where
  tag : Nat
  src : Nat
  dst : Nat
  count : Nat
  sstride : Int
  dstride : Int
  kind : Nat
  route : Nat
  bad : Bool
  coreTag : Nat
  pc : Nat
  moved : Bool := false
  deriving DecidableEq, Repr

/-- An edge operation in flight until EDGE_OPERATION_COMPLETE: its place in program order, its panel (none for a conversion from
memory), whether it keeps EDGE_STAT.BUSY, the scalar register and value it writes at its end, and whether it is a resume (R135, R151,
R164, R267). -/
structure EdgeFlight where
  order : Nat
  panel : Option Nat
  conv : Bool
  dest : Option (Nat × Word)
  resume : Bool := false
  deriving DecidableEq, Repr

/-- One span-log entry: the instruction word with the two register values it read, and the ranges [lo, hi) of stride offsets of the
staging bytes it reads (R460). -/
structure SpanEntry where
  word : Nat
  a : Nat
  b : Nat
  reads : List (Nat × Nat)
  deriving DecidableEq, Repr

/-- A captured check failure awaiting diagnosis (R459 to R462): its core, slots and record, and what the capture slot holds: the staging
area, the eight banks, the failed panel with its number, and the span log. -/
structure Capture where
  core : Nat
  kind : Nat
  event : Nat
  slot : Nat
  capSlot : Option Nat
  staging : Memory
  banks : SMap Bank
  index : Nat
  panel : Panel
  spans : List SpanEntry
  fpc : Nat
  row : Nat
  total : Bool
  result : Nat
  operand : Nat
  tol : Nat
  chain : Nat
  step : Nat
  stream : Nat
  deriving DecidableEq, Repr

/-- Results one core of a pair left for its partner's comparison (R456): the values after step 3 of R121, keyed as cells, and what a capture
copies of the core as it stands at the check pass (R459). -/
structure DupOut where
  values : SMap Nat
  capture : Capture
  deriving DecidableEq, Repr

/-- A logical core's state outside its registers of the window (R228 to R232, R236, R242, R263, R266). `order` counts the
instructions handed to its queues; `gillCols` keeps, for each gill entry, the row length of the conversion that wrote it (R150); `fetched` the
bytes of the 64-byte group fetched last, from its first byte on (R231); `spilled` the panels it has spilled, each with
the device address of its record and the AMULs it had received (R128, R152). -/
structure Core where
  pc : Word := 0
  sregs : SMap Word := []
  vregs : SMap (BitVec 32) := []
  pregs : SMap (BitVec 32) := []
  nregs : SMap Word := []
  pend : List Nat := []
  panels : SMap Panel := []
  banks : SMap Bank := []
  arrayQ : List ArrayOp := []
  flights : List AmulFlight := []
  loads : List BankLoad := []
  edgeQ : List EdgeOp := []
  edgeFlights : List EdgeFlight := []
  order : Nat := 0
  gillCols : SMap Nat := []
  dmas : List DmaDesc := []
  fetched : Option (Nat × List Byte) := none
  spilled : List (Nat × Panel) := []
  lanes : SMap Lane := []
  committed : SMap Lane := []
  barrier : Option Nat := none
  usedTiles : List Nat := []
  spans : SMap (List SpanEntry) := []
  dup : List DupOut := []
  captured : Bool := false
  halted : Bool := false
  deriving DecidableEq, Repr

/-- A fabric packet (R352): the HEAD body's fields, its bytes 24 to 63, and the tile when NFLIT = 64. -/
structure Packet where
  route : Nat
  slice : Nat
  vc : Nat
  src : Nat
  dst : Nat
  area : List Byte
  tile : Option (List Byte)
  deriving DecidableEq, Repr

/-- Flits of a packet (R352). -/
def Packet.flits (p : Packet) : Nat := if p.tile.isSome then 65 else 1

/-- A host-link packet (R421). -/
structure HPkt where
  op : Nat
  tag : Nat := 0
  len : Nat := 0
  addr : Nat := 0
  scruple : Nat := 0
  sv : Bool := false
  status : Nat := 0
  vector : Nat := 0
  event : Nat := 0
  data : List Byte := []
  deriving DecidableEq, Repr

/-- A packet open on a VC: its HEAD, SEQ, the data received so far (R353), and whether its HEAD is illegal and only takes
up its SEQ (R352). -/
structure OpenPkt where
  seq : Nat
  head : Packet
  got : List Byte := []
  bad : Bool := false
  deriving DecidableEq, Repr

/-- A packet sent and not yet released, with its SEQ (R356). Of an MWS the packet holds the tiles sent and not yet accepted; `acc` counts
those accepted, and `opened` says that its HEAD was (R422). -/
structure SentPkt (π : Type) where
  seq : Nat
  pkt : π
  acc : Nat := 0
  opened : Bool := false
  deriving DecidableEq, Repr

/-- A packet waiting at an output port: its VC, the input it came from (36 + d for injection on die d), and the training generation of that
input when it came. Of an MWS whose HEAD has gone (`opened`) the packet holds the tiles not yet sent (R422). -/
structure Queued (π : Type) where
  vc : Nat
  input : Nat
  pkt : π
  gen : Nat := 0
  opened : Bool := false
  deriving DecidableEq, Repr

/-- One end of a link (R353 to R360): sequence numbers, retry state, queues and credits. -/
structure Link (π : Type) where
  nextSeq : Nat := 0
  lastSeq : Option Nat := none
  nextHead : Nat := 0
  opened : SMap (Option OpenPkt) := []
  whole : List OpenPkt := []
  discarding : Bool := false
  nakHeld : Bool := false
  skipping : List Nat := []
  replay : List (SentPkt π) := []
  resends : Nat := 0
  queue : List (Queued π) := []
  credits : SMap Nat := []
  owed : SMap Nat := []
  turn : Nat := 0
  lastInput : SMap Nat := []
  deriving DecidableEq, Repr

/-- A fabric port outside its registers (R371, R372): training stage (0 none, 1 lock, 2 DISC, 3 probing), optical signal,
the peer's die, whether the peer's DISC and its SEEN have come, the round trips measured and probes answered. -/
structure FabPortSt where
  link : Link Packet := {}
  stage : Nat := 0
  signal : Bool := false
  peerDie : Nat := 0
  gotDisc : Bool := false
  gotSeen : Bool := false
  trips : List Int := []
  deriving DecidableEq, Repr

/-- What a TX4 read is for (R427, R429): a queue's entry fetch, or a tile of a started COPY_IN. -/
structure HRead where
  tag : Nat
  part : Nat
  queue : Nat
  entry : Nat
  tile : Option Nat
  deriving DecidableEq, Repr

/-- A host packet being received: its SEQ, its HEAD, the data so far, and whether the stack reports an uncorrectable error when it is
read for (R353, R418, R448). -/
structure HOpen where
  seq : Nat
  pkt : HPkt
  got : List Byte
  ue : Bool
  deriving DecidableEq, Repr

/-- A host port outside its registers: its link, the packets being received, TX4 reads outstanding, the times of the last INTRs, the
adapter's identity and port, the SPDM request being answered, and what its SPDM requests have negotiated (0 nothing, 1 the version, 2 the capabilities too, 3 and
more the algorithms), with the messages that signatures cover. -/
structure HostPortSt where
  link : Link HPkt := {}
  opened : SMap (Option HOpen) := []
  whole : List HOpen := []
  reads : List HRead := []
  nextTag : Nat := 0
  intrs : SMap Nat := []
  adapter : Option (Nat × Nat) := none
  asked : Option (List Byte) := none
  spdm : Nat := 0
  vca : List Byte := []
  certMsgs : List Byte := []
  measMsgs : List Byte := []
  deriving DecidableEq, Repr

/-- A copy-queue entry (R428): its index and fields, tiles done, and its status and event once ended. -/
structure QEntry where
  idx : Nat
  op : Nat
  irq : Bool
  order : Bool
  haddr : Nat
  daddr : Nat
  tiles : Nat
  user : Nat
  bad : Bool
  moved : Nat := 0
  ended : Option (Nat × Nat) := none
  deriving DecidableEq, Repr

/-- A copy queue outside its registers (R427 to R430): TAIL, entries fetched in order and started in order, PHASE of the
current pass. -/
structure Queue where
  tail : Nat := 0
  phase : Bool := true
  fetched : List QEntry := []
  started : List QEntry := []
  deriving DecidableEq, Repr

/-- A plan core (R285) with the logical core that serves it (R292). -/
structure PlanCore where
  plan : Nat
  core : Nat
  entry : Nat
  tile : Nat
  ntiles : Nat
  deriving DecidableEq, Repr

/-- A schedule entry (R309). -/
structure SchedEntry where
  offset : Nat
  kind : Nat
  obj : Nat
  every : Nat
  arg : Nat
  deriving DecidableEq, Repr

/-- A group record with its lists (R390). `msgs` are (serial, pod, partition, message route). -/
structure GroupRec where
  gid : Nat
  rank : Nat
  size : Nat
  alg : Nat
  tfmt : Nat
  notice : Nat
  members : List (Nat × Nat × Nat × Nat)
  expects : List Nat
  routes : List Nat
  deriving DecidableEq, Repr

/-- A transit record (R390). -/
structure TransitRec where
  gid : Nat
  notice : Nat
  routes : List Nat
  deriving DecidableEq, Repr

/-- A child of the scope tree (R390). -/
structure ChildRec where
  pod : Nat
  part : Nat
  down : Nat
  downAlt : Nat
  deriving DecidableEq, Repr

/-- The GROUPS section (R390). -/
structure Groups where
  scopeId : Nat := 0
  total : Nat := 0
  root : Bool := false
  parentPod : Nat := 0
  parentPart : Nat := 0
  upRoute : Nat := 0
  upAlt : Nat := 0
  upDeadline : Nat := 0
  settle : Nat := 0
  children : List ChildRec := []
  groups : List GroupRec := []
  transits : List TransitRec := []
  deriving DecidableEq, Repr

/-- A port expectation (R378). -/
structure PortExpect where
  serial : Nat := 0
  port : Nat := 0
  expect : Bool := false
  deriving DecidableEq, Repr

/-- A route entry (R378). -/
structure RouteEntry where
  route : Nat
  loc : Bool
  port : Nat
  vc : Nat
  slice : Nat
  deriving DecidableEq, Repr

/-- The FABRIC section in force (R378). -/
structure Fabric where
  self : Nat := 0
  ports : List PortExpect := []
  routes : List RouteEntry := []
  deriving DecidableEq, Repr

/-- A record of the CORES section: a die, its used and its vacant clusters (R291). -/
structure CoresRec where
  die : Nat
  use : Nat
  vac : Nat
  deriving DecidableEq, Repr

/-- A relocated field (R293) and a RESIDENT record (R286). -/
structure Reloc where
  off : Nat
  kind : Nat
  deriving DecidableEq, Repr

structure Resident where
  dest : Nat
  tile : Nat
  count : Nat
  deriving DecidableEq, Repr

/-- The facts of a plan beside its registers (R281 to R311, R378, R390, R475), as the load read them from its image, with the scruple of
each image tile then (R287, R296); `ownFabric` is its image's own FABRIC section, whatever revision is in force (R373); `bound` once its cores are bound (R292). -/
structure Plan where
  addr : Nat := 0
  length : Nat := 0
  dies : Nat := 0
  lcores : Nat := 0
  cores : List PlanCore := []
  barriers : List (List Nat) := []
  gap : Nat := 1
  entries : List SchedEntry := []
  fabric : Fabric := {}
  groups : Groups := {}
  ownFabric : List Byte := []
  fabricBytes : List Byte := []
  groupsBytes : List Byte := []
  relocs : List Reloc := []
  residents : List Resident := []
  regionBase : Nat := 0
  regionTiles : Nat := 0
  rtest : Nat := 0
  uses : List CoresRec := []
  bound : Bool := false
  planId : Nat := 0
  digest : List Byte := []
  signed : Bool := false
  consts : List Byte := []
  format : Option (List Byte) := none
  check : Nat := 0
  scruples : List Nat := []
  deriving DecidableEq, Repr

/-- A VOTE or DECISION body (R403). -/
structure Vote where
  clean : Bool := false
  complete : Bool := false
  split : Bool := false
  drain : Bool := false
  round : Nat := 0
  count : Nat := 0
  cause : Nat := 0
  digest : Nat := 0
  reqmap : Nat := 0
  deg : List Nat := []
  deriving DecidableEq, Repr

/-- A provisional record (R396). -/
structure ProvRec where
  die : Nat
  group : Nat
  rank : Nat
  seq : Nat
  addr : Nat
  used : Bool
  retracted : Bool
  deriving DecidableEq, Repr

/-- A range of SEQ for a (group, sender rank): a kept RETRACT range (R401) or the used range (R396). -/
structure SeqRange where
  group : Nat
  rank : Nat
  first : Nat
  last : Nat
  deriving DecidableEq, Repr

/-- The fall-back state of one monitor as committed (R189), read by a drain. -/
structure MonSnap where
  state : Nat
  rvstep : Nat
  deriving DecidableEq, Repr

/-- A drain in progress (R332 to R337, R436): the host ports it uses, the host address, the image's bytes as gathered
when it started, from copies that nothing writes before it ends (R334). -/
structure Drain where
  ports : List Nat
  base : Nat
  image : List Byte
  deriving DecidableEq, Repr

/-- A partition's state beside its registers; `loadBinding` is the binding of the plan being loaded, if there is one, by the cluster map as its
load began (R292), `lastDrained` the image that the last completed drain wrote (R332), `restoring` the image address of a restore past its step 5
(R339), `residentFresh` says that the fills since the last boundary have rewritten RESIDENT (R484); `reach` is r of R311, `causeAt` when the
verdict became unclean (R324), `scopeStep` the step whose votes, decision and reports it holds (R407). -/
structure Part where
  plan : Option Plan := none
  loading : Option Plan := none
  loadBinding : Option (List (Nat × Nat × Nat)) := none
  pastChain : Bool := false
  start : Option Word := none
  stepping : Bool := false
  reach : Int := 0
  causeAt : Nat := 0
  issuing : Bool := false
  voteFired : Bool := false
  votedClean : Bool := false
  stopReq : Bool := false
  nanStop : Bool := false
  nanAt : Nat := 0
  nanCores : List Nat := []
  holding : Bool := false
  flip : Word := 0
  round : Nat := 0
  holdq : Nat := 0x40
  holdmax : Nat := 0xFF
  fbSnap : List MonSnap := []
  fbUsed : Nat := 0
  rvApplied : List Nat := []
  scopeStep : Nat := 0
  ownVote : Option Vote := none
  votes : List (Nat × Vote) := []
  sentUp : Bool := false
  decision : Option Vote := none
  dones : List Nat := []
  sentDone : Bool := false
  allDone : Option Nat := none
  counts : SMap Nat := []
  seqs : SMap Nat := []
  excess : List Nat := []
  recs : List ProvRec := []
  usedSeqs : List SeqRange := []
  ranges : List SeqRange := []
  degLast : List Nat := []
  degReceived : List Nat := []
  drain : Option Drain := none
  lastDrained : Option (List Byte) := none
  restoring : Option Nat := none
  noRun : Bool := false
  residentFresh : Bool := false
  queues : SMap Queue := []
  captures : List Capture := []
  deriving DecidableEq, Repr

/-- A chain symbol whose beat waits to be applied (R304). -/
structure WaitSym where
  count : Word
  at_ : Int
  input : Nat
  deriving DecidableEq, Repr

/-- The chain logic beside its registers (R303 to R308). -/
structure Chain where
  inForce : Bool := false
  run : Nat := 0
  runCount : Word := 0
  runTime : Int := 0
  lastApplied : Option Word := none
  waiting : List WaitSym := []
  lastBeat : Int := 0
  conflicts : Nat := 0
  frameAt : Option Nat := none
  deriving DecidableEq, Repr

/-- A bushel in flash (R467): its header's facts, and the tiles of its image before the signature tile with the scruples they came
with. -/
structure BushelRec where
  id : Nat
  version : Nat
  ntest : Nat
  duration : Nat
  digest : Nat
  valid : Bool
  tiles : List (List Byte × Nat) := []
  deriving DecidableEq, Repr

/-- A spare fill in progress (R484): its cluster, slot, the logical core it will serve, its step (4 once it has failed or another slot
of its cluster is to be retired, until that retirement is carried out), and the bushel that its second step runs. -/
structure Fill where
  die : Nat
  cluster : Nat
  slot : Nat
  core : Nat
  step : Nat
  bushel : Option BushelRec := none
  deriving DecidableEq, Repr

/-- A rolling test in progress (R471): its cluster, the plan's logical core, its two slots, the step S of its SWAP entry, its phase
(1 background copy, 2 boundary copy done, 3 testing, 4 copying back, 5 copied back, 6 ended by a permanent failure, R19, 7 failed, until the slot is retired), the bushel it
runs, and the copy under way: what the receiving slot holds of the stride, with the tiles written again since. -/
structure SwapTest where
  die : Nat
  cluster : Nat
  core : Nat
  tested : Nat
  spare : Nat
  step : Nat
  phase : Nat
  bushel : BushelRec
  copy : Memory := []
  dirty : List Nat := []
  deriving DecidableEq, Repr

/-- Retirements and fills beside their registers, and the SPR_POLICY values whose records wait (R496). -/
structure Sparing where
  requests : List (Nat × Nat) := []
  due : List Nat := []
  fills : List Fill := []
  swaps : List SwapTest := []
  policies : List Nat := []
  deriving DecidableEq, Repr

/-- A recovery journal record (R495), with whether NEXT has acknowledged it as open and as closed (R496). -/
structure JRec where
  seq : Nat
  term : Nat
  type : Nat
  done : Bool
  aborted : Bool
  target : Nat
  lo : Nat
  hi : Nat
  st : Nat
  openAck : Bool
  closedAck : Bool
  deriving DecidableEq, Repr

/-- What one controller tells another (R494, R496 to R498): it announces itself in the election, sends or answers a heartbeat, leads, sends a
record, or acknowledges one as open or as closed. -/
inductive CtlMsg where
  | announce
  | heartbeat (term seq : Nat)
  | answer (term : Nat)
  | lead (term : Nat)
  | record (r : JRec)
  | ack (seq : Nat) (closed : Bool)
  deriving DecidableEq, Repr

/-- The controllers and bring-up beside their registers (R24, R463, R494 to R519): dies whose firmware is verified or rejected, those
that announced, the election, controllers reset and awaited, the journal, T0, who missed a heartbeat since the last, fences that
wait for a lead, dies whose core test is done, and the bridges' failures in a row and which are down. -/
structure Control where
  verified : List Nat := []
  rejected : List Nat := []
  announced : List Nat := []
  windowOpen : Bool := false
  elected : Bool := false
  rejoin : List Nat := []
  journal : List JRec := []
  t0 : Option Nat := none
  missed : List Nat := []
  timerHeartbeats : Bool := true
  fences : List Nat := []
  tested : List Nat := []
  bridgeFails : SMap Nat := []
  bridgesDown : List Nat := []
  logSeq : SMap Nat := []
  deriving DecidableEq, Repr

/-- What the standby controller keeps across DEEP (R537). -/
structure Retained where
  regs : SMap Word
  deriving DecidableEq, Repr

/-- The standby controller and the pins (R503, R510, R539, R545 to R547, R588 to R595): the input, the rails and PWR_GOOD, RESET_N
held low, a sag hold, a thermal trip (THERMTRIP_N low), EXTEST, a wake or state entry under way with the times of the last WAKE and of the command,
voltage and timed power samples, sensor readings and the reads in a row within each episode's limits, dies not yet switched to their PLL after
SLEEP, stretched clusters, what DEEP keeps, when the last heartbeat of a lead was seen and which die's it was (R503), the SMBus address
straps as read at power application (R589), and the TAP's instruction register (R575). -/
structure Standby where
  input : Bool := true
  railTries : Nat := 0
  railsOff : Bool := false
  pwrGood : Bool := false
  resetHeld : Bool := false
  sagHold : Bool := false
  sagPending : Bool := false
  trip : Bool := false
  extest : Bool := false
  wakePending : Bool := false
  wokeAt : Option Nat := none
  cmdAt : Option Nat := none
  deepWake : Bool := false
  target : Nat := 0
  samples : List Nat := []
  powers : List (Nat × Nat) := []
  tins : List Int := []
  touts : List Int := []
  limitGood : Nat := 0
  warnGood : Nat := 0
  switching : List Nat := []
  stretched : List Nat := []
  retained : Option Retained := none
  lastHeartbeat : Option Nat := none
  leadSeen : Nat := 0
  straps : Nat := 0
  ir : Nat := 0xFF
  deriving DecidableEq, Repr

/-- A firmware image's facts (R556): whether its format holds, SVN, RAISE, COMPAT, RELEASE, its key list (key bytes and
kind), its digest, and of its signature tile the KEYID of its signer and the signature. -/
structure FwRec where
  ok : Bool
  svn : Nat
  raise : Bool
  compat : Nat
  release : Nat
  keys : List (Nat × Nat)
  digest : Nat
  signer : Nat
  sig : List Byte
  deriving DecidableEq, Repr

/-- One of two copies of a flash table, with whether its CRC holds (R516, R561). -/
structure Copy (α : Type) where
  ok : Bool
  val : α
  deriving DecidableEq, Repr

/-- Module flash, the fuses and what mask ROM holds (R467, R516, R556, R557, R561, R564): kept by module reset and power removal. The key
table's entries are (kind, key bytes), kind 1 owner and 2 operator; `helper` is the identity helper data, none where it cannot be read, `certKey` the
public key that the device certificate certifies, `romKey` and `recoveryKey` the Fenram firmware key and the recovery debug key. -/
structure Flash where
  fw : Option FwRec
  bushels : List BushelRec
  retireA : Copy (List Nat)
  retireB : Copy (List Nat)
  keysA : Copy (List (Nat × Nat))
  keysB : Copy (List (Nat × Nat))
  helper : Option (List Byte)
  certKey : Nat
  romKey : Nat
  recoveryKey : Nat
  floor : Nat
  deriving DecidableEq, Repr

/-- A write waiting for flash, the first of the queue being written (R559). -/
inductive FlashWrite where
  | fw (r : FwRec)
  | bushel (slot : Nat) (r : BushelRec)
  | keys (table : List (Nat × Nat))
  | retire (slot : Nat)
  deriving DecidableEq, Repr

/-- Security and debug beside their registers. `testBushel` is the bushel a running device test uses, none where its
slot holds no bushel. -/
structure Security where
  running : Option FwRec := none
  claim : Option Nat := none
  tokens : List (List Byte) := []
  flashQ : List FlashWrite := []
  testDies : Nat := 0
  testSlot : Nat := 0
  testBushel : Option BushelRec := none
  deriving DecidableEq, Repr

/-- What leaves the module, and what one controller sends another by the ring or the bridges, in order. Every control flit on a link that
carries packets names the last SEQ accepted from the other end, if any, in `ack` (R349, R353). An MWS leaves as its HEAD and then its
tiles, one by one. -/
inductive Out where
  | host (port seq : Nat) (ack : Option Nat) (p : HPkt)
  | hostTile (port : Nat) (tile : List Byte)
  | hostLink (port : Nat) (credits : List Nat) (nak : Bool) (ack : Option Nat)
  | hostIdent (port : Nat) (serial : Nat) (ack : Option Nat)
  | fabPacket (port seq : Nat) (ack : Option Nat) (p : Packet)
  | fabLink (port : Nat) (credits : List Nat) (nak : Bool) (ack : Option Nat)
  | fabDisc (port serial die gen : Nat) (seen : Bool) (ack : Option Nat)
  | fabProbe (port t1 : Nat) (ack : Option Nat)
  | fabEcho (port t1 t2 t3 : Nat) (ack : Option Nat)
  | fabChain (port : Nat) (symbol : Nat) (ack : Option Nat)
  | smbus (value width : Nat)
  | tap (value width : Nat) (err : Bool)
  | ctl (ring : Bool) (src dst : Nat) (m : CtlMsg)
  deriving DecidableEq, Repr

end Sys2Proof.Machine
end

