-- ==== Sys2Proof/Machine/State.lean ====
section
/-!
DEFINITION. The state of the module, its state at reset, and the reasons a step can stop.
-/
namespace Sys2Proof.Machine

/-- Everything in the module that a module reset or a command can change, but for flash and the queue. Registers are held
by key (`regKey`), absent while they hold their reset value; memory by device address. -/
structure Dev where
  regs : SMap Word
  mem : Memory
  cores : SMap Core
  parts : SMap Part
  fab : SMap FabPortSt
  hosts : SMap HostPortSt
  chain : Chain
  spr : Sparing
  ctl : Control
  sby : Standby
  sec : Security
  now : Nat
  fresh : Nat
  ue : List Nat
  out : List Out
  deriving DecidableEq, Repr

/-- The block: its volatile state, its flash and fuses, and the commands waiting, first in, first out. -/
structure State where
  dev : Dev
  flash : Flash
  pending : List Instr
  deriving DecidableEq, Repr

/-- Why a step faults. No command of this block faults: the spec gives each an effect. -/
inductive Fault where
  /-- Raised by no command; kept so that the type is inhabited. Safe. -/
  | never
  deriving DecidableEq, Repr

/-- Why a step is refused. -/
inductive Refusal where
  /-- Raised by the dispatch for a command that has no meaning yet. Safe. -/
  | notModelled (mnemonic : String)
  deriving DecidableEq, Repr

/-- A bushel slot that holds nothing (R478). -/
def BushelRec.empty : BushelRec := ⟨0, 0, 0, 0, 0, false, []⟩

/-- Module flash as the model takes it at manufacture (assumption 6, DESIGN CHOICE): an image of SVN 0, no bushel, no
retirement, no owner or operator key, readable helper data, fuse floor 0. -/
def Flash.factory : Flash where
  fw := some ⟨true, 0, false, 0, 0, [], 0, 0, Config.factorySignature⟩
  bushels := List.replicate 8 BushelRec.empty
  retireA := ⟨true, []⟩
  retireB := ⟨true, []⟩
  keysA := ⟨true, []⟩
  keysB := ⟨true, []⟩
  helper := some Config.helperData
  certKey := Config.identityKey
  romKey := Config.firmwareKey
  recoveryKey := Config.recoveryKey
  floor := 0

/-- The module at a power application, in reset before T0 (R509, R510): every register at its reset value, nothing in
memory, nothing queued anywhere. -/
def Dev.reset : Dev where
  regs := []
  mem := []
  cores := []
  parts := []
  fab := []
  hosts := []
  chain := {}
  spr := {}
  ctl := {}
  sby := {}
  sec := {}
  now := 0
  fresh := 2
  ue := []
  out := []

/-- The machine right after reset. -/
def State.reset : State where
  dev := Dev.reset
  flash := Flash.factory
  pending := []

end Sys2Proof.Machine
end

