-- ==== Sys2Proof/Machine/Ops.lean ====
section
/-!
DEFINITION. The shared operations on the module's state: registers and fields, cores, partitions, ports, counters,
events and their interrupts, host packets, memory.
-/
namespace Sys2Proof.Machine

/-- The value of instance `i` of a register. -/
def Dev.reg (s : Dev) (k : RegKind) (i : Nat) : Nat :=
  (SMap.read (BitVec.ofNat 64 (regReset k i)) s.regs (regKey k i)).toNat

/-- Writes a whole register. -/
def Dev.setReg (s : Dev) (k : RegKind) (i v : Nat) : Dev :=
  { s with regs := SMap.write (BitVec.ofNat 64 (regReset k i)) s.regs (regKey k i) (BitVec.ofNat 64 v) }

/-- The value of a field. -/
def Dev.fld (s : Dev) (f : Fld) (i : Nat) : Nat := s.reg f.reg i / 2 ^ f.lo % 2 ^ f.width

/-- Writes a field. -/
def Dev.setFld (s : Dev) (f : Fld) (i v : Nat) : Dev := s.setReg f.reg i (putBits (s.reg f.reg i) f.lo f.width v)

/-- A one-bit field as a Bool. -/
def Dev.flag (s : Dev) (f : Fld) (i : Nat) : Bool := decide (s.fld f i = 1)

/-- Sets a register back to its reset value. -/
def Dev.clearReg (s : Dev) (k : RegKind) (i : Nat) : Dev := s.setReg k i (regReset k i)

/-- The instance of the `n`-th register of a die. -/
def dieIdx (k : RegKind) (d n : Nat) : Nat := d * (regDesc k).count + n

/-- A logical core's state. -/
def Dev.core (s : Dev) (c : Nat) : Core := SMap.read {} s.cores c

def Dev.setCore (s : Dev) (c : Nat) (x : Core) : Dev := { s with cores := SMap.write {} s.cores c x }

/-- A partition's state, by its lowest die. -/
def Dev.part (s : Dev) (p : Nat) : Part := SMap.read {} s.parts p

def Dev.setPart (s : Dev) (p : Nat) (x : Part) : Dev := { s with parts := SMap.write {} s.parts p x }

/-- A fabric port's state. -/
def Dev.fabPort (s : Dev) (p : Nat) : FabPortSt := SMap.read {} s.fab p

def Dev.setFab (s : Dev) (p : Nat) (x : FabPortSt) : Dev := { s with fab := SMap.write {} s.fab p x }

/-- A host port's state. -/
def Dev.hostPort (s : Dev) (p : Nat) : HostPortSt := SMap.read {} s.hosts p

def Dev.setHost (s : Dev) (p : Nat) (x : HostPortSt) : Dev := { s with hosts := SMap.write {} s.hosts p x }

/-- Sends something out of the module. -/
def Dev.emit (s : Dev) (o : Out) : Dev := { s with out := s.out ++ [o] }

/-- Takes a fresh nonce. -/
def Dev.nonce (s : Dev) : Nat × Dev := ((Config.nonce s.fresh).toNat, { s with fresh := s.fresh + 1 })

/-! ### Uncorrectable errors of the stacks (R448) -/

/-- Carries a command out in which the reads of the tiles at `ue` report an uncorrectable error. -/
def Dev.withUe (s : Dev) (ue : List Nat) (f : Dev → Dev) : Dev := { f { s with ue := ue } with ue := [] }

/-- Whether a read of the payload tile that holds an address reports an uncorrectable error. -/
def Dev.ueAt (s : Dev) (a : Nat) : Bool :=
  match memPlace a with
  | .hbmPayload _ _ => s.ue.any (fun u => u / tileSize == a / tileSize)
  | _ => false

/-- The scruple that a tile read carries: its own, or the poison scruple after an uncorrectable error. -/
def Dev.scrupleOf (s : Dev) (a : Nat) : Nat := if s.ueAt a then poisonScruple else Memory.scruple s.mem a

/-- Folds an update over a list. -/
def Dev.each {α : Type} (s : Dev) (xs : List α) (f : α → Dev → Dev) : Dev := xs.foldl (fun s x => f x s) s

/-! ### Dies and partitions -/

/-- The partition count in force (R34). -/
def Dev.nparts (s : Dev) : Nat := s.fld Fld.HLK_PARTCFG_PARTS 0

/-- The lowest die of the partition that holds die `d` under a layout (R34). -/
def layoutPart (parts d : Nat) : Nat :=
  match parts with
  | 2 => if d < 3 then 0 else 3
  | 3 => d % 3
  | 6 => d
  | _ => 0

/-- The partition of a die. -/
def Dev.partOf (s : Dev) (d : Nat) : Nat := layoutPart s.nparts d

/-- The dies of a partition, ascending. -/
def Dev.diesOf (s : Dev) (p : Nat) : List Nat := (List.range 6).filter (fun d => s.partOf d == p)

/-- The partitions, by lowest die. -/
def Dev.partitions (s : Dev) : List Nat := (List.range 6).filter (fun d => s.partOf d == d)

/-- A die held in reset by a fence (R502). -/
def Dev.fenced (s : Dev) (d : Nat) : Bool := s.flag Fld.CTL_DIECFG_FENCED d

/-- The dies not fenced. -/
def Dev.liveDies (s : Dev) : List Nat := (List.range 6).filter (fun d => !s.fenced d)

/-- Die, cluster and core of a logical ID (R12). -/
def coreDie (c : Nat) : Nat := bits c 15 13
def coreCluster (c : Nat) : Nat := bits c 12 4
def coreNum (c : Nat) : Nat := c % 16

/-- A logical ID. -/
def coreId (d k i : Nat) : Nat := d * 8192 + k * 16 + i

/-- A physical slot ID (R12). -/
def slotId (d k n : Nat) : Nat := d * 16384 + k * 32 + n
def slotDie (p : Nat) : Nat := bits p 16 14
def slotCluster (p : Nat) : Nat := bits p 13 5
def slotNum (p : Nat) : Nat := p % 32

/-- Whether a physical ID names a slot (R13). -/
def isSlot (p : Nat) : Bool := decide (slotDie p < 6) && decide (slotCluster p < 272) && decide (slotNum p < 17)

/-- Instance of a remap register of cluster `k` on die `d`. -/
def clIdx (d k : Nat) : Nat := d * 272 + k

/-- Whether a cluster is short (R15). -/
def Dev.isShort (s : Dev) (d k : Nat) : Bool := s.flag Fld.SPR_CLSTAT_SHORT (clIdx d k)

/-- Whether a logical core is present: its die not fenced and its cluster not short (R14, R20). -/
def Dev.present (s : Dev) (c : Nat) : Bool :=
  decide (coreDie c < 6) && decide (coreCluster c < 272) && !s.fenced (coreDie c)
    && !s.isShort (coreDie c) (coreCluster c)

/-- The slot that serves a logical core; 0x1F when unmapped (R15). -/
def Dev.slotOf (s : Dev) (c : Nat) : Nat :=
  let i := clIdx (coreDie c) (coreCluster c)
  let n := coreNum c
  if n < 8 then bits (s.reg .SPR_REMAP_LO i) (8 * n + 4) (8 * n)
  else bits (s.reg .SPR_REMAP_HI i) (8 * (n - 8) + 4) (8 * (n - 8))

/-- The plan state of a partition (R314): 0 EMPTY, 1 LOADING, 2 LOADED, 3 RUNNING. -/
def Dev.planState (s : Dev) (p : Nat) : Nat := s.fld Fld.PLAN_STAT_STATE p

/-- The logical cores a partition's plan uses, in plan core order. -/
def Dev.planCores (s : Dev) (p : Nat) : List Nat :=
  match (s.part p).plan with
  | some pl => pl.cores.map (fun c => c.core)
  | none => []

/-- The clusters (die, cluster) that a partition's plan binds (R292, R315). -/
def Dev.binds (s : Dev) (p d k : Nat) : Bool :=
  (s.planCores p).any (fun c => coreDie c == d && coreCluster c == k)

/-! ### The owner port (R433, R434) -/

/-- The port holding the owner credential: the lowest HOLD bit; none while no bit is set. -/
def Dev.owner (s : Dev) : Option Nat := (List.range 6).find? (fun p => (s.fld Fld.HLK_OWNSTAT_HOLD 0).testBit p)

/-- Whether a port is the owner port. -/
def Dev.isOwner (s : Dev) (p : Nat) : Bool := decide (s.owner = some p)

/-! ### Counters (R39, R42, R43) -/

/-- Adds occurrences to the event counter of a code in a die's array or, for none, the device-wide array. -/
def Dev.countEvent (s : Dev) (code : Nat) (die : Option Nat) (n : Nat) : Dev :=
  let go (k : RegKind) (i : Nat) : Dev :=
    let r := s.reg k i
    let c := r % 2 ^ 32 + n
    if c ≤ 0xFFFFFFFF then s.setReg k i (putBits r 0 32 c)
    else s.setReg k i (putBits (putBits r 0 32 0xFFFFFFFF) 32 1 1)
  match die with
  | some d => go .CTL_EVCNT (dieIdx .CTL_EVCNT d code)
  | none => go .CTL_EVCNT_DEV code

/-- Adds to a 16-bit link error counter that saturates, with its sticky bit (R42). -/
def Dev.countLink (s : Dev) (f ovf : Fld) (i n : Nat) : Dev :=
  let c := s.fld f i + n
  if c ≤ 0xFFFF then s.setFld f i c else (s.setFld f i 0xFFFF).setFld ovf i 1

/-! ### Host packets and interrupts (R420, R421, R432) -/

/-- VC of a host packet (R420). -/
def HPkt.vc (p : HPkt) : Nat :=
  match p.op with
  | 1 => 1
  | 4 => 3
  | _ => 0

/-- Flits of a host packet: its HEAD and ⌈LEN / 64⌉ data flits where it carries data; 64 per tile for an MWS (R421). -/
def HPkt.flits (p : HPkt) : Nat := 1 + (p.data.length + 63) / 64

/-- Flits each host VC may send after training; the spec gives no buffer size (assumption 7). -/
def hostCredits : Nat := 4096

def HostPortSt.credit (h : HostPortSt) (vc : Nat) : Nat := SMap.read hostCredits h.link.credits vc

/-- Flits held in a host port's replay buffer. -/
def hostHeld (h : HostPortSt) : Nat := h.link.replay.foldl (fun n p => n + p.pkt.flits) 0

/-- Whether a host port may send so many flits on a VC now: credits for all of them, and room in the replay buffer (R356, R360, R418). -/
def HostPortSt.may (h : HostPortSt) (vc flits : Nat) : Bool :=
  decide (flits ≤ h.credit vc) && decide (hostHeld h + flits ≤ 4096) && decide (h.link.replay.length < 2047)

/-- Uses up credits of a VC. -/
def HostPortSt.spend (h : HostPortSt) (vc flits : Nat) : HostPortSt :=
  { h with link := { h.link with credits := SMap.write hostCredits h.link.credits vc (h.credit vc - flits) } }

/-- A packet takes the next SEQ, its place in the replay buffer and its credits. -/
def HostPortSt.sent (h : HostPortSt) (vc : Nat) (p : HPkt) : HostPortSt :=
  let h := h.spend vc p.flits
  { h with link := { h.link with nextSeq := (h.link.nextSeq + 1) % 4096, replay := h.link.replay ++ [⟨h.link.nextSeq, p, 0, false⟩] } }

/-- The PRIMARY port of a partition (R417). -/
def Dev.primary (s : Dev) (p : Nat) : Option Nat :=
  (s.diesOf p).find? (fun d => s.fld Fld.HLK_PSTAT_ROLE d == 1)

/-- Ten microseconds in units of 0.25 ns. -/
def intrGap : Nat := 40000

/-- Puts an INTR behind what waits on VC0 of a port, or sends it where nothing waits and it may go (R420). -/
def Dev.sendIntr (s : Dev) (port : Nat) (h : HostPortSt) (p : HPkt) : Dev :=
  if h.link.queue.any (fun q => q.vc == 0) || !h.may 0 1 then
    s.setHost port { h with link := { h.link with queue := h.link.queue ++ [⟨0, port, p, 0, false⟩] } }
  else (s.setHost port (h.sent 0 p)).emit (.host port h.link.nextSeq h.link.lastSeq p)

/-- Sends an INTR for an event on a port that is UP, at most one for each code in 10 µs (R432). -/
def Dev.intr (s : Dev) (port code : Nat) : Dev :=
  if s.fld Fld.HLK_PSTAT_LINK port ≠ 2 then s
  else
    let h := s.hostPort port
    let last := SMap.read 0 h.intrs code
    if last ≠ 0 ∧ s.now < last - 1 + intrGap then s
    else s.sendIntr port { h with intrs := SMap.write 0 h.intrs code (s.now + 1) } { op := 5, vector := 16 + code / 4096, event := code }

/-- Whether HLK_IMASK of the partition that a port serves lets a code through (R432, R440). -/
def Dev.unmasked (s : Dev) (port code : Nat) : Bool :=
  (s.fld Fld.HLK_IMASK_CLASS (s.partOf port)).testBit (code / 4096)

/-- An interrupt to a port, subject to its mask unless the code is always delivered. -/
def Dev.intrMasked (s : Dev) (port code : Nat) : Dev :=
  if Ev.forced.contains code || s.unmasked port code then s.intr port code else s

/-- An interrupt to the owner port, or to every PRIMARY port while no port holds the credential (R432). -/
def Dev.intrOwner (s : Dev) (code : Nat) : Dev :=
  match s.owner with
  | some p => s.intrMasked p code
  | none => s.each ((List.range 6).filter (fun p => s.fld Fld.HLK_PSTAT_ROLE p == 1)) (fun p s => s.intrMasked p code)

/-- Raises an event `n` times in a die's array: counted and delivered to the partition's PRIMARY port (R39, R432). -/
def Dev.raiseN (s : Dev) (die code n : Nat) : Dev :=
  if n = 0 then s
  else
    let s := s.countEvent code (some die) n
    match s.primary (s.partOf die) with
    | some p => s.intrMasked p code
    | none => s

/-- Raises an event once in a die's array. -/
def Dev.raise (s : Dev) (die code : Nat) : Dev := s.raiseN die code 1

/-- Raises an event in the device-wide array: counted and delivered to the owner port (R39, R432). -/
def Dev.raiseDev (s : Dev) (code : Nat) : Dev := (s.countEvent code none 1).intrOwner code

/-- Adds to a 48-bit performance counter of a die or core; a wrap raises EV_PERF_WRAP in the die's array (R41, R43). -/
def Dev.perf (s : Dev) (k : RegKind) (i die n : Nat) : Dev :=
  let c := s.reg k i % 2 ^ 48 + n
  let s := s.setReg k i (putBits (s.reg k i) 0 48 c)
  if 2 ^ 48 ≤ c then s.raise die Ev.PERF_WRAP else s

/-- The same for a core's counter. -/
def Dev.perfCore (s : Dev) (k : RegKind) (c n : Nat) : Dev :=
  if n = 0 then s else s.perf k c (coreDie c) n

/-- The same for a counter of the device-wide block. -/
def Dev.perfDev (s : Dev) (k : RegKind) (i n : Nat) : Dev :=
  let c := s.reg k i % 2 ^ 48 + n
  let s := s.setReg k i (putBits (s.reg k i) 0 48 c)
  if 2 ^ 48 ≤ c then s.raiseDev Ev.PERF_WRAP else s

/-! ### Sending on a host port (R356, R420 to R422) -/

/-- The newest MWS of a replay buffer takes one more tile. -/
def addTile (tile : List Byte) : List (SentPkt HPkt) → List (SentPkt HPkt)
  | [] => []
  | x :: xs =>
    if x.pkt.op = 3 ∧ xs.all (fun y => y.pkt.op ≠ 3) then { x with pkt := { x.pkt with data := x.pkt.data ++ tile } } :: xs else x :: addTile tile xs

/-- Sends the queued packets of one host VC while credits and the replay buffer allow. An MWS goes as its HEAD and tile by tile, and the
packets behind it on its VC wait for its end (R352, R422). -/
def hostPumpVc (port vc : Nat) : Nat → HostPortSt → List Out → HostPortSt × List Out
  | 0, h, o => (h, o)
  | fuel + 1, h, o =>
    match h.link.queue.find? (fun q => q.vc == vc) with
    | none => (h, o)
    | some q =>
      let at_ := h.link.queue.idxOf q
      let ack := h.link.lastSeq
      let rest (h : HostPortSt) (qs : List (Queued HPkt)) : HostPortSt := { h with link := { h.link with queue := qs } }
      if q.pkt.op = 3 ∧ !q.opened then
        let head : HPkt := { q.pkt with data := [] }
        if h.may vc 1 then
          hostPumpVc port vc fuel (rest (h.sent vc head) (h.link.queue.set at_ { q with opened := true })) (o ++ [.host port h.link.nextSeq ack head])
        else (h, o)
      else if q.pkt.op = 3 ∧ q.pkt.data ≠ [] then
        let tile := q.pkt.data.take tileSize
        if h.may vc 64 then
          let h' := rest (h.spend vc 64) (h.link.queue.set at_ { q with pkt := { q.pkt with data := q.pkt.data.drop tileSize } })
          hostPumpVc port vc fuel { h' with link := { h'.link with replay := addTile tile h'.link.replay } } (o ++ [.hostTile port tile])
        else (h, o)
      else if q.pkt.op = 3 then hostPumpVc port vc fuel (rest h (h.link.queue.eraseIdx at_)) o
      else if h.may vc q.pkt.flits then
        hostPumpVc port vc fuel (rest (h.sent vc q.pkt) (h.link.queue.eraseIdx at_)) (o ++ [.host port h.link.nextSeq ack q.pkt])
      else (h, o)

/-- Data flits of what a host port sends. -/
def Out.dataFlits (o : Out) : Nat :=
  match o with
  | .host _ _ _ p => (p.data.length + 63) / 64
  | .hostTile _ _ => 64
  | _ => 0

/-- Sends whatever a host port may send: VC0, then VC3, then VC1 (R420). A pump ends by itself, for each turn fills the replay buffer or
shortens the queue. -/
def Dev.hostPump (s : Dev) (port : Nat) : Dev :=
  if s.fld Fld.HLK_PSTAT_LINK port ≠ 2 then s
  else
    let h := s.hostPort port
    let n := 4096 + h.link.queue.length
    let r := hostPumpVc port 0 n h []
    let r := hostPumpVc port 3 n r.1 r.2
    let r := hostPumpVc port 1 n r.1 r.2
    let s := s.setHost port r.1
    ({ s with out := s.out ++ r.2 } : Dev).perf .HLK_PC_TX port port (r.2.foldl (fun n o => n + o.dataFlits) 0)

/-- Hands a packet to a host port that is UP; a port that is not UP sends nothing (R432, R435). -/
def Dev.hostSend (s : Dev) (port : Nat) (p : HPkt) : Dev :=
  if s.fld Fld.HLK_PSTAT_LINK port ≠ 2 then s
  else
    let h := s.hostPort port
    (s.setHost port { h with link := { h.link with queue := h.link.queue ++ [⟨p.vc, port, p, 0, false⟩] } }).hostPump port

/-! ### Time -/

/-- Milliseconds of model time. -/
def msUnits : Nat := 4000000

/-- Chain count (R316). -/
def Dev.chainCount (s : Dev) : Nat := s.reg .CHN_COUNT 0

/-- Beat period in units of 0.25 ns (R301). -/
def Dev.beatUnits (s : Dev) : Nat := 4 * 2 ^ (8 + s.fld Fld.CHN_CTL_PERIOD 0)

/-! ### Memory -/

/-- Replaces memory. -/
def Dev.setMem (s : Dev) (m : Memory) : Dev := { s with mem := m }

/-- Drops the span entries of a core whose staging granules of 256 bytes a write to stride offsets [lo, hi) touches, with
everything before them, so that what stays is the replayable tail (R460). -/
def dropSpans (lo hi : Nat) (es : List SpanEntry) : List SpanEntry :=
  es.foldl (fun acc e =>
    if e.reads.any (fun r => decide (r.1 / 256 * 256 < hi) && decide (lo < (r.2 + 255) / 256 * 256)) then [] else acc ++ [e]) []

/-- What a write to a core's stride does beside memory: the tiles it touches have to be verified again at their next
load (R446), and the span log sees writes to staging (R460). -/
def Core.wrote (x : Core) (lo hi : Nat) : Core :=
  { x with
    usedTiles := x.usedTiles.filter (fun t => decide (t < lo / tileSize) || decide (hi ≤ t * tileSize))
    spans := (x.spans.map (fun kv => (kv.1, dropSpans lo hi kv.2))).filter (fun kv => !kv.2.isEmpty) }

/-- What a write to stride offsets [lo, hi) of a core means for a rolling test's copy of it: the tiles written are noted, to be copied
again (R471). -/
def SwapTest.wrote (t : SwapTest) (c lo hi : Nat) : SwapTest :=
  if t.core = c then { t with dirty := t.dirty ++ ((List.range' (lo / tileSize) ((hi - 1) / tileSize + 1 - lo / tileSize)).filter (fun n => !t.dirty.contains n)) } else t

/-- Notes a write to device addresses [a, a+n) in the core whose stride it touches, and in the copies of rolling tests. -/
def Dev.wrote (s : Dev) (a n : Nat) : Dev :=
  if a < coreBase ∨ coreBase + 65536 * strideSize ≤ a then s
  else
    let c := (a - coreBase) / strideSize
    let o := (a - coreBase) % strideSize
    { s.setCore c ((s.core c).wrote o (o + n)) with spr := { s.spr with swaps := s.spr.swaps.map (fun t => t.wrote c o (o + n)) } }

/-- Writes bytes of any length at a device address, scruples kept in step (R445). -/
def Dev.write (s : Dev) (a : Nat) (bs : List Byte) : Dev :=
  ({ s with mem := Memory.storeAll (bs.length / tileSize + 2) s.mem a bs } : Dev).wrote a bs.length

/-- Writes a whole tile with the scruple it carries (R243, R365, R426). -/
def Dev.writeTile (s : Dev) (a : Nat) (bs : List Byte) (scr : Nat) : Dev :=
  ({ s with mem := Memory.putTile s.mem a bs scr } : Dev).wrote a tileSize

/-- The bytes of the tile at an address. -/
def Dev.tile (s : Dev) (a : Nat) : List Byte := Memory.bytes s.mem a tileSize

/-- Whether an address lies in a partition's window of memory: its stacks and its present cores' strides, reserved ranges,
absent cores and the stacks a fence holds in reset apart (R20, R27, R35, R502). -/
def Dev.inMemWindow (s : Dev) (p a : Nat) : Bool :=
  match memPlace a with
  | .hbmPayload st _ => s.partOf (st / 4) == p && !s.fenced (st / 4)
  | .hbmSideband st => s.partOf (st / 4) == p && !s.fenced (st / 4)
  | .corePayload c _ => s.present c && s.partOf (coreDie c) == p
  | .coreSideband c => s.present c && s.partOf (coreDie c) == p
  | .staging c => s.present c && s.partOf (coreDie c) == p
  | .gill c => s.present c && s.partOf (coreDie c) == p
  | .other => false

/-- Whether an address lies in HBM payload of the partition. -/
def Dev.inHbm (s : Dev) (p a : Nat) : Bool :=
  match memPlace a with
  | .hbmPayload st _ => s.partOf (st / 4) == p && !s.fenced (st / 4)
  | _ => false

/-- Whether `n` tiles from `a`, tile-aligned, are HBM payload of the partition (in one stack or in several). -/
def Dev.tilesInHbm (s : Dev) (p a n : Nat) : Bool :=
  decide (a % tileSize = 0) && decide (n ≠ 0) && s.inHbm p a && s.inHbm p (a + (n - 1) * tileSize)
    && ((List.range 24).all (fun st =>
      decide (st * stackSize + sidebandOff + 0xC000000 ≤ a) || decide (a + n * tileSize ≤ st * stackSize + sidebandOff)))

/-- Whether an address is the first byte of a payload tile in the partition's window (R364, R428). -/
def Dev.payloadTile (s : Dev) (p a : Nat) : Bool :=
  decide (a % tileSize = 0) && s.inMemWindow p a && (match memPlace a with
    | .hbmPayload _ _ => true
    | .corePayload _ _ => true
    | _ => false)

/-- Zeroes an address range, scruples of its tiles included where the caller names the sideband as well. -/
def Dev.zero (s : Dev) (lo hi : Nat) : Dev := { s with mem := SMap.clear s.mem lo hi }

/-- The tiles of a core's stride have all been written: a rolling test's copy of it takes them again (R471). -/
def Dev.touchCore (s : Dev) (c : Nat) : Dev :=
  { s with spr := { s.spr with swaps := s.spr.swaps.map (fun t => t.wrote c 0 strideSize) } }

/-- Zeroes a core's stride: payload, sideband and edge buffers (R437, R518, R562, R572). -/
def Dev.zeroStride (s : Dev) (c : Nat) : Dev := (s.zero (strideAddr c 0) (strideAddr c 0x120000)).touchCore c

/-- Zeroes a die's stacks and its cores' strides, with fresh scruples (R437, R518, R562, R572); a rolling test's copy of one of its cores takes
every tile again (R471). -/
def Dev.zeroDie (s : Dev) (d : Nat) : Dev :=
  let s := (s.zero (4 * d * stackSize) ((4 * d + 4) * stackSize)).zero (strideAddr (8192 * d) 0) (strideAddr (8192 * (d + 1)) 0)
  { s with spr := { s.spr with swaps := s.spr.swaps.map (fun t => if coreDie t.core = d then t.wrote t.core 0 strideSize else t) } }

/-! ### Meanings -/

/-- The outcome of a command that changes the volatile state to `d` and nothing else. -/
def ok (s : State) (d : Dev) : Host.Outcome State Fault Refusal := .next { s with dev := d }

/-- A host's request on a port: nothing while the port is not UP; malformed on an OFF port; outside the window in the bring-up
stages other than the given ones (R417, R423, R515, R560). -/
def Dev.hostGateIn (s : Dev) (stages : List Nat) (port : Nat) (f : Dev → Dev) : Dev :=
  if s.fld Fld.HLK_PSTAT_LINK port ≠ 2 then s
  else if s.fld Fld.HLK_PSTAT_ROLE port = 0 then s.raise port Ev.HLK_MALFORMED
  else if !stages.contains (s.fld Fld.CTL_BOOT_STAGE 0) then s.raise port Ev.HLK_UNMAPPED
  else f s

/-- The same for a request served only in READY. -/
def Dev.hostGate (s : Dev) (port : Nat) (f : Dev → Dev) : Dev := s.hostGateIn [6] port f

/-- A request that only the owner port has carried out; from another port it is ignored (R423, R433). -/
def Dev.ownerGate (s : Dev) (port : Nat) (f : Dev → Dev) : Dev :=
  s.hostGate port (fun s => if s.isOwner port then f s else s)

/-- The power states of R528. -/
def pwrRun : Nat := 0
def pwrIdle : Nat := 1
def pwrSleep : Nat := 2
def pwrDeep : Nat := 3
def pwrOff : Nat := 4

/-- The current power state. -/
def Dev.power (s : Dev) : Nat := s.fld Fld.PWR_STAT_STATE 0

/-- Whether the power state is RUN and no entry into a lower one is under way (R531, R532). -/
def Dev.running (s : Dev) : Bool := decide (s.power = pwrRun) && !s.flag Fld.PWR_STAT_BUSY 0

/-! ### Bridges (R22 to R25) -/

/-- The two dies that a bridge joins. -/
def bridgeDies (j : Nat) : Nat × Nat :=
  match j with
  | 0 => (0, 1)
  | 1 => (1, 2)
  | 2 => (3, 4)
  | 3 => (4, 5)
  | 4 => (0, 3)
  | 5 => (1, 4)
  | _ => (2, 5)

/-- The bridge that joins two dies beside each other. -/
def bridgeOf (d e : Nat) : Option Nat := (List.range 7).find? (fun j => bridgeDies j == (min d e, max d e))

/-- The dies that traffic from one die to another passes, in order: first along the row to the destination's column, then across the
rows (R22). Die d lies in row d / 3 and column d mod 3. -/
def diePath (d e : Nat) : List Nat :=
  let along (n : Nat) : Nat := if d % 3 ≤ e % 3 then d + n else d - n
  let row := (List.range (max (d % 3) (e % 3) - min (d % 3) (e % 3) + 1)).map along
  if d / 3 = e / 3 then row else row ++ [e]

/-- The bridges of a list of dies beside one another. -/
def pathBridges : List Nat → List Nat
  | d :: e :: ds => (bridgeOf d e).toList ++ pathBridges (e :: ds)
  | _ => []

/-- The bridges that traffic from one die to another crosses, in order (R22). -/
def bridgeRoute (d e : Nat) : List Nat := pathBridges (diePath d e)

/-- Whether traffic from die `d` to die `e` gets through: every bridge of its one route carries traffic (R22, R24). -/
def Dev.reaches (s : Dev) (d e : Nat) : Bool := (bridgeRoute d e).all (fun j => !s.ctl.bridgesDown.contains j)

/-- The die that owns a memory address: of its stack, or of its core's stride (R21, R26). -/
def addrDie (a : Nat) : Nat := if a < hbmEnd then a / stackSize / 4 else coreDie ((a - coreBase) / strideSize)

/-- A host's request to a register of a die: outside the port's partition, or where a down bridge cuts the die off, it is unmapped
(R24, R35, R423; assumption 74). -/
def Dev.dieGate (s : Dev) (port d : Nat) (f : Dev → Dev) : Dev :=
  s.hostGate port (fun s => if s.partOf d = s.partOf port ∧ s.reaches port d then f s else s.raise port Ev.HLK_UNMAPPED)

/-- A host's request to a register of its partition, which the partition's lowest die holds (R28), reached as a register of a die is. -/
def Dev.partGate (s : Dev) (port : Nat) (f : Dev → Dev) : Dev :=
  s.hostGate port (fun s => if s.reaches port (s.partOf port) then f s else s.raise port Ev.HLK_UNMAPPED)

/-- Whether a partition contains both dies of a bridge that is down, and so issues no further steps (R24). -/
def Dev.bridgeStops (s : Dev) (p : Nat) : Bool :=
  s.ctl.bridgesDown.any (fun j => s.partOf (bridgeDies j).1 == p && s.partOf (bridgeDies j).2 == p)

end Sys2Proof.Machine
end

