-- ==== Sys2Proof/Machine/Operands.lean ====
section
/-!
DEFINITION. Instruction words and register operands of a core (R228 to R235): the two forms, which fields an instruction uses, the
guard, and reading and writing the s, v, p and n registers.
-/
namespace Sys2Proof.Machine

/-! ### Fields of a word (R233) -/

/-- A whole word from its opcode and its low 56 bits. -/
def insn (op : Nat) (w : BitVec 56) : Nat := op * 2 ^ 56 + w.toNat

def opOf (w : Nat) : Nat := bits w 63 56
def pnOf (w : Nat) : Bool := w.testBit 55
def pgOf (w : Nat) : Nat := bits w 54 52
def fD (w : Nat) : Nat := bits w 51 46
def fA (w : Nat) : Nat := bits w 45 40
def fB (w : Nat) : Nat := bits w 39 34
def fC (w : Nat) : Nat := bits w 33 28
def fX (w : Nat) : Nat := bits w 27 22
def fF (w : Nat) : Nat := bits w 21 16
def imm16 (w : Nat) : Nat := bits w 15 0
def f8 (w : Nat) : Nat := bits w 39 32
def imm32 (w : Nat) : Nat := bits w 31 0

/-- IMM32 sign-extended to 64 bits. -/
def simm (w : Nat) : Nat := twos 64 (signed 32 (imm32 w))

/-! ### Which fields an instruction uses (R234) -/

/-- The kind of register a field names; `unused` for a field that must be zero, `pair` for an FP64 operand. -/
inductive Slot where
  | unused | s | v | pair | p
  deriving DecidableEq, Repr

/-- Whether a field's value lies within its kind's range. -/
def Slot.fits (k : Slot) (n : Nat) : Bool :=
  match k with
  | .unused => decide (n = 0)
  | .s => decide (n < 32)
  | .v => decide (n < 64)
  | .pair => decide (n < 64) && decide (n % 2 = 0)
  | .p => decide (n < 8)

/-- What an instruction uses of the standard form: its register fields, and masks of F and IMM16. -/
structure Form where
  d : Slot := .unused
  a : Slot := .unused
  b : Slot := .unused
  c : Slot := .unused
  x : Slot := .unused
  f : Nat := 0
  imm : Nat := 0
  deriving DecidableEq, Repr

/-- Whether no bit of `n` lies outside `mask`. -/
def within (n mask : Nat) : Bool := decide (n &&& mask = n)

/-- Whether a word keeps the rules of R234 for a use of the standard form. -/
def Form.ok (m : Form) (w : Nat) : Bool :=
  m.d.fits (fD w) && m.a.fits (fA w) && m.b.fits (fB w) && m.c.fits (fC w) && m.x.fits (fX w)
    && within (fF w) m.f && within (imm16 w) m.imm

/-- The same for the long form: its two register fields and whether it uses F8. -/
def longOk (d a : Slot) (useF8 : Bool) (w : Nat) : Bool := d.fits (fD w) && a.fits (fA w) && (useF8 || decide (f8 w = 0))

/-! ### Registers (R228 to R230) -/

/-- Scalar register `i`; s0 is zero (R229). -/
def Core.s (x : Core) (i : Nat) : Nat := if i = 0 then 0 else (SMap.read 0 x.sregs i).toNat

/-- Writes a scalar register; a write to s0 is discarded (R229). -/
def Core.setS (x : Core) (i v : Nat) : Core := if i = 0 then x else { x with sregs := SMap.write 0 x.sregs i (BitVec.ofNat 64 v) }

/-- Predicate register `i`; p0 is all ones (R229). -/
def Core.p (x : Core) (i : Nat) : Nat := if i = 0 then 0xFFFFFFFF else (SMap.read 0 x.pregs i).toNat

/-- Writes the bits of a predicate register that `mask` selects; a write to p0 is discarded (R229, R235). -/
def Core.setP (x : Core) (i mask v : Nat) : Core :=
  if i = 0 then x
  else { x with pregs := SMap.write 0 x.pregs i (BitVec.ofNat 32 ((v &&& mask) ||| (x.p i &&& (0xFFFFFFFF ^^^ mask)))) }

/-- The 32 lanes of vector register `r`. -/
def Core.v (x : Core) (r : Nat) : List Nat :=
  let m := SMap.window x.vregs (32 * r) (32 * r + 32)
  (List.range 32).map (fun i => (SMap.read 0 m (32 * r + i)).toNat)

/-- Writes the lanes of a vector register that `mask` selects (R235). -/
def Core.setV (x : Core) (r mask : Nat) (vs : List Nat) : Core :=
  let new := ((x.v r).zip vs).zipIdx.map (fun p => BitVec.ofNat 32 (if mask.testBit p.2 then p.1.2 else p.1.1))
  { x with vregs := SMap.splice x.vregs (32 * r) (32 * r + 32) (SMap.ofList 0 (32 * r) new) }

/-- The 32 FP64 values of an even–odd pair (R230). -/
def Core.vPair (x : Core) (r : Nat) : List Nat := ((x.v r).zip (x.v (r + 1))).map (fun p => p.1 + p.2 * 2 ^ 32)

/-- Writes the lanes of an even–odd pair. -/
def Core.setPair (x : Core) (r mask : Nat) (vs : List Nat) : Core :=
  (x.setV r mask (vs.map (· % 2 ^ 32))).setV (r + 1) mask (vs.map (· / 2 ^ 32))

/-- A vector operand: FP64 pairs when `wide`. -/
def Core.operand (x : Core) (wide : Bool) (r : Nat) : List Nat := if wide then x.vPair r else x.v r

/-- Writes a vector result: FP64 pairs when `wide`. -/
def Core.setOperand (x : Core) (wide : Bool) (r mask : Nat) (vs : List Nat) : Core :=
  if wide then x.setPair r mask vs else x.setV r mask vs

/-- Norm accumulator `i`, an FP64 code (R228). -/
def Core.n (x : Core) (i : Nat) : Nat := (SMap.read 0 x.nregs i).toNat

def Core.setN (x : Core) (i v : Nat) : Core := { x with nregs := SMap.write 0 x.nregs i (BitVec.ofNat 64 v) }

/-- The guard of a word (R235). -/
def Core.guard (x : Core) (w : Nat) : Nat := if pnOf w then x.p (pgOf w) ^^^ 0xFFFFFFFF else x.p (pgOf w)

/-- The lanes whose guard bit is 1, ascending. -/
def active (g : Nat) : List Nat := setBits 32 g

end Sys2Proof.Machine
end

