-- ==== Sys2Proof/Machine/Flags.lean ====
section
/-!
DEFINITION. Rounding directions and the sticky IEEE flags of CORE_VFP (R249, R250, R278).
-/
namespace Sys2Proof.Machine

/-- The direction in CORE_VFP.RM (R278). -/
def Dev.vfpRm (s : Dev) (c : Nat) : Rm :=
  match s.fld Fld.CORE_VFP_RM c with
  | 1 => .rtz
  | 2 => .rup
  | 3 => .rdn
  | 4 => .rna
  | _ => .rne

/-- The direction an instruction's RM field selects; none for the illegal values 6 and 7 (R250). -/
def Dev.rmOf (s : Dev) (c rm : Nat) : Option Rm :=
  match rm with
  | 0 => some (s.vfpRm c)
  | 1 => some .rne
  | 2 => some .rtz
  | 3 => some .rup
  | 4 => some .rdn
  | 5 => some .rna
  | _ => none

/-- The flags as bits NV, DZ, OF, UF, NX from bit 0. -/
def FpFlags.bits (f : FpFlags) : Nat := b2n f.nv + 2 * b2n f.dz + 4 * b2n f.of + 8 * b2n f.uf + 16 * b2n f.nx

/-- The union of the flags of some results. -/
def unionFlags (fs : List FpFlags) : FpFlags := fs.foldl FpFlags.union {}

/-- Ors flags into CORE_VFP (R249). -/
def Dev.orFlags (s : Dev) (c : Nat) (f : FpFlags) : Dev :=
  s.setReg .CORE_VFP c (s.reg .CORE_VFP c ||| (f.bits * 16))

end Sys2Proof.Machine
end

