-- ==== Sys2Proof/Machine/Keccak.lean ====
section
/-!
DEFINITION. SHAKE256 and SHA3-512 (FIPS 202), which the spec names for digests, signatures and KEYIDs (R298, R299, R566): the
Keccak permutation on 25 lanes held as numbers, row after row, the sponge with a rate in bytes, and the two functions.
-/
namespace Sys2Proof.Machine.Keccak

/-- A 64-bit lane turned left by `n` places. -/
def turn (n w : Nat) : Nat := w * 2 ^ n % 2 ^ 64 + w / 2 ^ (64 - n)

/-- Lanes of two rows joined one by one. -/
def xorRow (u v : List Nat) : List Nat := u.zipWith (fun p q => p ^^^ q) v

/-- The five rows of a state. -/
def rows (a : List Nat) : List (List Nat) := chunks 5 5 a

/-- Step θ: each lane takes in the parities of the column before it and, turned by one, of the column after it. -/
def theta (a : List Nat) : List Nat :=
  let parity := (rows a).foldl xorRow (List.replicate 5 0)
  let mix := xorRow (parity.rotateRight 1) ((parity.rotateLeft 1).map (turn 1))
  (rows a).flatMap (xorRow mix)

/-- Steps ρ and π along the one cycle of lanes that π has: from (x, y) the lane goes to (y, 2x + 3y), the t-th of the walk turned
by t(t + 1)/2. Lane (0, 0) stays. -/
def rhoPi (a : List Nat) : List Nat :=
  ((List.range 24).foldl (fun (st : Nat × Nat × List Nat) t =>
    let to_ := (st.2.1, (2 * st.1 + 3 * st.2.1) % 5)
    (to_.1, to_.2, st.2.2.set (to_.1 + 5 * to_.2) (turn ((t + 1) * (t + 2) / 2 % 64) (a.getD (st.1 + 5 * st.2.1) 0)))) (1, 0, a)).2.2

/-- Step χ on one row. -/
def chi (r : List Nat) : List Nat :=
  xorRow r ((r.rotateLeft 1).zipWith (fun p q => (p ^^^ (2 ^ 64 - 1)) &&& q) (r.rotateLeft 2))

/-- The register that step ι draws its bits from, one step on: x^8 + x^6 + x^5 + x^4 + 1. -/
def lfsr (r : Nat) : Nat := if r < 128 then 2 * r else (2 * r) ^^^ 0x171

/-- Seven draws of step ι: what they put into lane (0, 0), at places 2^j − 1, and the register after them. -/
def iota (r : Nat) : Nat × Nat :=
  (List.range 7).foldl (fun (st : Nat × Nat) j => (st.1 + st.2 % 2 * 2 ^ (2 ^ j - 1), lfsr st.2)) (0, r)

/-- One round, with the register of step ι. -/
def round (st : List Nat × Nat) : List Nat × Nat :=
  let k := iota st.2
  let b := (rows (rhoPi (theta st.1))).flatMap chi
  (b.set 0 (b.getD 0 0 ^^^ k.1), k.2)

/-- The permutation: 24 rounds. -/
def permute (a : List Nat) : List Nat := ((List.range 24).foldl (fun st _ => round st) (a, 1)).1

/-- Takes a block into a state. -/
def absorb (a : List Nat) (block : List Byte) : List Nat :=
  let ws := (chunks 8 25 block).map leNat
  permute (xorRow a (ws ++ List.replicate (25 - ws.length) 0))

/-- A message with its domain byte and final bit, in whole blocks of `rate` bytes. -/
def padded (rate dom : Nat) (m : List Byte) : List Byte :=
  let n := (m.length / rate + 1) * rate
  let tail := m ++ BitVec.ofNat 8 dom :: List.replicate (n - m.length - 1) 0
  tail.set (n - 1) (tail.getD (n - 1) 0 ||| 0x80)

/-- The first `out` bytes of a sponge, of one output block. -/
def sponge (rate dom out : Nat) (m : List Byte) : List Byte :=
  let bs := padded rate dom m
  ((((chunks rate (bs.length / rate) bs).foldl absorb (List.replicate 25 0)).take 17).flatMap (leBytes 8)).take out

end Sys2Proof.Machine.Keccak

namespace Sys2Proof.Machine

/-- SHAKE256 with `n` bytes of output, at most 136. -/
def shake (n : Nat) (m : List Byte) : List Byte := Keccak.sponge 136 0x1F n m

/-- SHAKE256 with a 64-byte output. -/
def shake256 (m : List Byte) : List Byte := shake 64 m

/-- SHA3-512. -/
def sha3 (m : List Byte) : List Byte := Keccak.sponge 72 0x06 64 m

/-- The KEYID of a 57-byte key given as a number (R299). -/
def keyId (key : Nat) : Nat := leNat ((shake256 (leBytes 57 key)).take 8)

end Sys2Proof.Machine
end

