-- ==== Sys2Proof/Machine/Ed448.lean ====
section
/-!
DEFINITION. Verification of Ed448 signatures (RFC 8032, which R299, R434 and R571 name): the field, the curve and the check. The spec
names the RFC and leaves its content there (assumption 73, PRESUMED).
-/
namespace Sys2Proof.Machine.Ed448

/-- The field's prime, the group's order, and d modulo the prime for d = −39081. -/
def prime : Nat := 2 ^ 448 - 2 ^ 224 - 1
def order : Nat := 2 ^ 446 - 13818066809895115352007386748515426880336692474882178609894547503885
def curveD : Nat := prime - 39081

/-- A number handed on once it is known: what follows works on its value. -/
def after {α : Type} (n : Nat) (next : Nat → α) : α :=
  match n with
  | 0 => next 0
  | m + 1 => next (m + 1)

/-- Product and difference in the field. -/
def mul (a b : Nat) : Nat := a * b % prime
def sub (a b : Nat) : Nat := (a + (prime - b)) % prime

/-- The bits of a number, the leading one first, from a given count. -/
def bitsDown : Nat → Nat → List Bool
  | 0, _ => []
  | w + 1, n => n.testBit w :: bitsDown w n

/-- A power in the field, the exponent given by its bits. -/
def pow (a : Nat) (es : List Bool) : Nat :=
  es.foldl (fun r e => after (mul r r) (fun q => if e then mul q a else q)) 1

/-- A point in projective coordinates. -/
structure Point where
  x : Nat
  y : Nat
  z : Nat
  deriving DecidableEq, Repr

/-- The neutral point and the base point. -/
def neutral : Point := ⟨0, 1, 1⟩
def base : Point :=
  ⟨224580040295924300187604334099896036246789641632564134246125461686950415467406032909029192869357953282578032075146446173674602635247710,
   298819210078481492676017930443930673437544040154080242095928241372331506189835876003536878655418784733982303233503462500531545062832660,
   1⟩

/-- The sum of two points; the law is complete, so it doubles too. -/
def Point.add (p q : Point) : Point :=
  after (mul p.z q.z) fun a => after (mul p.x q.x) fun c => after (mul p.y q.y) fun d =>
  after (mul a a) fun b => after (mul curveD (mul c d)) fun e =>
  after (sub b e) fun f => after ((b + e) % prime) fun g =>
  after (sub (sub (mul (p.x + p.y) (q.x + q.y)) c) d) fun h =>
  after (mul a (mul f h)) fun x => after (mul a (mul g (sub d c))) fun y => after (mul f g) fun z => ⟨x, y, z⟩

/-- A multiple of a point, the factor given by its bits. -/
def Point.times (p : Point) (ns : List Bool) : Point :=
  ns.foldl (fun r n => let q := r.add r; if n then q.add p else q) neutral

/-- Whether two points are one. -/
def Point.same (p q : Point) : Bool := mul p.x q.z == mul q.x p.z && mul p.y q.z == mul q.y p.z

/-- The point that 57 bytes, as a number, encode: y, and in the top bit the parity of x. -/
def decodePoint (n : Nat) : Option Point :=
  let y := n % 2 ^ 455
  let odd := n / 2 ^ 455 % 2
  after (mul y y) fun yy => after (sub yy 1) fun u => after (sub (mul curveD yy) 1) fun v =>
  after (mul u (mul u u)) fun u3 => after (mul u3 v) fun w =>
  after (mul w (pow (mul w (mul u (mul u (mul v v)))) (bitsDown 446 ((prime - 3) / 4)))) fun x =>
  if prime ≤ y ∨ mul v (mul x x) ≠ u ∨ (x = 0 ∧ odd = 1) then none
  else some ⟨if x % 2 = odd then x else prime - x, y, 1⟩

/-- The ASCII bytes of a string. -/
def ascii (t : String) : List Byte := t.toList.map (fun c => BitVec.ofNat 8 c.toNat)

/-- Whether a 114-byte signature of a message verifies under a key, 57 bytes as a number, and a context string. -/
def verify (key : Nat) (context : String) (msg sig : List Byte) : Bool :=
  let c := ascii context
  let s := leNat ((sig.drop 57).take 57)
  match decodePoint key, decodePoint (leNat (sig.take 57)) with
  | some a, some r =>
    decide (sig.length = 114) && decide (s < order)
      && after (leNat (shake 114 (ascii "SigEd448" ++ [0, BitVec.ofNat 8 c.length] ++ c ++ sig.take 57 ++ leBytes 57 key ++ msg)) % order) fun k =>
        let four (p : Point) : Point := p.times [true, false, false]
        (four (base.times (bitsDown 446 s))).same (four (r.add (a.times (bitsDown 446 k))))
  | _, _ => false

/-- The 57 bytes that encode a point, as a number. -/
def Point.encode (p : Point) : Nat :=
  after (pow p.z (bitsDown 448 (prime - 2))) fun i => after (mul p.x i) fun x => after (mul p.y i) fun y => y + x % 2 * 2 ^ 455

/-- The public key of a 57-byte secret key, as a number of 57 bytes. -/
def publicKey (secret : List Byte) : Nat :=
  let n := leNat (shake 114 secret)
  (base.times (bitsDown 448 (n % 2 ^ 447 / 4 * 4 + 2 ^ 447))).encode

end Sys2Proof.Machine.Ed448
end

