-- ==== Sys2Proof/Machine/Log.lean ====
section
/-!
DEFINITION. The fault log and its CPER records (R463 to R466).
-/
namespace Sys2Proof.Machine

/-- What the Fenram section of a record says of the fault (R466). The chain count, step, stream and plan are filled in when
it is written, unless it carries its own. -/
structure LogRec where
  kind : Nat
  cls : Nat := 0
  event : Nat := 0
  severity : Nat := 0
  flags : Nat := 0
  chain : Nat := 0
  step : Nat := 0
  stream : Nat := 0
  pcore : Nat := 0
  lcore : Nat := 0xFFFF
  capslot : Nat := 0x1FFFF
  fpc : Nat := 0
  addr : Nat := 0
  expect : Nat := 0
  found : Nat := 0
  row : Nat := 0
  total : Bool := false
  result : Nat := 0
  operand : Nat := 0
  tol : Nat := 0
  planId : Nat := 0
  bushel : Nat := 0
  test : Nat := 0
  deriving DecidableEq, Repr

/-- Creator ID, notification type and section type GUIDs in UEFI byte order (R464, R465). -/
def guidCreator : List Byte := [0x14, 0x6E, 0x8F, 0x2B, 0x3A, 0x9C, 0x05, 0x4D, 0xB7, 0xE1, 0xF0, 0x4A, 0x6C, 0x2D, 0x99, 0x35]
def guidNotify : List Byte := [0xA2, 0xB7, 0xE0, 0xC4, 0x19, 0x5D, 0x63, 0x4F, 0x8B, 0x0E, 0x6A, 0x92, 0xD1, 0xF3, 0xC7, 0x08]
def guidSection : List Byte := [0x55, 0x3C, 0x1D, 0x7A, 0x94, 0x0E, 0x2F, 0x4B, 0xA6, 0xC8, 0x33, 0xD0, 0xF5, 0x1E, 0x9B, 0x27]

/-- A security record: of what R466 lays out, all that does not apply is zero (R577). -/
def LogRec.security (kind event severity : Nat) : LogRec := { kind := kind, event := event, severity := severity, lcore := 0, capslot := 0 }

/-- Zero bytes. -/
def zeros (n : Nat) : List Byte := List.replicate n 0

/-- The Fenram section of a record (R466). -/
def LogRec.body (r : LogRec) : List Byte :=
  leBytes 2 1 ++ leBytes 1 r.kind ++ leBytes 1 r.cls ++ leBytes 2 r.event ++ zeros 2
    ++ leBytes 8 r.chain ++ leBytes 5 r.step ++ zeros 1 ++ leBytes 2 r.stream
    ++ leBytes 4 r.pcore ++ leBytes 2 r.lcore ++ zeros 2 ++ leBytes 4 r.capslot ++ leBytes 4 r.fpc
    ++ leBytes 8 r.addr ++ leBytes 8 r.expect ++ leBytes 8 r.found
    ++ leBytes 1 r.row ++ leBytes 1 (b2n r.total) ++ zeros 2
    ++ leBytes 4 r.result ++ leBytes 4 r.operand ++ leBytes 4 r.tol
    ++ leBytes 8 r.planId ++ leBytes 4 r.bushel ++ leBytes 2 r.test ++ zeros 162

/-- The 456 bytes of a record of a die with a sequence number (R464, R465), and the zeros that fill its slot. -/
def LogRec.bytes (r : LogRec) (die seq : Nat) : List Byte :=
  [0x43, 0x50, 0x45, 0x52] ++ leBytes 2 0x0101 ++ leBytes 4 0xFFFFFFFF ++ leBytes 2 1 ++ leBytes 4 r.severity
    ++ leBytes 4 1 ++ leBytes 4 456 ++ zeros 8 ++ leBytes 8 Config.serial.toNat ++ zeros 24
    ++ guidCreator ++ guidNotify ++ leBytes 7 seq ++ leBytes 1 die ++ leBytes 4 r.flags ++ zeros 20
    ++ leBytes 4 200 ++ leBytes 4 256 ++ leBytes 2 0x0100 ++ zeros 2 ++ leBytes 4 1 ++ guidSection ++ zeros 16
    ++ leBytes 4 r.severity ++ zeros 20 ++ r.body ++ zeros 56

/-- Writes a record into the log of a die: the next free slot, or the event when all 32 are unread (R463). -/
def Dev.logRecord (s : Dev) (die : Nat) (r : LogRec) : Dev :=
  let n := s.fld Fld.CHK_LOGSTAT_COUNT die
  if 32 ≤ n then s.raise die Ev.CHK_LOGLOST
  else
    let slot := (s.fld Fld.CHK_LOGSTAT_HEAD die + n) % 32
    let seq := SMap.read 0 s.ctl.logSeq die
    let ws := (chunks 8 64 (r.bytes die seq)).map leNat
    let s := s.each ws.zipIdx (fun w s => s.setReg .CHK_LOG (dieIdx .CHK_LOG die (64 * slot + w.2)) w.1)
    let s := { s with ctl := { s.ctl with logSeq := SMap.write 0 s.ctl.logSeq die ((seq + 1) % 2 ^ 56) } }
    s.setFld Fld.CHK_LOGSTAT_COUNT die (n + 1)

/-- The chain count, step, stream and plan a record made now carries. -/
def Dev.stamp (s : Dev) (p : Nat) (r : LogRec) : LogRec :=
  { r with
    chain := s.chainCount
    step := s.fld Fld.STEP_CTR_STEP p
    stream := s.fld Fld.STEP_STREAM_STREAM p
    planId := s.reg .PLAN_ID p }

/-- The physical ID of the slot that serves a logical core. -/
def Dev.physSlot (s : Dev) (c : Nat) : Nat := slotId (coreDie c) (coreCluster c) (s.slotOf c)

end Sys2Proof.Machine
end

