-- ==== Sys2Proof/Machine/Router.lean ====
section
/-!
DEFINITION. The router (R362 to R366) and the sending side of the fabric link: looking a packet up, dropping it, handing
it to an output port, and what a delivery is.
-/
namespace Sys2Proof.Machine

/-- Whether a slice is enabled in FAB_PSL of a port; slice 0 never is (R364). -/
def Dev.permitted (s : Dev) (port slice : Nat) : Bool :=
  let r := s.reg .FAB_PSL port
  decide (slice ≠ 0) && (List.range 4).any (fun n => r.testBit (32 + n) && bits r (8 * n + 7) (8 * n) == slice)

/-- Why a packet is dropped (R364, R361). -/
inductive DropWhy where
  | slice | noroute | stall
  deriving DecidableEq, Repr

/-- Counts `n` drops at an input: a port 0 to 35, or 36 + d for injection on die d, and raises the event (R364, R386). -/
def Dev.drop (s : Dev) (input : Nat) (why : DropWhy) (n : Nat) : Dev :=
  let k : RegKind := if input < 36 then .FAB_PORT_DROP else .FAB_INJDROP
  let i := if input < 36 then input else input - 36
  let die := if input < 36 then input / 6 else input - 36
  let lo := match why with
    | .slice => 0
    | .noroute => 16
    | .stall => 32
  let s := s.countLink ⟨k, lo, 16⟩ ⟨k, 48 + lo / 16, 1⟩ i n
  match why with
  | .slice => s.raiseN die Ev.FAB_SLICE n
  | .noroute => s.raiseN die Ev.FAB_NOROUTE n
  | .stall => s.raiseN die Ev.FAB_STALL n

/-- Receive buffer of a fabric VC in flits (R359). -/
def vcBuffer (vc : Nat) : Nat := if vc < 2 then 7680 else 512

/-- Sends a LINK flit: credits owed on the four VCs, NAK, and the last accepted SEQ (R350, R353, R360). -/
def Dev.fabLinkFlit (s : Dev) (port : Nat) (nak : Bool) : Dev :=
  let f := s.fabPort port
  let cr := (List.range 4).map (fun v => SMap.read 0 f.link.owed v)
  (s.setFab port { f with link := { f.link with owed := [] } }).emit (.fabLink port cr nak f.link.lastSeq)

/-- 256 flit times of 0.53125 ns, in units of 0.25 ns. -/
def linkPeriod : Nat := 544

/-- Moves model time on to a time; every 256 flit times on the way each fabric port that is UP sends a LINK flit (R358). -/
def Dev.reach (s : Dev) (t : Int) : Dev :=
  let u := max s.now t.toNat
  let s := s.each (List.range (u / linkPeriod - s.now / linkPeriod)) (fun _ s =>
    let s := { s with now := (s.now / linkPeriod + 1) * linkPeriod }
    s.each ((List.range 36).filter (fun q => s.fld Fld.FAB_PORT_STAT_LINK q == 2)) (fun q s => s.fabLinkFlit q false))
  { s with now := u }

/-- Frees buffer of an input VC, owing the credits back; 256 or more owed are returned at once (R360). Injection has no
buffer of the link. -/
def Dev.freeBuf (s : Dev) (input vc flits : Nat) : Dev :=
  if 36 ≤ input then s
  else
    let f := s.fabPort input
    let o := SMap.read 0 f.link.owed vc + flits
    let s := s.setFab input { f with link := { f.link with owed := SMap.write 0 f.link.owed vc o } }
    if 256 ≤ o then s.fabLinkFlit input false else s

/-- The training generation of an input; injection has none. -/
def Dev.inputGen (s : Dev) (input : Nat) : Nat := if input < 36 then s.fld Fld.FAB_PORT_STAT_GEN input else 0

/-- Frees the buffer of a packet that leaves a queue; a link trained anew since owes nothing for it, for its credits are whole (R357, R360). -/
def Dev.freeQueued (s : Dev) (q : Queued Packet) : Dev :=
  if q.gen = s.inputGen q.input then s.freeBuf q.input q.pkt.vc q.pkt.flits else s

/-- Hands a packet to an output port on a VC (R364). -/
def Dev.enqueue (s : Dev) (port vc input : Nat) (p : Packet) : Dev :=
  let f := s.fabPort port
  s.setFab port { f with link := { f.link with queue := f.link.queue ++ [⟨vc, input, p, s.inputGen input, false⟩] } }

/-- A delivery to a partition's collective logic or memory, on a die. -/
structure Delivery where
  part : Nat
  die : Nat
  pkt : Packet
  deriving DecidableEq, Repr

/-- The die where a packet enters: the port's, or the injecting one (R363). -/
def inputDie (input : Nat) : Nat := if input < 36 then input / 6 else input - 36

/-- A route entry as it reads: of an entry that a section has loaded, BLOCKED follows the plan state of its port (R363, R384); one that none has
loaded keeps its reset value (DESIGN CHOICE, assumption 83). -/
def Dev.routeReg (s : Dev) (d r : Nat) : Nat :=
  let x := s.reg .FAB_RT (d * 65536 + r)
  putBits x 24 1 (b2n (bits x 23 16 != 0 && !x.testBit 1 && s.fld Fld.FAB_PORT_STAT_PLAN (bits x 7 2) != 1))

/-- Looks an accepted packet up and drops, delivers or forwards it (R364). A packet dropped or delivered leaves its
buffer at once. Messages leave on VC2 and scope tiles on VC3, whatever VC the entry names (R394, R403). A packet whose way to its output port
or to its destination tile crosses a bridge that is down has no route (R22, R24; DESIGN CHOICE, assumption 74). -/
def Dev.routePkt (s : Dev) (input : Nat) (p : Packet) : Dev × Option Delivery :=
  let d := inputDie input
  let part := s.partOf d
  let r := s.routeReg d p.route
  let done (s : Dev) : Dev := s.freeBuf input p.vc p.flits
  let vcOut := if p.tile.isNone then 2 else if leNat ((p.area.drop 14).take 2) = 0xFFFF then 3 else bits r 9 8
  let port := bits r 7 2
  if input < 36 ∧ s.fld Fld.FAB_PORT_STAT_PLAN input ≠ 1 then (done (s.drop input .noroute 1), none)
  else if input < 36 ∧ !s.permitted input p.slice then (done (s.drop input .slice 1), none)
  else if !r.testBit 0 || r.testBit 24 then (done (s.drop input .noroute 1), none)
  else if bits r 23 16 ≠ p.slice then (done (s.drop input .slice 1), none)
  else if r.testBit 1 then
    if p.slice ≠ s.fld Fld.FAB_PARTSLICE_SLICE part ∨ p.slice = 0 then (done (s.drop input .slice 1), none)
    else if p.tile.isSome ∧ !s.payloadTile part p.dst then (done (s.drop input .slice 1), none)
    else if p.tile.isSome ∧ !s.reaches d (addrDie p.dst) then (done (s.drop input .noroute 1), none)
    else (done s, some ⟨part, d, p⟩)
  else if !s.permitted port p.slice then (done (s.drop input .slice 1), none)
  else if !s.reaches d (port / 6) then (done (s.drop input .noroute 1), none)
  else (s.enqueue port vcOut input p, none)

/-- The SELF of a partition's FABRIC section (R362). -/
def Dev.selfPod (s : Dev) (part : Nat) : Nat :=
  match (s.part part).plan with
  | some pl => pl.fabric.self
  | none => 0

/-- A packet as the partition injects it: its slice and SRC are the TX4's own (R362). -/
def Dev.packet (s : Dev) (part route vc dst : Nat) (area : List Byte) (tile : Option (List Byte)) : Packet :=
  { route := route, slice := s.fld Fld.FAB_PARTSLICE_SLICE part, vc := vc, src := s.selfPod part, dst := dst, area := area, tile := tile }

/-- Injects a packet on a die; a partition with a fenced die sends nothing (R411). -/
def Dev.inject (s : Dev) (die : Nat) (p : Packet) : Dev × Option Delivery :=
  if (s.diesOf (s.partOf die)).any s.fenced then (s, none) else s.routePkt (36 + die) p

end Sys2Proof.Machine
end

