-- ==== Sys2Proof/Machine/Collective.lean ====
section
/-!
DEFINITION. The collective logic (R387 to R402): verdicts and retraction, messages, receipt of tiles, provisional records and poison.
-/
namespace Sys2Proof.Machine

/-- The GROUPS section of a partition's plan; empty while none is loaded. -/
def Dev.groups (s : Dev) (p : Nat) : Groups :=
  match (s.part p).plan with
  | some pl => pl.groups
  | none => {}

/-- A group record and its index. -/
def Groups.find (g : Groups) (gid : Nat) : Option (Nat × GroupRec) :=
  (g.groups.zipIdx.find? (fun x => x.1.gid == gid)).map (fun x => (x.2, x.1))

/-- The partition's step number (R330). -/
def Dev.step (s : Dev) (p : Nat) : Nat := s.fld Fld.STEP_CTR_STEP p

/-- A message area, bytes 24 to 63 of a HEAD (R394). -/
def messageArea (mtype part group rank step first last scope : Nat) : List Byte :=
  leBytes 1 mtype ++ leBytes 1 part ++ leBytes 2 group ++ leBytes 2 rank ++ [0, 0] ++ leBytes 5 step ++ [0, 0, 0]
    ++ leBytes 4 first ++ leBytes 4 last ++ leBytes 4 scope ++ List.replicate 12 0

/-- The area of a tile packet: its scruple and the sender fields (R393). -/
def senderArea (scr step part : Nat) (poison : Bool) (group phase rank seq scope : Nat) : List Byte :=
  leBytes 8 scr ++ leBytes 5 step ++ leBytes 1 (part + 128 * b2n poison) ++ leBytes 2 group ++ leBytes 2 phase
    ++ leBytes 2 rank ++ leBytes 4 seq ++ leBytes 4 scope ++ List.replicate 12 0

/-- A field of `n` bytes at byte `b` of a HEAD, from its area. -/
def areaNum (area : List Byte) (b n : Nat) : Nat := leNat ((area.drop (b - 24)).take n)

/-! ### Retraction (R400) -/

/-- The RETRACTs of a partition: one for each group it sent tiles in, to every member with a message route; the event
once for each such group, and RETRACTED. Nothing when it has already retracted in the step. -/
def Dev.retract (s : Dev) (p : Nat) : Dev × List (Nat × Packet) :=
  if s.flag Fld.GRP_STAT_RETRACTED p then (s, [])
  else
    let g := s.groups p
    let sent := g.groups.zipIdx.filter (fun x => SMap.read 0 (s.part p).seqs x.2 ≠ 0)
    let msgs := sent.flatMap (fun x =>
      let last := SMap.read 0 (s.part p).seqs x.2 - 1
      let area := messageArea 1 p x.1.gid x.1.rank (s.step p) 0 last g.scopeId
      (x.1.members.filter (fun m => m.2.2.2 ≠ 0xFFFF)).map (fun m => (p, s.packet p m.2.2.2 2 0 area none)))
    ((s.setFld Fld.GRP_STAT_RETRACTED p 1).raiseN p Ev.COLL_RETRACT sent.length, msgs)

/-- Marks a partition's verdict unclean with its first cause, the lowest code of those that arise at one instant (assumption 25); the Bool
says that it became unclean (R324). -/
def Dev.markUnclean (s : Dev) (p code : Nat) : Dev × Bool :=
  let x := s.part p
  if s.flag Fld.STEP_STAT_UNCLEAN p then
    (if x.causeAt = s.now ∧ code < s.fld Fld.STEP_STAT_CAUSE p then s.setFld Fld.STEP_STAT_CAUSE p code else s, false)
  else (((s.setFld Fld.STEP_STAT_UNCLEAN p 1).setFld Fld.STEP_STAT_CAUSE p code).setPart p { x with causeAt := s.now }, true)

/-- Whether the step in progress has reached its flip beat (R400, R402). -/
def Dev.flipped (s : Dev) (p : Nat) : Bool :=
  (s.part p).holding || decide (BitVec.ofNat 64 s.chainCount = (s.part p).flip)

/-- Poisons a partition, before its flip beat: POISON, the event, and an unclean verdict whatever its vote (R400, R401). -/
def Dev.poison (s : Dev) (p : Nat) : Dev × List (Nat × Packet) :=
  if !(s.part p).stepping || s.flipped p || s.flag Fld.GRP_STAT_POISON p then (s, [])
  else
    let s := (s.setFld Fld.GRP_STAT_POISON p 1).raise p Ev.COLL_POISON
    (s.markUnclean p Ev.COLL_POISON).1.retract p

/-! ### Messages (R394, R401, R409) -/

/-- Whether the sender fields name a member: its group record, rank, pod index and partition (R395). -/
def GroupRec.isMember (r : GroupRec) (rank src part : Nat) : Bool :=
  match r.members[rank]? with
  | some m => decide (rank < r.size) && decide (m.2.1 = src) && decide (m.2.2.1 = part)
  | none => false

/-- Applies a RETRACT of SEQ `first` to `last` from a sender; says whether it poisons the partition (R401). -/
def Part.retracted (x : Part) (ovf : Bool) (group rank first last : Nat) : Part × Bool :=
  let recs := x.recs.map (fun r =>
    if r.group = group ∧ r.rank = rank ∧ first ≤ r.seq ∧ r.seq ≤ last then { r with retracted := true } else r)
  let hit := x.usedSeqs.any (fun u => u.group == group && u.rank == rank && decide (u.first ≤ last) && decide (first ≤ u.last))
  let rg : SeqRange := ⟨group, rank, first, last⟩
  ({ x with recs := recs, ranges := if x.ranges.contains rg then x.ranges else x.ranges ++ [rg] }, hit || ovf)

/-- A delivered message: its effect and the messages it causes. -/
def Dev.applyMessage (s : Dev) (d : Delivery) : Dev × List (Nat × Packet) :=
  let p := d.part
  let a := d.pkt.area
  let group := areaNum a 26 2
  let rank := areaNum a 28 2
  let g := s.groups p
  match areaNum a 24 1 with
  | 1 =>
    if areaNum a 48 4 ≠ g.scopeId then (s.raise d.die Ev.COLL_FOREIGN, [])
    else match g.find group with
      | none => (s.raise d.die Ev.COLL_FOREIGN, [])
      | some (_, r) =>
        if !r.isMember rank d.pkt.src (areaNum a 25 1 % 8) then (s.raise d.die Ev.COLL_FOREIGN, [])
        else if !(s.part p).stepping ∨ areaNum a 32 5 ≠ s.step p ∨ s.flipped p then (s.raise d.die Ev.COLL_STALE, [])
        else
          let x := (s.part p).retracted (s.flag Fld.GRP_STAT_PROVOVF p) group rank (areaNum a 40 4) (areaNum a 44 4)
          let s := s.setPart p x.1
          if x.2 then s.poison p else (s, [])
  | 2 =>
    match g.find group with
    | none => (s.raise d.die Ev.COLL_FOREIGN, [])
    | some (_, r) =>
      if r.rank ≠ 0 then (s.raise d.die Ev.COLL_FOREIGN, [])
      else
        let x := s.part p
        (s.setPart p { x with degReceived := if x.degReceived.contains group then x.degReceived else x.degReceived ++ [group] }, [])
  | _ => (s.raise d.die Ev.COLL_FOREIGN, [])

/-- Injects messages, each on its die, applying at once those delivered on this device; the fuel bounds how often a local
delivery may cause further messages (a partition retracts once in a step). -/
def Dev.sendMessages : Nat → Dev → List (Nat × Packet) → Dev
  | 0, s, _ => s
  | fuel + 1, s, ms =>
    let r := ms.foldl (fun (acc : Dev × List (Nat × Packet)) m =>
      let i := acc.1.inject m.1 m.2
      match i.2 with
      | none => (i.1, acc.2)
      | some d => let a := i.1.applyMessage d; (a.1, acc.2 ++ a.2)) (s, [])
    if r.2.isEmpty then r.1 else Dev.sendMessages fuel r.1 r.2

/-- Makes a partition's verdict unclean, unless no step is in progress or its vote has fired (R324, R325), and retracts
its sends (R400). -/
def Dev.unclean (s : Dev) (p code : Nat) : Dev :=
  let x := s.part p
  if !x.stepping || x.voteFired then s
  else
    let m := s.markUnclean p code
    if m.2 then
      let r := m.1.retract p
      Dev.sendMessages 8 r.1 r.2
    else m.1

/-- Handles a message delivered to a partition. -/
def Dev.message (s : Dev) (d : Delivery) : Dev :=
  let a := s.applyMessage d
  Dev.sendMessages 8 a.1 a.2

/-- Raises the event of a failed use of the tile at `a` on a die with its record; `core` and `fpc` name the user, when it is a core, and
`expect` and `found` are the scruples expected and computed (R447, R463). A record that concerns no slot reports PCORE 0 (DESIGN CHOICE,
assumption 70). -/
def Dev.useFailedAs (s : Dev) (p die code : Nat) (core : Option Nat) (fpc a expect found : Nat) : Dev :=
  let r : LogRec :=
    { kind := if code = Ev.TILE_CHECK then 3 else 4, event := code, severity := 2, fpc := fpc, addr := a / tileSize * tileSize
      expect := expect, found := found
      pcore := (match core with
        | some c => s.physSlot c
        | none => 0)
      lcore := core.getD 0xFFFF }
  ((s.raise die code).logRecord die (s.stamp p r)).unclean p code

/-! ### Tiles (R395 to R397) -/

/-- Notes the use of the tile at an address: a collective tile counts as used from its first use, and a retracted one
poisons the partition (R396, R401, R446). -/
def Dev.useRecord (s : Dev) (p a : Nat) : Dev :=
  let x := s.part p
  let t := a / tileSize * tileSize
  let hit := x.recs.filter (fun r => r.addr == t && !r.used)
  if hit.isEmpty then s
  else
    let recs := x.recs.map (fun r => if r.addr = t then { r with used := true } else r)
    let us := hit.foldl (fun us r =>
      match us.find? (fun (u : SeqRange) => u.group == r.group && u.rank == r.rank) with
      | none => us ++ [⟨r.group, r.rank, r.seq, r.seq⟩]
      | some _ => us.map (fun u => if u.group = r.group ∧ u.rank = r.rank
          then { u with first := min u.first r.seq, last := max u.last r.seq } else u)) x.usedSeqs
    let s := s.setPart p { x with recs := recs, usedSeqs := us }
    if hit.any (fun r => r.retracted) then
      let r := s.poison p
      Dev.sendMessages 8 r.1 r.2
    else s

/-- Provisional records one die keeps (R396). -/
def provMax : Nat := 1048576

/-- Counts an accepted tile towards its phase and gives it a record (R395 to R397, R401). -/
def Dev.accept (s : Dev) (d : Delivery) (gi : Nat) (g : GroupRec) (phase rank seq : Nat) (poison : Bool) : Dev :=
  let p := d.part
  let x := s.part p
  let key := gi * 4096 + phase
  let n := SMap.read 0 x.counts key + 1
  let retr := poison || x.ranges.any (fun r => r.group == g.gid && r.rank == rank && decide (r.first ≤ seq) && decide (seq ≤ r.last))
  let full := provMax ≤ (x.recs.filter (fun r => r.die == d.die)).length
  let recs := if full then x.recs else x.recs ++ [⟨d.die, g.gid, rank, seq, d.pkt.dst, false, retr⟩]
  let exc := decide (g.expects.getD phase 0 < n) && !x.excess.contains key
  let s := s.setPart p { x with counts := SMap.write 0 x.counts key n, recs := recs, excess := if exc then x.excess ++ [key] else x.excess }
  let s := s.setFld Fld.GRP_G_RCOUNT (dieIdx .GRP_G p gi) (s.fld Fld.GRP_G_RCOUNT (dieIdx .GRP_G p gi) + 1)
  let s := s.perf .GRP_PC_ACCEPT p p 1
  let s := if full && !s.flag Fld.GRP_STAT_PROVOVF p then (s.setFld Fld.GRP_STAT_PROVOVF p 1).raise d.die Ev.COLL_PROVOVF else s
  if exc then (s.raise d.die Ev.COLL_EXCESS).unclean p Ev.COLL_EXCESS else s

/-- A tile discarded by the collective logic (R395, R413). -/
def Dev.rejectTile (s : Dev) (d : Delivery) (code : Nat) : Dev := (s.perf .GRP_PC_REJECT d.part d.part 1).raise d.die code

end Sys2Proof.Machine
end

