-- ==== Sys2Proof/Machine/Scope.lean ====
section
/-!
DEFINITION. The scope's votes, decisions and drain reports (R403 to R407), what becomes of a delivered packet (R365, R395), and degraded
groups (R408 to R410).
-/
namespace Sys2Proof.Machine

/-! ### Votes (R403 to R407) -/

/-- The request map of a partition (R177): bit n is monitor n's REQ. -/
def Dev.reqMap (s : Dev) (p : Nat) : Nat :=
  ofBits ((List.range 1024).filter (fun n => s.flag Fld.FMT_MON_STATE_REQ (dieIdx .FMT_MON_STATE p n)))

/-- The body of a scope tile (R403). -/
def Vote.tile (v : Vote) (type : Nat) : List Byte :=
  leBytes 1 type ++ leBytes 1 (b2n v.clean + 2 * b2n v.complete + 4 * b2n v.split + 8 * b2n v.drain) ++ leBytes 1 v.round ++ [0]
    ++ leBytes 2 v.count ++ leBytes 2 v.cause ++ leBytes 4 v.digest ++ List.replicate 4 0 ++ leBytes 128 v.reqmap
    ++ leBytes 2 v.deg.length ++ List.replicate 110 0
    ++ (v.deg ++ List.replicate (1024 - v.deg.length) 0).flatMap (leBytes 2) ++ List.replicate 1792 0

/-- The fields of a scope tile's body. -/
def Vote.ofTile (t : List Byte) : Vote :=
  let b := leNat ((t.drop 1).take 1)
  let num (o n : Nat) : Nat := leNat ((t.drop o).take n)
  { clean := b.testBit 0, complete := b.testBit 1, split := b.testBit 2, drain := b.testBit 3, round := num 2 1, count := num 4 2
    cause := num 6 2, digest := num 8 4, reqmap := num 16 128, deg := (List.range (min 1024 (num 144 2))).map (fun i => num (256 + 2 * i) 2) }

/-- A DEG list: ascending, each group once, at most 1,024 entries (R403); of a longer union the lowest stay (DESIGN CHOICE, assumption 83). -/
def degList (gs : List Nat) : List Nat := (sortRising (· ≤ ·) gs).eraseReps.take 1024

/-- The groups a partition reports degraded in its VOTE: its locally degraded ones, and those a DEGRADE named to it as
rank 0, ascending (R409). -/
def Dev.degReport (s : Dev) (p : Nat) : List Nat :=
  let g := s.groups p
  let loc := (g.groups.zipIdx.filter (fun x => s.flag Fld.GRP_G_LDEG (dieIdx .GRP_G p x.2))).map (fun x => x.1.gid)
  degList (loc ++ (s.part p).degReceived)

/-- A partition's own part of its VOTE as its registers stand (R404). -/
def Dev.ownVote (s : Dev) (p : Nat) (fired : Bool) : Vote :=
  { clean := fired && !s.flag Fld.STEP_STAT_UNCLEAN p, complete := fired, count := b2n fired, cause := s.fld Fld.STEP_STAT_CAUSE p
    digest := s.fld Fld.FMT_STAT_DIGEST p, reqmap := s.reqMap p, drain := decide (s.fld Fld.CTX_DSTAT_STATE p = 1)
    deg := s.degReport p }

/-- The lower of two causes, 0 standing for none. -/
def minCause (a b : Nat) : Nat := if a = 0 then b else if b = 0 then a else min a b

/-- Combines a child's VOTE into a vote (R404). -/
def Vote.join (v c : Vote) : Vote :=
  { v with
    clean := v.clean && c.clean
    complete := v.complete && c.complete
    count := v.count + c.count
    cause := minCause v.cause c.cause
    split := v.split || c.split || decide (c.digest ≠ v.digest)
    drain := v.drain || c.drain
    reqmap := v.reqmap ||| c.reqmap
    deg := degList (v.deg ++ c.deg) }

/-- The combined VOTE: its own and its children's, a missing child clearing CLEAN and COMPLETE (R404). -/
def Dev.combine (s : Dev) (p : Nat) : Vote :=
  let x := s.part p
  let own := match x.ownVote with
    | some v => v
    | none => s.ownVote p false
  let v := (x.votes.map (fun c => c.2)).foldl Vote.join own
  if x.votes.length < (s.groups p).children.length then { v with clean := false, complete := false } else v

/-- The child of a partition that a scope tile's sender is. -/
def Groups.child (g : Groups) (src part : Nat) : Option Nat := g.children.findIdx? (fun c => c.pod == src && c.part == part)

/-- What an accepted scope tile makes its receiver do next (R404 to R406). -/
inductive ScopeNext where
  | nothing | vote | done
  | decision (v : Vote)
  | allDone (v : Vote)
  deriving DecidableEq, Repr

/-- Receives a scope tile delivered to a partition on a die: source, area, body (R395, R403 to R407). A tile that fails its scruple is a
failed use as well (R403, R446, R447; DEDUCED, assumption 79). A second tile of a type and sender, of the step whose votes the partition
still holds, is a duplicate. -/
def Dev.scopeTake (s : Dev) (d : Delivery) (t : List Byte) : Dev × ScopeNext :=
  let p := d.part
  let a := d.pkt.area
  let g := s.groups p
  let x := s.part p
  let v := Vote.ofTile t
  let scr := areaNum a 24 8
  let sender := areaNum a 37 1 % 8
  let fromParent := !g.root && decide (d.pkt.src = g.parentPod) && decide (sender = g.parentPart)
  let held := decide (x.scopeStep = s.step p)
  if areaNum a 48 4 ≠ g.scopeId then (s.rejectTile d Ev.COLL_FOREIGN, .nothing)
  else if tileScruple t ≠ scr then
    let code := if scr = poisonScruple then Ev.TILE_POISON else Ev.TILE_CHECK
    ((s.useFailedAs p d.die code none 0 d.pkt.dst scr (tileScruple t)).raise d.die Ev.VOTE_BAD, .nothing)
  else if areaNum a 32 5 ≠ s.step p then (s.raise d.die Ev.COLL_STALE, .nothing)
  else match leNat (t.take 1) with
    | 1 =>
      match g.child d.pkt.src sender with
      | none => (s.raise d.die Ev.COLL_FOREIGN, .nothing)
      | some c =>
        if held && x.votes.any (fun y => y.1 == c) then (s, .nothing)
        else if !x.stepping || x.sentUp then (s.raise d.die Ev.VOTE_LATE, .nothing)
        else (s.setPart p { x with votes := x.votes ++ [(c, v)] }, .vote)
    | 2 =>
      if !fromParent then (s.raise d.die Ev.COLL_FOREIGN, .nothing)
      else if held && x.decision.isSome then (s, .nothing)
      else if !x.stepping || x.holding then (s.raise d.die Ev.VOTE_LATE, .nothing)
      else (s, .decision v)
    | 3 =>
      match g.child d.pkt.src sender with
      | none => (s.raise d.die Ev.COLL_FOREIGN, .nothing)
      | some c =>
        if held && x.dones.contains c then (s, .nothing)
        else if !x.stepping then (s.raise d.die Ev.COLL_STALE, .nothing)
        else (s.setPart p { x with dones := x.dones ++ [c] }, .done)
    | 4 =>
      if !fromParent then (s.raise d.die Ev.COLL_FOREIGN, .nothing)
      else if held && x.allDone.isSome then (s, .nothing)
      else if !x.stepping then (s.raise d.die Ev.COLL_STALE, .nothing)
      else (s.setPart p { x with allDone := some v.round }, .allDone v)
    | _ => (s.raise d.die Ev.COLL_FOREIGN, .nothing)

/-- Sends a scope tile on a route to a partition of the receiving device; its DST is the first payload tile of that
partition's lowest die, so that R364 delivers it (DEDUCED, assumption 8). A route that ends on this device delivers it here; the partition
holds what it sends before it sends it, so nothing more follows from its own tile. -/
def Dev.scopeSend (s : Dev) (p route dstPart type : Nat) (v : Vote) : Dev :=
  let t := v.tile type
  let area := senderArea (tileScruple t) (s.step p) p (s.flag Fld.GRP_STAT_RETRACTED p) 0xFFFF 0 0 0 (s.groups p).scopeId
  let r := s.inject p (s.packet p route 3 (4 * dstPart * stackSize) area (some t))
  match r.2 with
  | some d => (r.1.scopeTake d t).1
  | none => r.1

/-- Sends a scope tile up on UPROUTE and UPALT (R404, R406). -/
def Dev.sendUp (s : Dev) (p type : Nat) (v : Vote) : Dev :=
  let g := s.groups p
  let s := s.scopeSend p g.upRoute g.parentPart type v
  if g.upAlt = 0xFFFF then s else s.scopeSend p g.upAlt g.parentPart type v

/-- Sends a scope tile down on every DOWNROUTE and DOWNALT (R405, R406). -/
def Dev.sendDown (s : Dev) (p type : Nat) (v : Vote) : Dev :=
  s.each (s.groups p).children (fun c s =>
    let s := s.scopeSend p c.down c.part type v
    if c.downAlt = 0xFFFF then s else s.scopeSend p c.downAlt c.part type v)

/-- Counts a DECISION at a partition and forwards it (R405). -/
def Dev.countDecision (s : Dev) (p : Nat) (v : Vote) : Dev :=
  let s := s.setPart p { s.part p with decision := some v }
  (s.setFld Fld.GRP_STAT_DECIDED p 1).sendDown p 2 v

/-- Combines and sends a partition's VOTE, or decides at the root (R404, R405). -/
def Dev.sendVote (s : Dev) (p : Nat) : Dev :=
  let g := s.groups p
  let v := s.combine p
  let s := s.setPart p { s.part p with sentUp := true }
  if g.root then s.countDecision p (if v.count = g.total then v else { v with complete := false })
  else s.sendUp p 1 v

/-- Sends as soon as the own vote has fired and every child's VOTE is in (R404). -/
def Dev.tryVote (s : Dev) (p : Nat) : Dev :=
  let x := s.part p
  if !x.sentUp && x.ownVote.isSome && decide (x.votes.length = (s.groups p).children.length) then s.sendVote p else s

/-- The hold round from which an ALLDONE sent on beat `t` counts (R406). -/
def allDoneRound (t settle flip : Word) (holdq holdmax : Nat) : Nat :=
  let d := (t + settle - flip).toInt
  if d ≤ 0 then 0 else min holdmax ((d.toNat + (holdq - 1)) / holdq)

/-- Sends DONE up, or ALLDONE down at the root, once no drain below is pending, with the sender's own digest (R403, R406). -/
def Dev.tryDone (s : Dev) (p : Nat) : Dev :=
  let x := s.part p
  let g := s.groups p
  let own := match x.ownVote with
    | some v => v.drain
    | none => false
  let kids := (x.votes.filter (fun c => c.2.drain)).map (fun c => c.1)
  if !x.stepping || x.sentDone || !(own || !kids.isEmpty) || decide (s.fld Fld.CTX_DSTAT_STATE p = 1)
      || !kids.all (fun c => x.dones.contains c) then s
  else
    let s := s.setPart p { x with sentDone := true }
    if g.root then
      let r := allDoneRound (BitVec.ofNat 64 s.chainCount) (BitVec.ofNat 64 g.settle) x.flip x.holdq x.holdmax
      let s := s.setPart p { s.part p with allDone := some r }
      s.sendDown p 4 { round := r, digest := s.fld Fld.FMT_STAT_DIGEST p }
    else s.sendUp p 3 { digest := s.fld Fld.FMT_STAT_DIGEST p }

/-- Handles a scope tile delivered to a partition on a die. -/
def Dev.scopeTile (s : Dev) (d : Delivery) (t : List Byte) : Dev :=
  let r := s.scopeTake d t
  match r.2 with
  | .nothing => r.1
  | .vote => (r.1.tryVote d.part).tryDone d.part
  | .done => r.1.tryDone d.part
  | .decision v => r.1.countDecision d.part v
  | .allDone v => r.1.sendDown d.part 4 v

/-- A tile delivered to a partition: the tests of R395, the write of R365, and the count and record. -/
def Dev.receiveTile (s : Dev) (d : Delivery) (t : List Byte) : Dev :=
  let p := d.part
  let a := d.pkt.area
  let group := areaNum a 38 2
  let g := s.groups p
  let put (s : Dev) : Dev := s.writeTile d.pkt.dst t (areaNum a 24 8)
  if group = 0xFFFE then put s
  else if group = 0xFFFF then s.scopeTile d t
  else if areaNum a 48 4 ≠ g.scopeId then s.rejectTile d Ev.COLL_FOREIGN
  else match g.find group with
    | none => s.rejectTile d Ev.COLL_FOREIGN
    | some (gi, r) =>
      let rank := areaNum a 42 2
      let phase := areaNum a 40 2 % 4096
      if !r.isMember rank d.pkt.src (areaNum a 37 1 % 8) || decide (r.expects.length ≤ phase) then s.rejectTile d Ev.COLL_FOREIGN
      else if !(s.part p).stepping || decide (areaNum a 32 5 ≠ s.step p) then s.rejectTile d Ev.COLL_STALE
      else (put s).accept d gi r phase rank (areaNum a 44 4) ((areaNum a 37 1).testBit 7)

/-- Handles a delivery: a tile or a message (R365). -/
def Dev.deliver (s : Dev) (d : Delivery) : Dev :=
  match d.pkt.tile with
  | some t => s.receiveTile d t
  | none => s.message d

/-- Routes a packet and handles its delivery. -/
def Dev.route (s : Dev) (input : Nat) (p : Packet) : Dev :=
  let r := s.routePkt input p
  match r.2 with
  | some d => r.1.deliver d
  | none => r.1

/-! ### Degraded groups (R408 to R410) -/

/-- Whether a route is blocked in a partition's table (R384); its lowest die's copy stands for all. -/
def Dev.routeBlocked (s : Dev) (p r : Nat) : Bool := (s.routeReg p r).testBit 24

/-- The transit records whose group is locally degraded now: one of their route IDs is blocked (R408). -/
def Dev.degradedTransits (s : Dev) (p : Nat) : List TransitRec :=
  (s.groups p).transits.filter (fun t => (t.notice :: t.routes).any (s.routeBlocked p))

/-- The transit groups locally degraded now, to compare with after a change. -/
def Dev.transitDegraded (s : Dev) (p : Nat) : List Nat := (s.degradedTransits p).map (fun t => t.gid)

/-- Re-evaluates local degradation of a partition's groups, and sends a DEGRADE for each transit group that just became
locally degraded, or for every one at a step start (R408, R409). -/
def Dev.evalDegraded (s : Dev) (p : Nat) (atStart : Bool) (was : List Nat) : Dev :=
  match (s.part p).plan with
  | none => s
  | some pl =>
    let serial := Config.serial.toNat
    let loc (r : GroupRec) : Bool := r.routes.any (s.routeBlocked p) || ((decide (r.rank ≠ 0) || decide (r.notice ≠ 0xFFFF)) && s.routeBlocked p r.notice)
      || decide ((r.members.getD r.rank (serial, 0, 0, 0)).1 ≠ serial)
    let s1 := s.each pl.groups.groups.zipIdx (fun x s =>
      s.setFld Fld.GRP_G_LDEG (dieIdx .GRP_G p x.2) (b2n (loc x.1)))
    let tr := (s.degradedTransits p).filter (fun t => atStart || !was.contains t.gid)
    Dev.sendMessages 8 s1 (tr.map (fun t => (p, s1.packet p t.notice 2 0 (messageArea 2 p t.gid 0 (s.step p) 0 0 0) none)))

/-- Sets the DEG fields from local degradation and the last DECISION's list, raising the event for each group that
enters (R410). -/
def Dev.updateDegraded (s : Dev) (p : Nat) : Dev :=
  let x := s.part p
  let s := s.each (s.groups p).groups.zipIdx (fun gi s =>
    let i := dieIdx .GRP_G p gi.2
    let deg := s.flag Fld.GRP_G_LDEG i || x.degLast.contains gi.1.gid
    let s1 := if deg && !s.flag Fld.GRP_G_DEG i then s.raise p Ev.GRP_DEGRADED else s
    s1.setFld Fld.GRP_G_DEG i (b2n deg))
  s.setFld Fld.GRP_STAT_NDEG p ((s.groups p).groups.zipIdx.filter (fun gi => s.flag Fld.GRP_G_DEG (dieIdx .GRP_G p gi.2))).length

/-- Local degradation after a change of BLOCKED, with what follows from it at once (R408 to R410). -/
def Dev.redegrade (s : Dev) (p : Nat) (was : List Nat) : Dev := (s.evalDegraded p false was).updateDegraded p

end Sys2Proof.Machine
end

