-- ==== Sys2Proof/Machine/Fabric.lean ====
section
/-!
DEFINITION. The fabric ports (R346 to R386): flits and retry, credits, sending, training and discovery, comparisons and
revisions.
-/
namespace Sys2Proof.Machine

/-- The 68 bytes of a flit. -/
def flitBytes (f : Flit) : List Byte := leBytes 68 f.toNat

/-- A little-endian field of a flit. -/
def flitNum (f : Flit) (b n : Nat) : Nat := f.toNat / 2 ^ (8 * b) % 2 ^ (8 * n)

/-- Whether a control flit passes its CRC (R349). -/
def flitCrcOk (f : Flit) : Bool := crc32 ((flitBytes f).take 64) == flitNum f 64 4

/-! ### Plan states and going down -/

/-- The plan-state codes of FAB_PORTp_STAT.PLAN (R381). -/
def planUnused : Nat := 0
def planMatch : Nat := 1
def planMissing : Nat := 2
def planExtra : Nat := 3
def planWrong : Nat := 4

/-- The fabric ports of a partition's dies. -/
def Dev.portsOf (s : Dev) (p : Nat) : List Nat := (List.range 36).filter (fun q => s.partOf (q / 6) == p)

/-- Counts NMISS and NEXTRA of FAB_STAT anew (R383). -/
def Dev.countPorts (s : Dev) (p : Nat) : Dev :=
  let st (q : Nat) : Nat := s.fld Fld.FAB_PORT_STAT_PLAN q
  let miss := (s.portsOf p).filter (fun q => st q == planMissing || st q == planWrong)
  let extra := (s.portsOf p).filter (fun q => st q == planExtra || st q == planWrong)
  (s.setFld Fld.FAB_STAT_NMISS p miss.length).setFld Fld.FAB_STAT_NEXTRA p extra.length

/-- Sets a port's plan state. -/
def Dev.setPlan (s : Dev) (port st : Nat) : Dev := (s.setFld Fld.FAB_PORT_STAT_PLAN port st).countPorts (s.partOf (port / 6))

/-- Discards everything a port's link holds, owing back the buffers of queued packets. -/
def Dev.dropLink (s : Dev) (port : Nat) : Dev :=
  let f := s.fabPort port
  let s := s.setFab port { f with link := {}, stage := 0, gotDisc := false, gotSeen := false, trips := [] }
  s.each f.link.queue (fun q s => s.freeQueued q)

/-- A port that was MATCH becomes MISSING, with its event when the port went DOWN (R375). -/
def Dev.unmatch (s : Dev) (port : Nat) (event : Bool) : Dev :=
  if s.fld Fld.FAB_PORT_STAT_PLAN port ≠ planMatch then s
  else
    let p := s.partOf (port / 6)
    let was := s.transitDegraded p
    let s := s.setPlan port planMissing
    let s := if event then s.raise (port / 6) Ev.FAB_MISSING else s
    s.redegrade p was

/-- A port is declared DOWN (R357, R375). -/
def Dev.fabDown (s : Dev) (port : Nat) : Dev :=
  let l := (s.fabPort port).link
  let n := l.replay.length + l.queue.length + (l.opened.filter (fun o => o.2.isSome)).length + l.whole.length
  let s := (s.setFld Fld.FAB_PORT_STAT_LINK port 3).setFld Fld.FAB_PORT_STAT_PEERVALID port 0
  let s := (s.dropLink port).countLink Fld.FAB_PORT_DROP_NOROUTE ⟨.FAB_PORT_DROP, 49, 1⟩ port n
  let s := s.raise (port / 6) Ev.FAB_LINK_DOWN
  s.unmatch port true

/-- A port goes DARK by EN = 0 or a power state: no event (R375, R381, R533). -/
def Dev.fabDark (s : Dev) (port : Nat) : Dev :=
  let s := (s.setFld Fld.FAB_PORT_STAT_LINK port 0).setFld Fld.FAB_PORT_STAT_PEERVALID port 0
  (s.dropLink port).unmatch port false

/-! ### Receiving (R353 to R356) -/

/-- The packet a HEAD flit opens (R352). -/
def headPacket (f : Flit) : Packet :=
  { route := flitNum f 8 2, slice := flitNum f 10 1, vc := flitNum f 11 1 % 4, src := flitNum f 13 2 % 4096
    dst := flitNum f 16 8 % 2 ^ 52, area := ((flitBytes f).drop 24).take 40, tile := none }

/-- SEQ after the last accepted one. -/
def Link.expected {π : Type} (l : Link π) : Nat :=
  match l.lastSeq with
  | none => 0
  | some n => (n + 1) % 4096

/-- A link error (R354, R355): counted, everything open discarded, a NAK unless one was sent less than 2 µs ago. -/
def Dev.linkError (s : Dev) (port : Nat) : Dev :=
  let f := s.fabPort port
  let l := f.link
  let s := s.countLink Fld.FAB_PORT_ERR_LERR Fld.FAB_PORT_ERR_LERR_OVF port 1
  if l.discarding && l.nakHeld then s
  else
    let s := s.setFab port { f with link := { l with
      opened := [], whole := [], skipping := [], discarding := true, nakHeld := true, nextHead := l.expected } }
    s.fabLinkFlit port true

/-- A packet received whole. -/
def OpenPkt.packet (o : OpenPkt) : Packet := if o.got.isEmpty then o.head else { o.head with tile := some o.got }

/-- Accepts whole packets in SEQ order (R353). -/
def Link.acceptAll : Nat → Link Packet → List OpenPkt → Link Packet × List OpenPkt
  | 0, l, ps => (l, ps)
  | fuel + 1, l, ps =>
    match l.whole.find? (fun o => o.seq == l.expected) with
    | none => (l, ps)
    | some o =>
      let l' := { l with lastSeq := some o.seq, whole := l.whole.erase o }
      Link.acceptAll fuel l' (ps ++ [o])

/-- Takes a complete packet in, accepting and routing what SEQ order now allows (R353, R364). Of a packet with an illegal NFLIT only its HEAD's
buffer goes back (R352, R360). -/
def Dev.complete (s : Dev) (port : Nat) (o : OpenPkt) : Dev :=
  let f := s.fabPort port
  let r := Link.acceptAll (f.link.whole.length + 1) { f.link with whole := f.link.whole ++ [o] } []
  let s := s.setFab port { f with link := r.1 }
  let s := s.perf .FAB_PORT_PC_RXT port (port / 6) (r.2.filter (fun o => o.packet.tile.isSome)).length
  s.each r.2 (fun o s => if o.bad then s.freeBuf port o.head.vc 1 else s.route port o.packet)

/-- Releases the replay buffer up to an acknowledged SEQ (R356). -/
def Link.acked {π : Type} (l : Link π) (n : Nat) : Link π :=
  match l.replay.findIdx? (fun x => x.seq == n) with
  | none => l
  | some i => { l with replay := l.replay.drop (i + 1), resends := 0 }

/-- The acknowledgement that a control flit carries, unless the flit is discarded (R349, R353, R355). -/
def Dev.fabAck (s : Dev) (port : Nat) (fl : Flit) : Dev :=
  let w := flitNum fl 4 2
  if w.testBit 15 then
    let f := s.fabPort port
    s.setFab port { f with link := f.link.acked (w % 4096) }
  else s

/-- Whether a HEAD with a SEQ may come on a VC: it is the next one, and no packet is open there (R354, R355). -/
def Link.takesHead {π : Type} (l : Link π) (seq vc : Nat) : Bool :=
  decide (seq = if l.discarding then l.expected else l.nextHead) && (SMap.read none l.opened vc).isNone

/-- A HEAD flit that passed its CRC (R352 to R355). -/
def Dev.fabHead (s : Dev) (port : Nat) (fl : Flit) : Dev :=
  let seq := flitNum fl 2 2 % 4096
  let p := headPacket fl
  if !(s.fabPort port).link.takesHead seq p.vc then s.linkError port
  else
    let s := s.fabAck port fl
    let f := s.fabPort port
    let l := { f.link with discarding := false, nakHeld := false, nextHead := (seq + 1) % 4096 }
    match flitNum fl 12 1 % 128 with
    | 0 => (s.setFab port { f with link := l }).complete port ⟨seq, p, [], false⟩
    | 64 => s.setFab port { f with link := { l with opened := SMap.write none l.opened p.vc (some ⟨seq, p, [], false⟩) } }
    | _ =>
      let s := s.setFab port { f with link := { l with skipping := p.vc :: l.skipping } }
      (s.raise (port / 6) Ev.FAB_PROTOCOL).complete port ⟨seq, p, [], true⟩

/-- A data flit (R351, R354). -/
def Dev.fabData (s : Dev) (port : Nat) (fl : Flit) : Dev :=
  let f := s.fabPort port
  let l := f.link
  let b1 := flitNum fl 1 1
  let vc := b1 % 4
  let last := b1.testBit 2
  if l.discarding then s.linkError port
  else if flitNum fl 2 1 ≠ 255 - b1 ∨ 8 ≤ b1 then s.linkError port
  else if l.skipping.contains vc then
    (if last then s.setFab port { f with link := { l with skipping := l.skipping.erase vc } } else s).freeBuf port vc 1
  else match SMap.read none l.opened vc with
    | none => s.linkError port
    | some o =>
      let got := o.got ++ (flitBytes fl).drop 4
      if last != decide (got.length = tileSize) then s.linkError port
      else if last then
        (s.setFab port { f with link := { l with opened := SMap.write none l.opened vc none } }).complete port { o with got := got }
      else s.setFab port { f with link := { l with opened := SMap.write none l.opened vc (some { o with got := got }) } }

/-- Resends everything unreleased; the ninth resend of one HEAD brings the port DOWN (R356, R357). A port that is no longer MATCH resends
nothing (R374). -/
def Dev.fabResend (s : Dev) (port : Nat) : Dev :=
  let f := s.fabPort port
  let l := f.link
  if l.replay.isEmpty || decide (s.fld Fld.FAB_PORT_STAT_PLAN port ≠ planMatch) then s
  else if 8 ≤ l.resends then s.fabDown port
  else
    let s := s.setFab port { f with link := { l with resends := l.resends + 1 } }
    let s := s.countLink Fld.FAB_PORT_ERR_RETRY Fld.FAB_PORT_ERR_RETRY_OVF port l.replay.length
    s.each l.replay (fun x s => s.emit (.fabPacket port x.seq l.lastSeq x.pkt))

/-- Credits a sender may still use on a VC (R360). -/
def Link.credit (l : Link Packet) (vc : Nat) : Nat := SMap.read (vcBuffer vc) l.credits vc

/-- A LINK flit: credits, then a resend on NAK (R350, R356, R360). -/
def Dev.fabLink (s : Dev) (port : Nat) (fl : Flit) : Dev :=
  let f := s.fabPort port
  let cr := (List.range 4).foldl (fun (m : SMap Nat) v =>
    SMap.write (vcBuffer v) m v (SMap.read (vcBuffer v) m v + flitNum fl (8 + 2 * v) 2)) f.link.credits
  let s := s.setFab port { f with link := { f.link with credits := cr } }
  if (flitNum fl 16 1).testBit 0 then s.fabResend port else s

/-! ### Training and discovery (R371 to R375) -/

/-- Starts a training attempt of a DARK, enabled port with signal. -/
def Dev.startTraining (s : Dev) (port : Nat) : Dev :=
  let f := s.fabPort port
  if f.signal && decide (s.fld Fld.FAB_PORT_STAT_LINK port = 0) && s.flag Fld.FAB_PORT_CTL_EN port then
    (s.setFld Fld.FAB_PORT_STAT_LINK port 1).setFab port { f with stage := 1 }
  else s

/-- Sends a DISC flit (R350). -/
def Dev.sendDisc (s : Dev) (port : Nat) (seen : Bool) : Dev :=
  s.emit (.fabDisc port Config.serial.toNat (port / 6) (s.fld Fld.FAB_PORT_STAT_GEN port) seen (s.fabPort port).link.lastSeq)

/-- A DISC flit: records the peer in stage 2; a different peer brings an UP port DOWN (R371, R372). -/
def Dev.fabDisc (s : Dev) (port : Nat) (fl : Flit) : Dev :=
  let f := s.fabPort port
  let serial := flitNum fl 8 8
  let die := flitNum fl 16 1 % 8
  let peer := flitNum fl 17 1 % 64
  let seen := (flitNum fl 18 1).testBit 0
  if s.fld Fld.FAB_PORT_STAT_LINK port = 2 then
    if serial ≠ s.reg .FAB_PORT_PEER port ∨ die ≠ f.peerDie ∨ peer ≠ s.fld Fld.FAB_PORT_STAT_PEERPORT port then s.fabDown port else s
  else if f.stage ≠ 2 then s
  else
    let s := (s.setReg .FAB_PORT_PEER port serial).setFld Fld.FAB_PORT_STAT_PEERPORT port peer
    let s := s.setFab port { f with peerDie := die, gotDisc := true, gotSeen := f.gotSeen || seen }
    let s := s.sendDisc port true
    if f.gotSeen || seen then
      let s := (s.setFld Fld.FAB_PORT_STAT_PEERVALID port 1).setFld Fld.FAB_PORT_STAT_GEN port (s.fld Fld.FAB_PORT_STAT_GEN port + 1)
      (s.setFab port { s.fabPort port with stage := 3 }).emit (.fabProbe port s.now (s.fabPort port).link.lastSeq)
    else s

/-- A PROBE is answered with an ECHO (R350, R371). -/
def Dev.fabProbe (s : Dev) (port : Nat) (fl : Flit) : Dev :=
  if s.fld Fld.FAB_PORT_STAT_LINK port = 1 ∨ s.fld Fld.FAB_PORT_STAT_LINK port = 2 then
    s.emit (.fabEcho port (flitNum fl 8 8) s.now s.now (s.fabPort port).link.lastSeq)
  else s

/-- An ECHO of stage 3; the 64th ends training with the measured delay (R371). -/
def Dev.fabEcho (s : Dev) (port : Nat) (fl : Flit) : Dev :=
  let f := s.fabPort port
  if f.stage ≠ 3 then s
  else
    let rt : Int := ((s.now : Int) - flitNum fl 8 8) - ((flitNum fl 24 8 : Int) - flitNum fl 16 8)
    let ts := f.trips ++ [rt]
    if ts.length < 64 then (s.setFab port { f with trips := ts }).emit (.fabProbe port s.now f.link.lastSeq)
    else
      let o := sortRising (· ≤ ·) ts
      let dly := (o.getD 31 0 + o.getD 32 0) / 4
      let s := s.setReg .CHN_DLY port (0x10000 + (min dly 0xFFFF).toNat)
      (s.setFab port { f with stage := 0, trips := [], gotDisc := false, gotSeen := false, link := {} }).setFld Fld.FAB_PORT_STAT_LINK port 2

/-- Whether a port takes flits: it is UP or training. -/
def Dev.fabAwake (s : Dev) (port : Nat) : Bool := s.fld Fld.FAB_PORT_STAT_LINK port == 1 || s.fld Fld.FAB_PORT_STAT_LINK port == 2

/-- One flit arriving on a fabric port, by its class and type (R348 to R356). A flit that is discarded acknowledges nothing (R355). CHAIN flits
are CHAIN_SYMBOL's. -/
def Dev.fabFlit (s : Dev) (port : Nat) (fl : Flit) : Dev :=
  let up := s.fld Fld.FAB_PORT_STAT_LINK port == 2
  if !s.fabAwake port then s
  else match flitNum fl 0 1 with
    | 0x3C =>
      if !flitCrcOk fl then (if up then s.linkError port else s)
      else
        let acked := if up then s.fabAck port fl else s
        match flitNum fl 1 1 with
        | 1 => if up then acked.fabLink port fl else s
        | 2 => if up then s.fabHead port fl else s
        | 3 => acked
        | 4 => if (s.fabPort port).link.discarding then s else acked.fabDisc port fl
        | 5 => acked.fabProbe port fl
        | 6 => acked.fabEcho port fl
        | _ => s.raise (port / 6) Ev.FAB_PROTOCOL
    | 0xC3 => if up then s.fabData port fl else s
    | _ => if up then s.linkError port else s

/-! ### Sending (R356, R359, R360) -/

/-- The queued packet a VC sends next: round-robin over its inputs, oldest first within an input. -/
def Link.nextOf (l : Link Packet) (vc : Nat) : Option (Queued Packet) :=
  let q := l.queue.filter (fun x => x.vc == vc)
  let last := SMap.read 0 l.lastInput vc
  let inputs := ((List.range 42).map (fun i => (last + 1 + i) % 42))
  match inputs.find? (fun i => q.any (fun x => x.input == i)) with
  | none => none
  | some i => q.find? (fun x => x.input == i)

/-- Whether the sender may send a packet on a VC now: credits for all of it, and room in the replay buffer. -/
def Link.maySend (l : Link Packet) (vc : Nat) (q : Queued Packet) : Bool :=
  decide (q.pkt.flits ≤ l.credit vc) && decide (l.replay.length < 2047)
    && decide (l.replay.foldl (fun n x => n + x.pkt.flits) 0 + q.pkt.flits ≤ 12288)

/-- VCs in the order served: 3, 2, then the data VC not served last, then the other (R359). -/
def Link.vcOrder (l : Link Packet) : List Nat := if l.turn = 0 then [3, 2, 1, 0] else [3, 2, 0, 1]

/-- Sends the next packet of an output port. -/
def Dev.packetSend (s : Dev) (port : Nat) : Dev :=
  let f := s.fabPort port
  let l := f.link
  if s.fld Fld.FAB_PORT_STAT_LINK port ≠ 2 ∨ s.fld Fld.FAB_PORT_STAT_PLAN port ≠ planMatch then s
  else
    match (l.vcOrder.filterMap (fun v => (l.nextOf v).filter (l.maySend v))).head? with
    | none => s
    | some q =>
      let p := { q.pkt with vc := q.vc }
      let l' : Link Packet := { l with
        queue := l.queue.erase q
        replay := l.replay ++ [⟨l.nextSeq, p, 0, false⟩]
        nextSeq := (l.nextSeq + 1) % 4096
        credits := SMap.write (vcBuffer q.vc) l.credits q.vc (l.credit q.vc - p.flits)
        lastInput := SMap.write 0 l.lastInput q.vc q.input
        turn := if q.vc < 2 then q.vc else l.turn }
      let s := (s.setFab port { f with link := l' }).emit (.fabPacket port l.nextSeq l.lastSeq p)
      let s := if p.tile.isSome then s.perf .FAB_PORT_PC_TXT port (port / 6) 1 else s
      s.freeQueued q

/-- Drops the packet that has waited longest on a VC of an output port (R361). -/
def Dev.stallDrop (s : Dev) (port vc : Nat) : Dev :=
  let f := s.fabPort port
  match f.link.queue.find? (fun q => q.vc == vc) with
  | none => s
  | some q =>
    let s := s.setFab port { f with link := { f.link with queue := f.link.queue.erase q } }
    (s.drop q.input .stall 1).freeQueued q

/-! ### Time (R358) -/

/-- Time moves on by one unit of 0.25 ns (R358). -/
def Dev.tick (s : Dev) : Dev := s.reach (s.now + 1)

/-! ### Comparisons and revisions (R373 to R379) -/

/-- Sets the plan state of every port of a partition from its link state and the section in force (R373); `was` are the transit groups
degraded before whatever brings the comparison about (R409). -/
def Dev.comparison (s : Dev) (p : Nat) (was : List Nat) : Dev :=
  match (s.part p).plan with
  | none => s
  | some pl =>
    let s := s.each (s.portsOf p) (fun q s =>
      let e := pl.fabric.ports.getD q {}
      let up := s.fld Fld.FAB_PORT_STAT_LINK q == 2
      let same := s.reg .FAB_PORT_PEER q == e.serial && s.fld Fld.FAB_PORT_STAT_PEERPORT q == e.port
      if !e.expect then
        if up then (s.setPlan q planExtra).raise (q / 6) Ev.FAB_EXTRA else s.setPlan q planUnused
      else if !up then (s.setPlan q planMissing).raise (q / 6) Ev.FAB_MISSING
      else if same then s.setPlan q planMatch
      else ((s.setPlan q planWrong).raise (q / 6) Ev.FAB_MISSING).raise (q / 6) Ev.FAB_EXTRA)
    s.redegrade p was

/-- A port expectation from its 16 bytes, and whether its zero fields are zero (R378). -/
def parsePort (b : List Byte) : PortExpect × Bool :=
  let n := leNat b
  let e : PortExpect := ⟨bits n 63 0, bits n 69 64, n.testBit 70⟩
  (e, decide (n / 2 ^ 71 = 0) && (e.expect || decide (n = 0)))

/-- A route entry from its 8 bytes, and whether its zero fields are zero (R378). -/
def parseRoute (b : List Byte) : RouteEntry × Bool :=
  let n := leNat b
  (⟨bits n 15 0, n.testBit 16, bits n 22 17, bits n 24 23, bits n 39 32⟩, decide (bits n 31 25 = 0) && decide (bits n 63 40 = 0))

/-- Reads a FABRIC section under the checks of R379, for a partition's dies. -/
def parseFabric (sec : List Byte) (dies : List Nat) : Option Fabric :=
  let hd := leNat (sec.take 64)
  let n := bits hd 63 32
  let ports := (List.range 36).map (fun p => parsePort ((sec.drop (64 + 16 * p)).take 16))
  let routes := (chunks 8 n (sec.drop 640)).map parseRoute
  let fab : Fabric := ⟨bits hd 11 0, ports.map (fun p => p.1), routes.map (fun r => r.1)⟩
  let exp (p : Nat) : Bool := (fab.ports.getD p {}).expect
  let ids := fab.routes.map (fun r => r.route)
  if decide (sec.length = 640 + 8 * n) && decide (n ≤ 65536) && decide (bits hd 31 12 = 0) && decide (hd / 2 ^ 64 = 0)
      && ports.all (fun p => p.2) && routes.all (fun r => r.2)
      && fab.ports.zipIdx.all (fun p => !p.1.expect || (dies.contains (p.2 / 6) && decide (p.1.port ≤ 35)))
      && decide (ids.eraseDups.length = ids.length)
      && fab.routes.all (fun r => (r.loc || exp r.port) && (!r.loc || decide (r.port = 0)) && decide (r.vc ≠ 3) && decide (r.slice ≠ 0))
  then some fab else none

/-- Loads a partition's route tables in every one of its dies (R363, R384). -/
def Dev.loadRoutes (s : Dev) (p : Nat) (fab : Fabric) : Dev :=
  s.each (s.diesOf p) (fun d s =>
    s.each fab.routes (fun r s =>
      s.setReg .FAB_RT (d * 65536 + r.route) (1 + 2 * b2n r.loc + 4 * r.port + 256 * r.vc + 65536 * r.slice)))

/-- Sets every entry's VALID to 0 for the entries of a section (R363). -/
def Dev.unloadRoutes (s : Dev) (p : Nat) (fab : Fabric) : Dev :=
  s.each (s.diesOf p) (fun d s => s.each fab.routes (fun r s => s.setFld Fld.FAB_RT_VALID (d * 65536 + r.route) 0))

/-- Sets what FAB_STAT.REV and FAB_REVDIGEST say of the FABRIC section in force: a revision with its digest, or none (R383). -/
def Dev.setRevision (s : Dev) (p : Nat) (digest : Option (List Byte)) : Dev :=
  let s := s.setFld Fld.FAB_STAT_REV p (b2n digest.isSome)
  s.each (List.range 8) (fun i s => s.setReg .FAB_REVDIGEST (dieIdx .FAB_REVDIGEST p i) (leNat (((digest.getD []).drop (8 * i)).take 8)))

/-- Refuses a fabric command (R376, R377). -/
def Dev.fabRefuse (s : Dev) (p : Nat) : Dev := (s.setFld Fld.FAB_STAT_ERR p Ev.FAB_REFUSED).raise p Ev.FAB_REFUSED

/-- The key table in use (R561): the copy that passes, or the union of two that disagree. -/
def Flash.keyTable (f : Flash) : List (Nat × Nat) :=
  match f.keysA.ok, f.keysB.ok with
  | true, true => if f.keysA.val = f.keysB.val then f.keysA.val else (f.keysA.val ++ f.keysB.val).eraseDups
  | true, false => f.keysA.val
  | false, true => f.keysB.val
  | false, false => []

/-- The keys of one kind, 1 owner and 2 operator. -/
def Flash.keys (f : Flash) (kind : Nat) : List Nat := (f.keyTable.filter (fun k => k.1 == kind)).map (fun k => k.2)

/-- Whether a signature tile is valid for a digest and a context string: its zero bytes are zero, and under a key that its KEYID names the
Ed448 signature verifies (R299). -/
def sigTileOk (context : String) (digest tile : List Byte) (keys : List Nat) : Bool :=
  (tile.drop 122).all (fun b => b == 0)
    && keys.any (fun k => keyId k == leNat (tile.take 8) && Ed448.verify k context digest ((tile.drop 8).take 114))

end Sys2Proof.Machine
end

