-- ==== Sys2Proof/Machine/Uses.lean ====
section
/-!
DEFINITION. The use of a tile: verification of its scruple and what a failure does (R446, R447), and uncorrectable errors (R448).
-/
namespace Sys2Proof.Machine

/-- A read of payload with uncorrectable errors in some tiles: the event and the record for each (R448). -/
def Dev.hbmErrors (s : Dev) (tiles : List Nat) : Dev :=
  s.each (tiles.filter s.ueAt) (fun a s =>
    let die := a / stackSize / 4
    let t := a / tileSize * tileSize
    let r : LogRec := { kind := 5, event := Ev.HBM_UE, addr := t, expect := Memory.scruple s.mem t, found := tileScruple (s.tile t) }
    (s.raise die Ev.HBM_UE).logRecord die (s.stamp (s.partOf die) r))

/-- A number of `n` bytes at offset `o` of an image at `a`. -/
def Dev.imageNum (s : Dev) (a o n : Nat) : Nat := Memory.num s.mem (a + o) n

/-- The tiles of an image that a command reads: of as many as its LENGTH says where they fit, else the first. Each may report an uncorrectable error (R448). -/
def Dev.readImage (s : Dev) (a : Nat) (fits : Nat → Bool) : Dev :=
  let n := s.imageNum a 16 8 / tileSize
  if a % tileSize ≠ 0 || !fits 1 then s
  else s.hbmErrors ((List.range (if fits n then n else 1)).map (fun i => a + i * tileSize))

/-- A failed use of a tile whose scruple as read is the one expected; a tile that carries the poison of an uncorrectable error has raised
that error (R447, R448). -/
def Dev.useFailed (s : Dev) (p die code : Nat) (core : Option Nat) (fpc a : Nat) : Dev :=
  let t := a / tileSize * tileSize
  (s.hbmErrors [t]).useFailedAs p die code core fpc t (s.scrupleOf t) (tileScruple (s.tile t))

/-- The event a use of the tile at `a` meets: the poison scruple, a mismatch, or none (R443, R444, R447). -/
def Dev.tileFault (s : Dev) (a : Nat) : Option Nat :=
  match scrupleAddr a with
  | none => none
  | some _ =>
    if s.scrupleOf a = poisonScruple then some Ev.TILE_POISON
    else if Memory.verify s.mem a then none else some Ev.TILE_CHECK

/-- A use of the tile that holds `a`: its verification and its use as a collective tile (R396, R446, R447). -/
def Dev.useTile (s : Dev) (p die : Nat) (core : Option Nat) (fpc a : Nat) : Dev :=
  let s := s.useRecord p a
  match s.tileFault a with
  | none => s
  | some code => s.useFailed p die code core fpc a

/-- Uses of the tiles that the bytes [a, a+n) lie in. -/
def Dev.useRange (s : Dev) (p die : Nat) (core : Option Nat) (fpc a n : Nat) : Dev :=
  if n = 0 then s
  else
    let first := a / tileSize
    let last := (a + n - 1) / tileSize
    s.each (List.range (last + 1 - first)) (fun i s => s.useTile p die core fpc ((first + i) * tileSize))

end Sys2Proof.Machine
end

