-- ==== Sys2Proof/Machine/CoreState.lean ====
section
/-!
DEFINITION. What happens to a core as a whole: stopping (R272, R273), a step start (R232, R274), an abort (R274, R329), and
a remap change or a fill (R103, R131, R159, R220, R279, R412).
-/
namespace Sys2Proof.Machine

/-- The states of CORE_STAT.STATE (R276). -/
def coreIdle : Nat := 0
def coreRun : Nat := 1
def coreDone : Nat := 2
def coreStopped : Nat := 3

/-- The partition of a logical core. -/
def Dev.corePart (s : Dev) (c : Nat) : Nat := s.partOf (coreDie c)

/-- The registers and queues of a core that stops (R272): its state, cause, offset and faulting address; what has not dispatched is
discarded. Of an offset beyond the 20 bits of CORE_FPC, at a branch target, the low 20 bits are kept (DESIGN CHOICE, assumption 78). -/
def Dev.stopped (s : Dev) (c code fpc addr : Nat) : Dev :=
  let t := (s.setFld Fld.CORE_STAT_STATE c coreStopped).setFld Fld.CORE_STAT_CAUSE c code
  let u := (t.setReg .CORE_FPC c (fpc % 2 ^ 20)).setReg .CORE_FADDR c (if code = Ev.CORE_ADDR then addr % 2 ^ 52 else 0)
  u.setCore c { u.core c with arrayQ := [], edgeQ := [], barrier := none }

/-- A core meets a stopping condition at the instruction at `fpc` (R272, R273). `addr` is the faulting device address of
EV_CORE_ADDR and 0 otherwise. -/
def Dev.stopCore (s : Dev) (c code fpc addr : Nat) : Dev :=
  let t := if s.fld Fld.CORE_STAT_STATE c = coreStopped then s.setFld Fld.CORE_STAT_MULTI c 1 else s.stopped c code fpc addr
  (t.raise (coreDie c) code).unclean (s.corePart c) code

/-- End of the core store's payload (R27, R231). -/
def payloadEnd : Nat := 0xFF000

/-- The core after its sequencer has fetched the 64-byte group its next instruction lies in, unless it holds that group since the last taken
branch (R231). -/
def Core.fetchFrom (x : Core) (m : Memory) (c : Nat) : Core :=
  let base := x.pc.toNat / 64 * 64
  if payloadEnd ≤ base ∨ x.fetched.any (fun g => g.1 == base) then x
  else { x with fetched := some (base, Memory.bytes m (strideAddr c base) 64) }

/-- The sequencer of a core fetches. -/
def Dev.fetch (s : Dev) (c : Nat) : Dev := s.setCore c ((s.core c).fetchFrom s.mem c)

/-- A core at a step start: at CORE_ENTRY, its first group fetched, running, its stop registers, norm accumulators and gill entries cleared, and its
lanes snapshotted (R151, R220, R232, R274). -/
def Dev.startCore (s : Dev) (c : Nat) : Dev :=
  let x := s.core c
  let s := s.setCore c { x with
    pc := BitVec.ofNat 64 (s.fld Fld.CORE_ENTRY_ENTRY c), nregs := [], pend := [], arrayQ := [], flights := [], loads := []
    edgeQ := [], edgeFlights := [], dmas := [], barrier := none, fetched := none, committed := x.lanes, usedTiles := [], captured := false, dup := [] }
  let s := (((s.fetch c).setReg .CORE_STAT c 0).setReg .CORE_FPC c 0).setReg .CORE_FADDR c 0
  (s.setFld Fld.CORE_STAT_STATE c coreRun).setFld Fld.GILL_STAT_FILL c 0

/-- A core at an abort: every wait cancelled, queues, work in flight and descriptors ended, a bank whose load it cuts short empty
(R83), lanes restored, the gill buffer reset, and the state idle (R151, R220, R274). The staging area stays as it is (DESIGN CHOICE,
assumption 78: R159 neither restores nor preserves it). -/
def Dev.abortCore (s : Dev) (c : Nat) : Dev :=
  let x := s.core c
  let lost := x.loads.foldl (fun m l => SMap.write {} m (2 * l.array + l.bank) {}) x.banks
  let s := s.setCore c { x with
    pend := [], arrayQ := [], flights := [], loads := [], edgeQ := [], edgeFlights := [], dmas := [], barrier := none
    banks := lost, lanes := x.committed }
  ((s.setFld Fld.CORE_STAT_STATE c coreIdle).setFld Fld.GILL_STAT_FILL c 0).setFld Fld.EDGE_STAT_RSTPEND c 0

/-- The bound cores of a partition that are present: those of its plan on dies not fenced (R14, R292). -/
def Dev.boundCores (s : Dev) (p : Nat) : List Nat := (s.planCores p).filter s.present

/-- Whether a partition's work for the step is complete: every present bound core is DONE (R266, assumption 9). -/
def Dev.workDone (s : Dev) (p : Nat) : Bool :=
  (s.boundCores p).all (fun c => s.fld Fld.CORE_STAT_STATE c == coreDone)

/-- The performance counters of a core's window that restart at a fill. -/
def corePerfRegs : List RegKind :=
  [.ARR_PC_ISSUE, .ARR_PC_BLOCKS, .ARR_PC_TRUNC_ROW, .ARR_PC_TRUNC_COL, .ARR_PC_GATED, .ACC_PC_PROMOTE, .ACC_PC_ALIGN_TRUNC,
   .ACC_PC_BYPASS, .ACC_PC_SPILL, .ACC_PC_RESUME, .EDGE_PC_BLOCKS, .EDGE_PC_SAT, .EDGE_PC_UNDER, .EDGE_PC_EXTRACT, .EDGE_PC_DRAWS,
   .RNG_PC_LANE, .RNG_PC_KEYED, .CORE_PC_ISSUE, .CORE_PC_STALL_REG, .CORE_PC_STALL_UNIT, .CORE_PC_STALL_DRAW, .CORE_PC_STALL_SYNC,
   .CORE_PC_HOLD_BANK, .CORE_PC_HOLD_PANEL, .GILL_OVF]

/-- A logical core now served by another slot after a rolling-test swap: empty banks and panels, FILL 0, everything else
copied (R103, R131, R159, R220, R279, R412). -/
def Dev.swapCore (s : Dev) (c : Nat) : Dev :=
  let x := s.core c
  (s.setCore c { x with panels := [], banks := [], spans := [] }).setFld Fld.GILL_STAT_FILL c 0

/-- `n` free bytes. -/
def Dev.freeBytes (s : Dev) (n : Nat) : List Byte × Dev :=
  ((List.range n).map (fun i => BitVec.ofNat 8 (Config.free (s.fresh + i))), { s with fresh := s.fresh + n })

/-- The events whose counts start from zero at a spare fill, in the array of the core's die: those of the edge converter and of the
draws (R159, R165, R220, R227). -/
def fillEvents : List Nat := [Ev.GILL_OVERFLOW, Ev.GILL_CLAMP, Ev.EDGE_SHAPE, Ev.GILL_STALE, Ev.DRAW_SAT, Ev.RNG_BACKSTEP_REFUSED,
   Ev.RNG_INDEX, Ev.SAMPLE_NAN]

/-- The registers a spare fill gives a logical core (R103, R131, R159, R220, R279, R412): its window's counters and state and the event
counts from zero, what was written for it and what comes from the plan as it stands, its lanes as committed at the last flip. What its
edge buffers hold is lost (assumption 4). -/
def Dev.fillCoreState (s : Dev) (c : Nat) : Dev :=
  let x := s.core c
  let s := s.setCore c { lanes := x.committed, committed := x.committed }
  let s := s.each corePerfRegs (fun k s => s.clearReg k c)
  let s := s.each [RegKind.CORE_VFP, .CORE_STAT, .CORE_FPC, .CORE_FADDR, .GRP_CORETAG, .GILL_STAT] (fun k s => s.clearReg k c)
  let s := s.each fillEvents (fun e s => s.clearReg .CTL_EVCNT (dieIdx .CTL_EVCNT (coreDie c) e))
  let r := s.freeBytes 0x20000
  { r.2 with mem := Memory.put r.2.mem (strideAddr c 0x100000) r.1 }

/-- The lanes of a core as the plan seeds them (R203). -/
def seedLanes (seed c : Nat) : SMap Lane := SMap.ofList {} 0 ((List.range 32).map (seedLane seed c))

end Sys2Proof.Machine
end

