-- ==== Sys2Proof/Machine/Loader.lean ====
section
/-!
DEFINITION. What a plan load and a spare fill write into the cores and HBM (R285, R286, R293, R296, R484, R599).
-/
namespace Sys2Proof.Machine

/-- The device cluster that serves a plan cluster of a die under a plan's binding (R292). -/
def Plan.bindOf (pl : Plan) (d k : Nat) : Option Nat :=
  (pl.cores.find? (fun c => coreDie c.plan == d && coreCluster c.plan == k)).map (fun c => coreCluster c.core)

/-- The logical core that serves a plan core (R292). -/
def Plan.serving (pl : Plan) (plan : Nat) : Option Nat := (pl.cores.find? (fun c => c.plan == plan)).map (fun c => c.core)

/-- The lowest bit of the cluster number in a relocated field of each kind, and of the die number (R12, R26, R97, R293). -/
def relocPlace (kind : Nat) : Nat × Nat :=
  match kind with
  | 0 => (4, 13)
  | 1 => (25, 34)
  | _ => (20, 32)

/-- The die and cluster a field names. -/
def relocTarget (kind v : Nat) : Nat × Nat :=
  let p := relocPlace kind
  (v / 2 ^ p.2 % 8, v / 2 ^ p.1 % 512)

/-- A field with its cluster number replaced by the bound one (R293). -/
def Plan.reloc (pl : Plan) (kind v : Nat) : Nat :=
  let t := relocTarget kind v
  match pl.bindOf t.1 t.2 with
  | some k => putBits v (relocPlace kind).1 9 k
  | none => v

/-- Bytes with those from offset `o` on replaced. -/
def setBytes (bs : List Byte) (o : Nat) (new : List Byte) : List Byte := bs.take o ++ new ++ bs.drop (o + new.length)

/-- The content of an image tile with relocation applied (R293). -/
def Dev.imageTile (s : Dev) (pl : Plan) (t : Nat) : List Byte :=
  (pl.relocs.filter (fun r => r.off / tileSize == t)).foldl (fun bs r =>
    let o := r.off % tileSize
    setBytes bs o (leBytes 8 (pl.reloc r.kind (leNat ((bs.drop o).take 8))))) (s.tile (pl.addr + t * tileSize))

/-- The event that a use of an image tile meets: its own scruple's, or a mismatch with what the load found there, so that content written
since is never taken (R287, R446). -/
def Dev.imageFault (s : Dev) (pl : Plan) (t : Nat) : Option Nat :=
  let a := pl.addr + t * tileSize
  (s.tileFault a).or (if tileScruple (s.tile a) = pl.scruples.getD t 0 then none else some Ev.TILE_CHECK)

/-- A failed use of an image tile: its event and record, the scruple expected being that of the load where the tile's own holds. -/
def Dev.imageUseFailed (s : Dev) (p : Nat) (pl : Plan) (t code : Nat) : Dev :=
  let a := pl.addr + t * tileSize
  (s.hbmErrors [a]).useFailedAs p p code none 0 a (if (s.tileFault a).isSome then s.scrupleOf a else pl.scruples.getD t 0) (tileScruple (s.tile a))

/-- Copies an image tile to a payload tile; when the use of the image tile fails, the event is raised and what `bad` says is
written instead (none: nothing). The result says which event. -/
def Dev.copyImageTile (s : Dev) (p : Nat) (pl : Plan) (t dst : Nat) (poison : Bool) : Dev × Option Nat :=
  match s.imageFault pl t with
  | none =>
    let bs := s.imageTile pl t
    (s.writeTile dst bs (tileScruple bs), none)
  | some code =>
    let s := s.imageUseFailed p pl t code
    (if poison then s.writeTile dst (zeros tileSize) poisonScruple else s, some code)

/-- Copies the tiles of a list of (image tile, destination) pairs. A load stops at the first failure; a fill goes on. The result
keeps the last failure, and how many were handled without one. -/
def Dev.copyImage (s : Dev) (p : Nat) (pl : Plan) (fill : Bool) (ts : List (Nat × Nat)) : Dev × Option Nat × Nat :=
  ts.foldl (fun acc t =>
    if acc.2.1.isSome && !fill then acc
    else
      let r := acc.1.copyImageTile p pl t.1 t.2 fill
      (r.1, r.2.or acc.2.1, if r.2.isSome then acc.2.2 else acc.2.2 + 1)) (s, none, 0)

/-- The RESIDENT tiles of a plan with their destinations (R286). -/
def Plan.residentTiles (pl : Plan) : List (Nat × Nat) :=
  pl.residents.flatMap (fun r => (List.range r.count).map (fun i => (r.tile + i, r.dest + i * tileSize)))

/-- The PROGRAM tiles of a plan core with their destinations (R285). -/
def PlanCore.tiles (c : PlanCore) : List (Nat × Nat) :=
  (List.range c.ntiles).map (fun i => (c.tile + i, strideAddr c.core (i * tileSize)))

/-- Zeroes the rest of a core's payload beyond its content, and its edge buffers (R285). -/
def Dev.zeroBeyond (s : Dev) (c : PlanCore) : Dev :=
  (((s.zero (strideAddr c.core (c.ntiles * tileSize)) (strideAddr c.core 0xFF000)).zero
    (strideAddr c.core (0xFF000 + 8 * c.ntiles)) (strideAddr c.core 0xFF7F8)).zero (strideAddr c.core 0x100000)
    (strideAddr c.core 0x120000)).touchCore c.core

/-- Writes the store of a plan core from the image (R285). -/
def Dev.loadProgram (s : Dev) (p : Nat) (pl : Plan) (fill : Bool) (c : PlanCore) : Dev × Option Nat × Nat :=
  let r := s.copyImage p pl fill c.tiles
  if r.2.1.isSome && !fill then r else (r.1.zeroBeyond c, r.2)

/-- Marks a plan whose image failed at a use outside a step: ERR, and no further run (R599). -/
def Dev.imageFailed (s : Dev) (p : Nat) (code : Option Nat) : Dev :=
  match code with
  | none => s
  | some e => (s.setFld Fld.PLAN_STAT_ERR p e).setPart p { s.part p with noRun := true }

/-- Puts the store and edge buffers of a core whose content is lost: free bytes (assumption 4). -/
def Dev.loseStore (s : Dev) (c : Nat) : Dev :=
  let r := s.freeBytes 0x120000
  let m := Memory.put r.2.mem (strideAddr c 0) (r.1.take 0xFF7F8)
  ({ r.2 with mem := Memory.put m (strideAddr c 0x100000) (r.1.drop 0x100000) } : Dev).touchCore c

/-- A fill's step 3: the program of the plan core that a logical core serves, where there is one, and the rewrite of RESIDENT, which the
fills within one step boundary share; failed image tiles leave poisoned zero tiles and mark the partition's plan (R484, R599). -/
def Dev.refill (s : Dev) (p c : Nat) : Dev :=
  match (s.part p).plan with
  | none => s
  | some pl =>
    let r := match pl.cores.find? (fun x => x.core == c) with
      | some pc => s.loadProgram p pl true pc
      | none => (s, none, 0)
    let s := r.1.imageFailed p r.2.1
    if (s.part p).residentFresh then s
    else
      let q := s.copyImage p pl true pl.residentTiles
      (q.1.setPart p { q.1.part p with residentFresh := true }).imageFailed p q.2.1

end Sys2Proof.Machine
end

