-- ==== Sys2Proof/Machine/Stage.lean ====
section
/-!
DEFINITION. The stages of bring-up as the registers show them, and entry to READY (R511, R514, R526).
-/
namespace Sys2Proof.Machine

/-- The stages of R511. -/
def stRails : Nat := 0
def stRom : Nat := 1
def stElect : Nat := 2
def stRemap : Nat := 3
def stMemory : Nat := 4
def stCores : Nat := 5
def stReady : Nat := 6
def stRecovery : Nat := 7
def stFailed : Nat := 8

/-- The stage of a die, and of the device. -/
def Dev.dieStage (s : Dev) (d : Nat) : Nat := s.fld Fld.CTL_DBOOT_STAGE d
def Dev.bootStage (s : Dev) : Nat := s.fld Fld.CTL_BOOT_STAGE 0

/-- Whether the dies are powered and out of reset: past T0, with no trip and no EXTEST (R510, R575, R595). -/
def Dev.alive (s : Dev) : Bool := s.sby.pwrGood && !s.sby.trip && !s.sby.extest

/-- Whether the dies are in bring-up: READY, RECOVERY and FAILED leave it. -/
def Dev.booting (s : Dev) : Bool := s.alive && decide (s.bootStage < stReady)

/-- Milliseconds since T0, saturating (R526). -/
def Dev.bootMs (s : Dev) : Nat :=
  match s.ctl.t0 with
  | some t => min 0xFFFF ((s.now - t) / msUnits)
  | none => 0

/-- The device enters a stage. -/
def Dev.setStage (s : Dev) (st : Nat) : Dev :=
  (s.setFld Fld.CTL_BOOT_STAGE 0 st).setFld Fld.CTL_BOOT_MS 0 s.bootMs

/-- Bring-up ends in FAILED with an event (R522). -/
def Dev.bootFailed (s : Dev) (code : Nat) : Dev := (s.setStage stFailed).setFld Fld.CTL_BOOT_ERR 0 code

/-- Entry to READY: the event, on every host port that is UP, and the event of a reset by sag or overvoltage (R514, R547). -/
def Dev.enterReady (s : Dev) : Dev :=
  let s := (s.setStage stReady).countEvent Ev.BOOT_READY none 1
  let s := s.each (List.range 6) (fun p s => s.intr p Ev.BOOT_READY)
  if s.sby.sagPending then ({ s with sby := { s.sby with sagPending := false } } : Dev).raiseDev Ev.SAG_RESET else s

/-- The device's stage follows its dies: it enters a stage when its last die that is not fenced does; with every die fenced
bring-up has failed (R511, R522). -/
def Dev.updateStage (s : Dev) : Dev :=
  if !s.booting then s
  else
    match s.liveDies with
    | [] => s.bootFailed Ev.DIE_LOSS
    | d :: ds =>
      let st := ds.foldl (fun m e => min m (s.dieStage e)) (s.dieStage d)
      if st ≤ s.bootStage then s
      else if st = stReady then s.enterReady
      else s.setStage st

/-- A die enters a stage. -/
def Dev.setDieStage (s : Dev) (d st : Nat) : Dev :=
  let s := s.setFld Fld.CTL_DBOOT_STAGE d st
  let s := if st = stReady then s.setFld Fld.CTL_BOOT_READY 0 (s.fld Fld.CTL_BOOT_READY 0 ||| 2 ^ d) else s
  s.updateStage

/-- A die whose core test is done leaves CORES once no retirement or fill self-test that the stage caused still waits or runs (R519); one
whose controller is in a reset restarts at REMAP instead (R522). -/
def Dev.leaveCores (s : Dev) (d : Nat) : Dev :=
  if s.booting ∧ s.dieStage d = stCores ∧ s.ctl.tested.contains d ∧ !s.fenced d ∧ !s.ctl.rejoin.contains d
      ∧ s.spr.fills.all (fun f => f.die != d) ∧ s.spr.due.all (fun pc => slotDie pc != d) then s.setDieStage d stReady else s

end Sys2Proof.Machine
end

