-- ==== Sys2Proof/Machine/Sparing.lean ====
section
/-!
DEFINITION. The remap registers, retirement, shortfall, fills and rolling-test swaps (R15 to R20, R471, R480 to R491), and the recovery
journal that records them (R493, R495, R496).
-/
namespace Sys2Proof.Machine

/-- The outcome of a command that changes the volatile state and flash. -/
def okFlash (s : State) (r : Dev × Flash) : Host.Outcome State Fault Refusal := .next { s with dev := r.1, flash := r.2 }

/-! ### Remap registers -/

/-- The slot in SPARE of a cluster, 0x1F for none. -/
def Dev.spareOf (s : Dev) (d k : Nat) : Nat := s.fld Fld.SPR_CLSTAT_SPARE (clIdx d k)

/-- Whether a physical slot is retired. -/
def Dev.retired (s : Dev) (pc : Nat) : Bool :=
  (s.fld Fld.SPR_CLSTAT_RETIRED (clIdx (slotDie pc) (slotCluster pc))).testBit (slotNum pc)

/-- The logical core of a cluster that a slot serves. -/
def Dev.servedBy (s : Dev) (pc : Nat) : Option Nat :=
  ((List.range 16).map (coreId (slotDie pc) (slotCluster pc))).find? (fun c => s.slotOf c == slotNum pc)

/-- Maps a logical core to a slot, in the one register that holds it. -/
def Dev.mapSlot (s : Dev) (c n : Nat) : Dev :=
  let i := clIdx (coreDie c) (coreCluster c)
  let j := coreNum c
  if j < 8 then s.setReg .SPR_REMAP_LO i (putBits (s.reg .SPR_REMAP_LO i) (8 * j) 5 n)
  else s.setReg .SPR_REMAP_HI i (putBits (s.reg .SPR_REMAP_HI i) (8 * (j - 8)) 5 n)

/-- One change of a cluster's registers: GEN rises by one (R15, R17). -/
def Dev.bumpGen (s : Dev) (d k : Nat) : Dev :=
  s.setFld Fld.SPR_CLSTAT_GEN (clIdx d k) (s.fld Fld.SPR_CLSTAT_GEN (clIdx d k) + 1)

/-- Whether the serving slots of a cluster may change now: no step of its partition is in progress (R17). -/
def Dev.remapFree (s : Dev) (d : Nat) : Bool := !(s.part (s.partOf d)).stepping

/-- Whether a lead carries out remap changes, fills and fences (R492, R494, R499). -/
def Dev.hasLead (s : Dev) : Bool :=
  s.ctl.elected && !s.flag Fld.CTL_ELECT_NONE 0 && s.fld Fld.CTL_CSTAT_ROLE (s.fld Fld.CTL_ELECT_LEAD 0) == 1

/-! ### Controller messages (R493) -/

/-- One controller sends another a message, on the ring and, where the bridges between their dies carry anything, on them. -/
def Dev.ctlSend (s : Dev) (src dst : Nat) (m : CtlMsg) : Dev :=
  let s := s.emit (.ctl true src dst m)
  if s.reaches src dst then s.emit (.ctl false src dst m) else s

/-- A controller tells every other controller that is not held in a fence. -/
def Dev.ctlSendAll (s : Dev) (src : Nat) (m : CtlMsg) : Dev := s.each (s.liveDies.filter (fun d => d != src)) (fun d s => s.ctlSend src d m)

/-! ### The journal (R495, R496) -/

/-- A record whose action is neither complete nor given up. -/
def JRec.isOpen (r : JRec) : Bool := !r.done && !r.aborted

/-- Whether NEXT has acknowledged a record as it now stands. -/
def JRec.acked (r : JRec) : Bool := if r.isOpen then r.openAck else r.closedAck

/-- The lead acts unmirrored. -/
def Dev.solo (s : Dev) : Bool := s.flag Fld.CTL_JSTAT_SOLO 0

/-- SEQ of the last record. -/
def Dev.lastSeq (s : Dev) : Nat := match s.ctl.journal.getLast? with
  | some r => r.seq
  | none => 0

/-- The lead sends records to NEXT. -/
def Dev.mirror (s : Dev) (rs : List JRec) : Dev :=
  if s.solo || !s.flag Fld.CTL_ELECT_NEXTV 0 then s
  else s.each rs (fun r s => s.ctlSend (s.fld Fld.CTL_ELECT_LEAD 0) (s.fld Fld.CTL_ELECT_NEXT 0) (.record r))

/-- Makes room in the ring of 4,096: its oldest record that is closed and mirrored goes. -/
def ringRoom (js : List JRec) : List JRec :=
  if js.length < 4096 then js
  else match js.find? (fun r => !r.isOpen && r.closedAck) with
    | some r => js.erase r
    | none => js

/-- The lead opens a record of an action on a target, with the registers the action gives its cluster as they stand in `after`, zero
for a fence and a policy, and sends it to NEXT; a lead that acts unmirrored waits for nothing. -/
def Dev.journal (s : Dev) (type target : Nat) (after : Dev) : Dev :=
  let i := clIdx (slotDie target) (slotCluster target)
  let r : JRec :=
    { seq := s.lastSeq + 1, term := s.fld Fld.CTL_ELECT_TERM 0, type := type, done := false, aborted := false, target := target
      lo := if 6 ≤ type then 0 else after.reg .SPR_REMAP_LO i, hi := if 6 ≤ type then 0 else after.reg .SPR_REMAP_HI i
      st := if 6 ≤ type then 0 else after.reg .SPR_CLSTAT i, openAck := s.solo, closedAck := false }
  ({ s with ctl := { s.ctl with journal := ringRoom s.ctl.journal ++ [r] } } : Dev).mirror [r]

/-- Whether a record is open and of a type and target. -/
def JRec.isFor (r : JRec) (type target : Nat) : Bool := r.isOpen && r.type == type && r.target == target

/-- A record closed. -/
def JRec.closed (r : JRec) (aborted solo : Bool) : JRec := { r with done := !aborted, aborted := aborted, closedAck := solo }

/-- Closes the open records of a type and target, DONE or ABORTED, and mirrors them again. -/
def Dev.closeRecord (s : Dev) (type target : Nat) (aborted : Bool) : Dev :=
  let mine := (s.ctl.journal.filter (fun r => r.isFor type target)).map (fun r => r.closed aborted s.solo)
  ({ s with ctl := { s.ctl with journal := s.ctl.journal.map (fun r => if r.isFor type target then r.closed aborted s.solo else r) } } : Dev).mirror mine

/-- Whether the action of an open record of a type and target may be carried out: NEXT has acknowledged it. -/
def Dev.mayAct (s : Dev) (type target : Nat) : Bool :=
  s.hasLead && s.ctl.journal.any (fun r => r.isFor type target && r.openAck)

/-- Whether a record of a type and target is open. -/
def Dev.isOpenFor (s : Dev) (type target : Nat) : Bool := s.ctl.journal.any (fun r => r.isFor type target)

/-- Whether a record of a cluster is open, of any type but FENCE and POLICY, and of none of those given. -/
def Dev.clusterOpen (s : Dev) (d k : Nat) (but : List Nat) : Bool :=
  s.ctl.journal.any (fun r => r.isOpen && decide (r.type ≤ 5) && !but.contains r.type && slotDie r.target == d && slotCluster r.target == k)

/-! ### Rolling tests (R19, R471) -/

/-- The rolling test of a cluster. -/
def Dev.swapOf (s : Dev) (d k : Nat) : Option SwapTest := s.spr.swaps.find? (fun t => t.die == d && t.cluster == k)

/-- Removes the rolling test of a cluster; a record of its switch that is still open ends without completing. -/
def Dev.dropSwap (s : Dev) (d k : Nat) : Dev :=
  match s.swapOf d k with
  | none => s
  | some t =>
    let pc := slotId d k t.tested
    let s := { s with spr := { s.spr with swaps := s.spr.swaps.filter (fun f => !(f.die == d && f.cluster == k)) } }
    (s.closeRecord 4 pc true).closeRecord 5 pc true

/-- Puts a rolling test's data in place of the old. -/
def Dev.putSwap (s : Dev) (t : SwapTest) : Dev :=
  { s with spr := { s.spr with swaps := s.spr.swaps.filter (fun f => !(f.die == t.die && f.cluster == t.cluster)) ++ [t] } }

/-- What memory holds of a core's stride. -/
def Dev.stride (s : Dev) (c : Nat) : Memory := SMap.window s.mem (strideAddr c 0) (strideAddr c strideSize)

/-- Copies a range of device addresses again into a copy. -/
def Dev.recopyRange (s : Dev) (m : Memory) (lo hi : Nat) : Memory := SMap.splice m lo hi (SMap.window s.mem lo hi)

/-- A copy of a core's stride with the tiles written since copied again, each with its scruple. -/
def Dev.recopy (s : Dev) (t : SwapTest) : Memory :=
  t.dirty.foldl (fun m n =>
    let m := s.recopyRange m (strideAddr t.core (n * tileSize)) (strideAddr t.core ((n + 1) * tileSize))
    if n < 255 then s.recopyRange m (strideAddr t.core (0xFF000 + 8 * n)) (strideAddr t.core (0xFF000 + 8 * n + 8)) else m) t.copy

/-- A rolling test begins to copy the stride of its core into the slot it will be served by (R471 step 1, step 5). -/
def Dev.copyFrom (s : Dev) (t : SwapTest) (phase : Nat) : SwapTest := { t with phase := phase, copy := s.stride t.core, dirty := [] }

/-- A boundary copy: what was written again since (R471 step 2). -/
def Dev.boundaryCopy (s : Dev) (t : SwapTest) (phase : Nat) : SwapTest := { t with phase := phase, copy := s.recopy t, dirty := [] }

/-- The core of a rolling test is served by the slot that holds its copy. -/
def Dev.serveCopy (s : Dev) (t : SwapTest) : Dev :=
  s.setMem (SMap.splice s.mem (strideAddr t.core 0) (strideAddr t.core strideSize) (s.recopy t))

/-- The registers after the switch of a rolling test: the core on the spare, the freed slot under test. -/
def Dev.swapMap (s : Dev) (t : SwapTest) : Dev :=
  let i := clIdx t.die t.cluster
  (((s.mapSlot t.core t.spare).setFld Fld.SPR_CLSTAT_SPARE i t.tested).setFld Fld.SPR_CLSTAT_SWAP i 1).bumpGen t.die t.cluster

/-- The registers after the switch back. -/
def Dev.backMap (s : Dev) (t : SwapTest) : Dev :=
  let i := clIdx t.die t.cluster
  (((s.mapSlot t.core t.tested).setFld Fld.SPR_CLSTAT_SPARE i t.spare).setFld Fld.SPR_CLSTAT_SWAP i 0).bumpGen t.die t.cluster

/-- The switch back (R471 step 5), with its record closed. -/
def Dev.swapBack (s : Dev) (t : SwapTest) : Dev :=
  let s := ((s.backMap t).serveCopy t).swapCore t.core
  let s := s.closeRecord 5 (slotId t.die t.cluster t.tested) false
  s.dropSwap t.die t.cluster

/-- A partition's rolling tests that have copied back switch back where their records allow it. -/
def Dev.swapsBack (s : Dev) (p : Nat) : Dev :=
  s.each (s.spr.swaps.filter (fun t => t.phase == 5 && s.partOf t.die == p)) (fun t s =>
    if s.mayAct 5 (slotId t.die t.cluster t.tested) then s.swapBack t else s)

/-- The SWAP of a cluster ends without a switch back: the slot that was under test is the spare (R19). -/
def Dev.endSwap (s : Dev) (d k : Nat) : Dev :=
  ((s.setFld Fld.SPR_CLSTAT_SWAP (clIdx d k) 0).bumpGen d k).dropSwap d k

/-- A permanent failure is found in a cluster: a rolling test that has switched is over, its result discarded; it ends at the next step
boundary, which is now where no step is in progress; a remap change waits for a lead (R19, R492). -/
def Dev.endTestOf (s : Dev) (pc : Nat) : Dev :=
  let d := slotDie pc
  let k := slotCluster pc
  match s.swapOf d k with
  | none => s
  | some t =>
    if t.phase < 3 ∨ t.tested = slotNum pc then s
    else if s.remapFree d && s.hasLead then s.endSwap d k
    else (s.closeRecord 5 (slotId d k t.tested) true).putSwap { t with phase := 6 }

/-- The rolling tests of a partition that a permanent failure ended are over at its step boundary, with a lead (R19, R492). -/
def Dev.endTests (s : Dev) (p : Nat) : Dev :=
  if !s.hasLead then s
  else s.each (s.spr.swaps.filter (fun t => t.phase == 6 && s.partOf t.die == p)) (fun t s => s.endSwap t.die t.cluster)

/-- The lead ends the rolling tests that a permanent failure ended while there was none, or a step in progress, where no step is now (R19, R492). -/
def Dev.endFailedTests (s : Dev) : Dev := s.each (s.partitions.filter s.remapFree) (fun p s => s.endTests p)

/-- A partition stops running: STATE becomes LOADED, no start is pending, and rolling tests that have copied back switch back. -/
def Dev.toLoaded (s : Dev) (p : Nat) : Dev :=
  ((s.setFld Fld.PLAN_STAT_STATE p 2).setPart p { s.part p with start := none, stopReq := false }).swapsBack p

/-- A partition that may not run again stops running where no step is in progress (R8, R287). -/
def Dev.stopIdle (s : Dev) (p : Nat) : Dev :=
  if (s.part p).noRun ∧ s.planState p = 3 ∧ !(s.part p).stepping then s.toLoaded p else s

/-! ### Fills and shortfalls -/

/-- The fill of a cluster. -/
def Dev.fillOf (s : Dev) (d k : Nat) : Option Fill := s.spr.fills.find? (fun f => f.die == d && f.cluster == k)

/-- Removes the fill of a cluster. -/
def Dev.dropFill (s : Dev) (d k : Nat) : Dev :=
  { s with spr := { s.spr with fills := s.spr.fills.filter (fun f => !(f.die == d && f.cluster == k)) } }

/-- Whether any fill is in progress in a cluster that a partition's plan binds (R486). -/
def Dev.fillHolds (s : Dev) (p : Nat) : Bool := s.spr.fills.any (fun f => s.binds p f.die f.cluster)

/-- The registers after the fill of a cluster. -/
def Dev.filledMap (s : Dev) (d k : Nat) : Dev := (s.setFld Fld.SPR_CLSTAT_FILL (clIdx d k) 0).bumpGen d k

/-- Ends a fill with its cluster able to serve (R484 step 4). -/
def Dev.endFill (s : Dev) (d k : Nat) : Dev :=
  match s.fillOf d k with
  | none => s
  | some f => (((s.dropFill d k).filledMap d k).closeRecord 2 (slotId d k f.slot) false).raise d Ev.SPR_FILL_DONE

/-- Starts a fill of the slot that now serves a logical core (R481, R484). -/
def Dev.startFill (s : Dev) (c slot : Nat) : Dev :=
  let f : Fill := { die := coreDie c, cluster := coreCluster c, slot := slot, core := c, step := 1 }
  let s := { s with spr := { s.spr with fills := s.spr.fills ++ [f] } }
  s.journal 2 (slotId f.die f.cluster slot) (s.filledMap f.die f.cluster)

/-- A cluster becomes short (R8, R490, R491): its registers as R16 states, its cores absent; a partition that binds it has the verdict
of a step in progress unclean, stops running where none is, and does not run again until that plan is unloaded. -/
def Dev.becomeShort (s : Dev) (d k : Nat) : Dev :=
  let i := clIdx d k
  let p := s.partOf d
  let bound := s.binds p d k
  let s := (s.setReg .SPR_REMAP_LO i 0x1F1F1F1F1F1F1F1F).setReg .SPR_REMAP_HI i 0x1F1F1F1F1F1F1F1F
  let s := ((s.setFld Fld.SPR_CLSTAT_SPARE i 0x1F).setFld Fld.SPR_CLSTAT_FILL i 0).setFld Fld.SPR_CLSTAT_SWAP i 0
  let s := ((s.setFld Fld.SPR_CLSTAT_SHORT i 1).dropFill d k).dropSwap d k
  let s := s.raise d Ev.LOGICAL_SHORTFALL
  if !bound then s
  else
    let s := s.unclean p Ev.LOGICAL_SHORTFALL
    (s.setPart p { s.part p with noRun := true }).stopIdle p

/-! ### Retirement (R480 to R483, R488, R489) -/

/-- The logical core that a retirement leaves to the spare, and the spare. -/
def Dev.retireSpare (s : Dev) (pc : Nat) : Option (Nat × Nat) :=
  let sp := s.spareOf (slotDie pc) (slotCluster pc)
  if (s.fillOf (slotDie pc) (slotCluster pc)).isSome || decide (sp = 0x1F) then none
  else (s.servedBy pc).map (fun c => (c, sp))

/-- The core and slot that a retirement starts a fill for; on a fenced die every fill is over (R488). -/
def Dev.retireFill (s : Dev) (pc : Nat) : Option (Nat × Nat) := if s.fenced (slotDie pc) then none else s.retireSpare pc

/-- A logical core is served by another slot whose content is not its own: what its store and banks held is lost (R18, R85, R485). -/
def Dev.loseCore (s : Dev) (c : Nat) : Dev := (s.setCore c { s.core c with banks := [] }).loseStore c

/-- What the retirement of a slot does to the remap, once it is in flash (R481, R488, R489): the event, RETIRED, and by what the slot
was the map to the spare, a shortfall, or the loss of the spare. GEN rises once. On a fenced die the remap changes alike, so that R16 holds, and
no fill is in progress (DEDUCED, assumption 75). -/
def Dev.retire (s : Dev) (pc : Nat) : Dev :=
  let d := slotDie pc
  let k := slotCluster pc
  let i := clIdx d k
  if s.retired pc then s
  else
    let next := s.retireSpare pc
    let s := s.setFld Fld.SPR_CLSTAT_RETIRED i (s.fld Fld.SPR_CLSTAT_RETIRED i ||| 2 ^ slotNum pc)
    let s := (s.raise d Ev.SPR_RETIRE).bumpGen d k
    match s.servedBy pc, next with
    | some _, some (c, sp) =>
      let s := (s.mapSlot c sp).setFld Fld.SPR_CLSTAT_SPARE i 0x1F
      (((s.setFld Fld.SPR_CLSTAT_SWAP i 0).setFld Fld.SPR_CLSTAT_FILL i (b2n !s.fenced d)).dropSwap d k).loseCore c
    | some _, none =>
      let s := if (s.fillOf d k).isSome then s.raise d Ev.SPR_FILL_ABORT else s
      s.becomeShort d k
    | none, _ =>
      if s.isShort d k then s
      else ((s.setFld Fld.SPR_CLSTAT_SPARE i 0x1F).setFld Fld.SPR_CLSTAT_SWAP i 0).dropSwap d k

/-- The retirement list of flash that takes one slot more, in both copies (R482, R516). -/
def Flash.addRetired (f : Flash) (pc : Nat) : Flash :=
  let add (c : Copy (List Nat)) : Copy (List Nat) := { c with val := if c.val.contains pc then c.val else c.val ++ [pc] }
  { f with retireA := add f.retireA, retireB := add f.retireB }

/-- Whether a flash write is a retirement's. -/
def FlashWrite.isRetire (w : FlashWrite) : Bool := match w with
  | .retire _ => true
  | _ => false

/-- Whether both copies of the retirement list hold a slot. -/
def Flash.holdsRetired (f : Flash) (pc : Nat) : Bool := f.retireA.val.contains pc && f.retireB.val.contains pc

/-- Queues the flash write of a retirement, once: behind the write in progress and the retirements that wait, ahead of every other (R482, R559). -/
def Dev.queueRetireWrite (s : Dev) (pc : Nat) : Dev :=
  if s.sec.flashQ.contains (.retire pc) then s
  else
    let q := match s.sec.flashQ with
      | [] => [.retire pc]
      | x :: xs => x :: (xs.takeWhile FlashWrite.isRetire ++ .retire pc :: xs.dropWhile FlashWrite.isRetire)
    { s with sec := { s.sec with flashQ := q } }

/-- Whether carrying out a retirement would change the serving slot of a logical core that a running partition's plan binds
(R483). -/
def Dev.retireRefused (s : Dev) (pc : Nat) : Bool :=
  let p := s.partOf (slotDie pc)
  s.planState p == 3 && s.binds p (slotDie pc) (slotCluster pc) && (s.servedBy pc).isSome

/-- Whether a retirement may be carried out now: a lead, and R17 where serving slots change. -/
def Dev.retireReady (s : Dev) (pc : Nat) : Bool :=
  s.hasLead && ((s.servedBy pc).isNone || s.remapFree (slotDie pc))

/-- The record type of a retirement: SHORTFALL where it leaves the cluster short (R495). -/
def Dev.retireType (s : Dev) (pc : Nat) : Nat :=
  if (s.servedBy pc).isSome && (s.retireSpare pc).isNone then 3 else 1

/-- Puts a retirement on the list of those to be carried out. -/
def Dev.queueRetire (s : Dev) (pc : Nat) : Dev :=
  if s.retired pc || s.spr.due.contains pc then s
  else ({ s with spr := { s.spr with due := s.spr.due ++ [pc] } } : Dev).endTestOf pc

/-- Writes the record of a due retirement, as soon as its cluster has no other record open (R495, R496). A fill in progress there ends
without completing once R17 lets the retirement be carried out (R488). -/
def Dev.recordRetire (s : Dev) (pc : Nat) : Dev :=
  let d := slotDie pc
  let k := slotCluster pc
  if !s.hasLead || s.isOpenFor 1 pc || s.isOpenFor 3 pc || s.clusterOpen d k [2] then s
  else if !s.clusterOpen d k [] then s.journal (s.retireType pc) pc (s.retire pc)
  else if !s.retireReady pc then s
  else
    let s := match s.fillOf d k with
      | some f => s.closeRecord 2 (slotId d k f.slot) true
      | none => s
    let s := { s with spr := { s.spr with fills := s.spr.fills.map (fun (f : Fill) => if f.die = d ∧ f.cluster = k then { f with step := 4 } else f) } }
    s.journal (s.retireType pc) pc (s.retire pc)

/-- Changes the remap for a due retirement that flash holds, closes its record, and starts the fill of the spare (R481, R482, R496). -/
def Dev.retireNow (s : Dev) (pc : Nat) : Dev :=
  let next := s.retireFill pc
  let s := { s with spr := { s.spr with due := s.spr.due.erase pc, requests := s.spr.requests.filter (fun r => r.1 != pc) } }
  let s := ((s.retire pc).closeRecord 1 pc false).closeRecord 3 pc false
  match next with
  | some (c, sp) => s.startFill c sp
  | none => s

/-- Carries a retirement on whose record is acknowledged: to flash first, and from there to the remap as soon as R17 allows (R481, R482). -/
def Dev.carryRetire (s : Dev) (f : Flash) (pc : Nat) : Dev :=
  if !f.holdsRetired pc then s.queueRetireWrite pc
  else if s.retireReady pc then s.retireNow pc
  else s

/-- A retirement request of a source: 1 diagnosis, 2 whole-device test (R480, R483). -/
def Dev.requestRetire (s : Dev) (pc source : Nat) : Dev :=
  if s.retired pc then s
  else
    let s := s.endTestOf pc
    if !s.flag Fld.SPR_POLICY_AUTO 0 && s.spr.requests.any (fun r => r.1 == pc) then s
    else if s.flag Fld.SPR_POLICY_AUTO 0 || decide (64 ≤ s.spr.requests.length) then
      if s.retireRefused pc then s.raiseDev Ev.SPR_REFUSED else s.queueRetire pc
    else { s with spr := { s.spr with requests := s.spr.requests ++ [(pc, source)] } }.raise (slotDie pc) Ev.SPR_REQUEST

/-! ### The policy (R495, R496, R506) -/

/-- A write of SPR_POLICY: it takes effect once its record is acknowledged; without a lead there is no journal, and it does at once. -/
def Dev.writePolicy (s : Dev) (v : Nat) : Dev :=
  if s.hasLead then { s with spr := { s.spr with policies := s.spr.policies ++ [v % 4] } } else s.setReg .SPR_POLICY 0 (v % 4)

/-- Writes the record of the first policy that waits. -/
def Dev.recordPolicy (s : Dev) : Dev := if s.hasLead && !s.spr.policies.isEmpty && !s.isOpenFor 7 0 then s.journal 7 0 s else s

/-- Puts the first waiting policy in force. -/
def Dev.carryPolicy (s : Dev) : Dev :=
  match s.spr.policies with
  | [] => s
  | v :: vs => (({ s with spr := { s.spr with policies := vs } } : Dev).setReg .SPR_POLICY 0 v).closeRecord 7 0 false

/-! ### Records of the switches (R471, R495) -/

/-- Writes the records of the rolling tests whose copies are complete. -/
def Dev.recordSwaps (s : Dev) : Dev :=
  if !s.hasLead then s
  else s.each (s.spr.swaps.filter (fun t => t.phase == 2 || t.phase == 5)) (fun t s =>
    let pc := slotId t.die t.cluster t.tested
    if s.clusterOpen t.die t.cluster [] then s
    else if t.phase = 2 then s.journal 4 pc (s.swapMap t) else s.journal 5 pc (s.backMap t))

/-! ### Filling (R484) -/

/-- The flash slot that holds the plan's RTEST bushel, where a plan is loaded and names one (R470, R484). -/
def Dev.rtestSlot (s : Dev) (f : Flash) (p : Nat) : Option Nat :=
  match (s.part p).plan with
  | none => none
  | some pl => if pl.rtest = 0 then none else f.bushels.findIdx? (fun b => b.valid && b.id == pl.rtest)

/-- The plan's RTEST bushel, where a flash slot holds it. -/
def Dev.rtestBushel (s : Dev) (f : Flash) (p : Nat) : Option BushelRec := (s.rtestSlot f p).bind (fun n => f.bushels[n]?)

/-- Step 3 and 4 of a fill (R484). Without a plan the fill just ends: in bring-up with the store zero (R518), else with what the slot's
store holds, which is open. -/
def Dev.finishFill (s : Dev) (fl : Fill) : Dev :=
  let p := s.partOf fl.die
  let s := s.fillCoreState fl.core
  let s := if 2 ≤ s.planState p then s.refill p fl.core
    else if s.dieStage fl.die = stCores then s.zeroStride fl.core
    else s
  (s.endFill fl.die fl.cluster).stopIdle p

/-- Sets the step of a fill. -/
def Dev.setFillStep (s : Dev) (d k n : Nat) (b : Option BushelRec) : Dev :=
  { s with spr := { s.spr with fills := s.spr.fills.map (fun f => if f.die = d ∧ f.cluster = k then { f with step := n, bushel := b } else f) } }

/-- What follows a passed self-test: the bushel where R484 asks for it, else the content where a plan is loaded, else the end. -/
def Dev.afterSelfTest (s : Dev) (f : Flash) (fl : Fill) : Dev :=
  let p := s.partOf fl.die
  if s.planState p < 2 then s.finishFill fl
  else match (s.rtestBushel f p).filter (fun _ => s.flag Fld.SPR_POLICY_RTESTFILL 0) with
    | some b => s.setFillStep fl.die fl.cluster 2 (some b)
    | none => s.setFillStep fl.die fl.cluster 3 none

/-- A failed self-test or bushel of a fill: the slot is to be retired, which ends the fill and leaves the cluster short (R488). -/
def Dev.failFill (s : Dev) (fl : Fill) : Dev :=
  let pc := slotId fl.die fl.cluster fl.slot
  ((s.closeRecord 2 pc true).setFillStep fl.die fl.cluster 4 none).queueRetire pc

/-- The fills that end because their partition's plan is unloaded: those past the self-test, where the lead may act on them (R488, R492). -/
def Dev.unloadFills (s : Dev) (p : Nat) : Dev :=
  s.each (s.spr.fills.filter (fun f => s.partOf f.die == p && (f.step == 2 || f.step == 3))) (fun f s =>
    if s.mayAct 2 (slotId f.die f.cluster f.slot) then s.finishFill f else s)

end Sys2Proof.Machine
end

