-- ==== Sys2Proof/Machine/PlanImage.lean ====
section
/-!
DEFINITION. Reading a plan image: its header, section table and sections, with the checks of steps 1, 2 and 5 of R296 (R281
to R293, R301, R308, R309, R378, R390, R391, R475).
-/
namespace Sys2Proof.Machine

/-- A reader of an image: the little-endian number in `n` bytes at byte offset `o`. -/
abbrev Reader := Nat → Nat → Nat

/-- An entry of the section table (R282). -/
structure Sect where
  typ : Nat
  off : Nat
  len : Nat
  deriving DecidableEq, Repr

/-- First byte and end of a section. -/
def Sect.lo (x : Sect) : Nat := x.off * tileSize
def Sect.hi (x : Sect) : Nat := x.lo + x.len

/-- Byte ranges [lo, hi) that a layout names. -/
abbrev Ranges := List (Nat × Nat)

/-- Largest image: 64 GiB (R281). -/
def planMax : Nat := 64 * 2 ^ 30

/-- The header's checks (R282): step 1 of R296 apart from the window. `dies` is the mask of the partition's dies. -/
def headerOk (rd : Reader) (dies : Nat) : Bool :=
  decide (rd 0 8 = 0x4E414C5034585446) && decide (rd 8 2 = 1) && decide (1 ≤ rd 10 2) && decide (rd 10 2 ≤ 32)
    && decide (rd 12 4 = 0) && decide (rd 16 8 % tileSize = 0) && decide (0 < rd 16 8) && decide (rd 16 8 ≤ planMax)
    && decide (rd 28 1 = dies) && decide (rd 29 3 = 0) && decide (rd 40 24 = 0)

/-- The section table. -/
def sections (rd : Reader) : List Sect :=
  (List.range (rd 10 2)).map (fun i => ⟨rd (64 + 16 * i) 2, rd (68 + 16 * i) 4, rd (72 + 16 * i) 8⟩)

/-- The section types, and those that must be present (R283). -/
def sectTypes : List Nat := [1, 2, 3, 4, 5, 6, 7, 8, 9, 0xA, 0xB, 0xC, 0xFF]
def sectRequired : List Nat := [1, 2, 3, 8, 9, 0xA, 0xB, 0xC]

/-- The section of a type. -/
def findSect (ss : List Sect) (t : Nat) : Option Sect := ss.find? (fun x => x.typ == t)

/-- The section table's checks (R282, R283): step 2 of R296. -/
def tableOk (rd : Reader) : Bool :=
  let ss := sections rd
  let n := ss.length
  let len := rd 16 8
  let types := ss.map (fun x => x.typ)
  (List.range n).all (fun i => decide (rd (66 + 16 * i) 1 = 1) && decide (rd (67 + 16 * i) 1 = 0))
    && types.all sectTypes.contains && decide (types.eraseDups.length = n) && sectRequired.all types.contains
    && ss.all (fun x => decide (x.off ≠ 0) && decide (64 + 16 * n ≤ x.lo) && decide (x.hi ≤ len))
    && ss.zipIdx.all (fun x => ss.zipIdx.all (fun y => decide (x.2 = y.2) || decide (x.1.hi ≤ y.1.lo) || decide (y.1.hi ≤ x.1.lo)))
    && (match findSect ss 0xFF with
      | some x => decide ((ss.getLast?).map (fun y => y.typ) = some 0xFF) && decide (x.len = tileSize) && decide (x.hi = len)
      | none => true)

/-- Whether every non-zero byte of an image lies in a named range; memory lists no zero byte (R281). -/
def namedOnly (m : Memory) (a len : Nat) (named : Ranges) : Bool :=
  (SMap.window m a (a + len)).all (fun e => named.any (fun r => decide (r.1 ≤ e.1 - a) && decide (e.1 - a < r.2)))

/-- Bytes from offset `lo` of an image, with zero in place of what no range names: content tiles may lie inside a section, and a
context's routing and membership hold none of them (R337). -/
def namedBytes (lo : Nat) (named : Ranges) (bs : List Byte) : List Byte :=
  bs.zipIdx.map (fun x => if named.any (fun r => decide (r.1 ≤ lo + x.2) && decide (lo + x.2 < r.2)) then x.1 else 0)

/-! ### CORES, PROGRAM, RESIDENT, RELOC (R285, R286, R291 to R293) -/

/-- The CORES records and whether they follow R291. -/
def parseCores (rd : Reader) (x : Sect) (dies : List Nat) : List CoresRec × Bool :=
  let rs := dies.zipIdx.map (fun d =>
    let b := x.lo + 80 * d.2
    (⟨rd b 1, rd (b + 8) 34, rd (b + 42) 34⟩ : CoresRec))
  let used := rs.foldl (fun n r => n + popcount 272 r.use) 0
  (rs, decide (x.len = 80 * dies.length) && decide (rs.map (fun r => r.die) = dies) && rs.all (fun r => decide (r.use &&& r.vac = 0))
    && decide (rd 24 4 = 16 * used))

/-- Whether a plan cluster is in USE. -/
def inUse (rs : List CoresRec) (d k : Nat) : Bool := rs.any (fun r => r.die == d && decide (k < 272) && r.use.testBit k)

/-- The plan cores of the used clusters, ascending. -/
def planIds (rs : List CoresRec) : List Nat :=
  rs.flatMap (fun r => (setBits 272 r.use).flatMap (fun k => (List.range 16).map (coreId r.die k)))

/-- The PROGRAM records (the serving core is filled in by the binding) and whether they follow R285. -/
def parseProgram (rd : Reader) (x : Sect) (ids : List Nat) : List PlanCore × Bool :=
  let tiles := rd 16 8 / tileSize
  let rs := ids.zipIdx.map (fun id =>
    let b := x.lo + 16 * id.2
    (⟨rd b 2, 0, rd (b + 4) 4, rd (b + 8) 4, rd (b + 12) 2⟩ : PlanCore))
  (rs, decide (16 * ids.length ≤ x.len) && decide (rs.map (fun r => r.plan) = ids) && rs.all (fun r =>
    decide (r.entry % 8 = 0) && decide (r.entry < 0xFF000) && decide (1 ≤ r.ntiles) && decide (r.ntiles ≤ 255)
      && decide (r.tile + r.ntiles ≤ tiles)))

/-- The RESIDENT records and whether they follow R286. -/
def Dev.parseResident (s : Dev) (p : Nat) (rd : Reader) (x : Option Sect) : List Resident × Bool :=
  match x with
  | none => ([], true)
  | some x =>
    let tiles := rd 16 8 / tileSize
    let rs := (List.range (x.len / 16)).map (fun i =>
      let b := x.lo + 16 * i
      (⟨rd b 8, rd (b + 8) 4, rd (b + 12) 4⟩ : Resident))
    (rs, decide (x.len % 16 = 0) && rs.all (fun r =>
      decide (r.dest < 2 ^ 52) && decide (r.tile + r.count ≤ tiles) && s.tilesInHbm p r.dest (max 1 r.count)))

/-- The RELOC entries and whether they follow R293. -/
def parseReloc (rd : Reader) (x : Option Sect) (cores : List CoresRec) : List Reloc × Bool :=
  match x with
  | none => ([], true)
  | some x =>
    let es := (List.range (x.len / 8)).map (fun i => rd (x.lo + 8 * i) 8)
    (es.map (fun e => ⟨bits e 39 0, bits e 41 40⟩), decide (x.len % 8 = 0) && es.all (fun e =>
      let off := bits e 39 0
      let kind := bits e 41 40
      let v := rd off 8
      let t := relocTarget kind v
      decide (e < 2 ^ 42) && decide (off % 8 = 0) && decide (off + 8 ≤ rd 16 8) && decide (kind < 3) && inUse cores t.1 t.2))

/-! ### BARRIER, SCHEDULE, CHAIN, CHECK (R263, R308, R309, R475) -/

/-- Reads `n` barrier entries from a byte offset: plan core IDs of each, and where they end (R283). -/
def parseBarriers (rd : Reader) : Nat → Nat → List (List Nat) → List (List Nat) × Nat
  | 0, o, acc => (acc, o)
  | n + 1, o, acc =>
    let c := rd o 2
    parseBarriers rd n (o + 2 + 2 * c) (acc ++ [(List.range c).map (fun i => rd (o + 2 + 2 * i) 2)])

/-- The barriers and whether the section is exactly 64 entries. -/
def barriersOf (rd : Reader) (x : Option Sect) : List (List Nat) × Bool :=
  match x with
  | none => ([], true)
  | some x =>
    let r := parseBarriers rd 64 x.lo []
    (r.1, decide (r.2 = x.hi))

/-- The schedule entries. -/
def schedEntries (rd : Reader) (x : Sect) : List SchedEntry :=
  (List.range (rd x.lo 4)).map (fun i =>
    let b := x.lo + 16 + 16 * i
    ⟨rd b 4, rd (b + 4) 1, rd (b + 6) 2, rd (b + 8) 4, rd (b + 12) 4⟩)

/-- Whether the offsets of a list of entries never fall. -/
def ascending : List Nat → Bool
  | a :: b :: xs => decide (a ≤ b) && ascending (b :: xs)
  | _ => true

/-- The kinds of R309. -/
def kindPhase : Nat := 1
def kindVote : Nat := 2
def kindFlip : Nat := 3
def kindDrain : Nat := 4
def kindSwap : Nat := 5

/-- The SCHEDULE section's checks (R309, R391). A SWAP entry must name a core whose cluster the plan uses (DESIGN CHOICE, assumption 83). -/
def scheduleOk (rd : Reader) (x : Sect) (cores : List CoresRec) (g : Groups) : Bool :=
  let es := schedEntries rd x
  let n := rd x.lo 4
  let gap := rd (x.lo + 4) 4
  let votes := es.filter (fun e => e.kind == kindVote)
  let flips := es.filter (fun e => e.kind == kindFlip)
  let phases := es.filter (fun e => e.kind == kindPhase)
  decide (2 ≤ n) && decide (n ≤ 65536) && decide (1 ≤ gap) && decide (gap ≤ 2 ^ 20) && decide (rd (x.lo + 8) 8 = 0)
    && decide (x.len = 16 + 16 * n) && ascending (es.map (fun e => e.offset))
    && es.all (fun e => decide (1 ≤ e.kind) && decide (e.kind ≤ 5))
    && (List.range n).all (fun i => decide (rd (x.lo + 21 + 16 * i) 1 = 0))
    && es.all (fun e => e.kind == kindPhase || decide (e.obj = 0))
    && es.all (fun e => decide (e.arg = 0) || !(e.kind == kindFlip || e.kind == kindDrain))
    && es.all (fun e => e.kind != kindSwap || (decide (e.arg < 2 ^ 16) && decide (e.offset = 0) && inUse cores (coreDie e.arg) (coreCluster e.arg)))
    && (match votes, flips with
      | [v], [f] => decide (v.every = 0) && decide (f.every = 0) && decide (v.offset < v.arg) && decide (v.arg < f.offset)
          && es.all (fun e => e.kind == kindVote || e.kind == kindFlip || decide (e.offset < v.offset))
      | _, _ => false)
    && phases.all (fun e => match g.find e.obj with
      | some (_, r) => decide (e.arg < r.expects.length)
      | none => false)
    && phases.all (fun e => decide ((phases.filter (fun e' => e'.obj == e.obj && e'.arg == e.arg)).length = 1))
    && phases.all (fun e => phases.all (fun e' => e'.obj != e.obj || decide (e'.arg ≤ e.arg) || decide (e.offset ≤ e'.offset)))

/-- The chain configuration as the registers hold it: CHN_CTL, CHN_CFG, CHN_FWD (R316). -/
structure ChainCfg where
  ctl : Nat
  cfg : Nat
  fwd : Nat
  deriving DecidableEq, Repr

/-- The CHAIN section and whether it follows R301 and R308. -/
def parseChain (rd : Reader) (x : Sect) : ChainCfg × Bool :=
  let period := rd x.lo 1
  let src := rd (x.lo + 1) 1
  let prim := rd (x.lo + 2) 1
  let alt := rd (x.lo + 3) 1
  let mid := rd (x.lo + 4) 4
  let hor := rd (x.lo + 8) 2
  let skew := rd (x.lo + 10) 2
  let fwd := rd (x.lo + 12) 5
  (⟨period + 16 * src + 256 * prim + 65536 * alt, mid + 2 ^ 32 * hor + 2 ^ 48 * skew, fwd⟩,
    decide (x.len = 32) && decide (period ≤ 8) && decide (1 ≤ src) && decide (src ≤ 3) && decide (prim ≤ 35) && (decide (src = 1) || decide (prim = 0))
      && (decide (alt ≤ 35) || decide (alt = 0xFF)) && decide (hor ≠ 0) && (decide (src = 2) || decide (skew = 0)) && decide (fwd < 2 ^ 36))

/-- The CHECK section: CHK_CTL as it will be loaded, the rolling-test bushel, and whether the section follows R475. -/
def parseCheck (rd : Reader) (x : Sect) : Nat × Nat × Bool :=
  let b0 := rd x.lo 1
  let margin := rd (x.lo + 1) 1
  (b0 % 4 + 4 * margin + 32 * (b0 / 4), rd (x.lo + 4) 4, decide (x.len = 64) && decide (b0 < 8) && decide (margin < 8))

/-! ### GROUPS (R389 to R391) -/

/-- A list of `n` little-endian numbers of `w` bytes, at intervals of `st`. -/
def numbers (rd : Reader) (o st w n : Nat) : List Nat := (List.range n).map (fun i => rd (o + st * i) w)

/-- Whether an offset of a list is a multiple of 4 and the list lies inside a section of `len` bytes. -/
def listInside (off bytes len : Nat) : Bool := decide (off % 4 = 0) && decide (off + bytes ≤ len)

/-- A group record at an offset: the record, the ranges it names, and whether its own fields follow R389 to R391. -/
def parseGroup (rd : Reader) (x : Sect) (b self part : Nat) : GroupRec × Ranges × Bool :=
  let size := rd (b + 4) 2
  let nph := rd (b + 8) 2
  let mo := rd (b + 12) 4
  let po := rd (b + 16) 4
  let ro := rd (b + 20) 4
  let nr := rd (b + 24) 2
  let at_ (i : Nat) : Nat := x.lo + mo + 16 * i
  let ms := (List.range size).map (fun i => (rd (at_ i) 8, rd (at_ i + 8) 2, rd (at_ i + 10) 1, rd (at_ i + 12) 2))
  let r : GroupRec :=
    { gid := rd b 2, rank := rd (b + 2) 2, size := size, alg := rd (b + 6) 1, tfmt := rd (b + 7) 1, notice := rd (b + 10) 2
      members := ms, expects := numbers rd (x.lo + po) 4 4 nph, routes := numbers rd (x.lo + ro) 2 2 nr }
  let named : Ranges :=
    [(b, b + 26), (x.lo + po, x.lo + po + 4 * nph), (x.lo + ro, x.lo + ro + 2 * nr)]
      ++ (List.range size).flatMap (fun i => [(at_ i, at_ i + 11), (at_ i + 12, at_ i + 14)])
  let me := ms.getD r.rank (0, 0x10000, 0, 0)
  (r, named, decide (r.gid < 0xFFFE) && decide (1 ≤ size) && decide (size ≤ 24576) && decide (1 ≤ nph) && decide (nph ≤ 4096) && [3, 4, 7, 8].contains r.tfmt
    && listInside mo (16 * size) x.len && listInside po (4 * nph) x.len && listInside ro (2 * nr) x.len
    && decide (r.rank < size) && ms.all (fun m => decide (m.2.1 < 4096) && decide (m.2.2.1 < 8)) && decide (me.2.1 = self) && decide (me.2.2.1 = part))

/-- A transit record at an offset. -/
def parseTransit (rd : Reader) (x : Sect) (b : Nat) : TransitRec × Ranges × Bool :=
  let ro := rd (b + 4) 4
  let nr := rd (b + 8) 2
  (⟨rd b 2, rd (b + 2) 2, numbers rd (x.lo + ro) 2 2 nr⟩, [(b, b + 10), (x.lo + ro, x.lo + ro + 2 * nr)], listInside ro (2 * nr) x.len)

/-- The GROUPS section: its contents, the ranges it names, and whether it follows R389 to R391 for a partition of a device
with pod index `self` whose routes are `routes`. -/
def parseGroups (rd : Reader) (x : Sect) (part : Nat) (fab : Fabric) : Groups × Ranges × Bool :=
  let o := x.lo
  let ng := rd (o + 4) 2
  let nt := rd (o + 6) 2
  let nc := rd (o + 10) 1
  let root := rd (o + 11) 1
  let cb (c : Nat) : Nat := o + 64 + 16 * c
  let gs := (List.range ng).map (fun i => parseGroup rd x (o + 320 + 32 * i) fab.self part)
  let ts := (List.range nt).map (fun i => parseTransit rd x (o + 320 + 32 * ng + 16 * i))
  let g : Groups :=
    { scopeId := rd o 4, total := rd (o + 8) 2, root := decide (root = 1), parentPod := rd (o + 12) 2, parentPart := rd (o + 14) 1
      upRoute := rd (o + 16) 2, upAlt := rd (o + 18) 2, upDeadline := rd (o + 20) 4, settle := rd (o + 24) 4
      children := (List.range nc).map (fun c => ⟨rd (cb c) 2, rd (cb c + 2) 1, rd (cb c + 4) 2, rd (cb c + 6) 2⟩)
      groups := gs.map (fun r => r.1), transits := ts.map (fun r => r.1) }
  let named : Ranges := [(o, o + 15), (o + 16, o + 28)] ++ (List.range 16).flatMap (fun c => [(cb c, cb c + 3), (cb c + 4, cb c + 8)])
    ++ gs.flatMap (fun r => r.2.1) ++ ts.flatMap (fun r => r.2.1)
  let gids := g.groups.map (fun r => r.gid)
  let known (r : Nat) : Bool := fab.routes.any (fun e => e.route == r)
  let optional (r : Nat) : Bool := decide (r = 0xFFFF) || known r
  (g, named, decide (320 + 32 * ng + 16 * nt ≤ x.len) && decide (g.scopeId ≠ 0) && decide (ng ≤ 1024) && decide (nt ≤ 1024) && decide (1 ≤ g.total)
    && decide (g.total ≤ 24576) && decide (nc ≤ 16) && decide (root < 2) && decide (g.parentPod < 4096) && decide (g.parentPart < 8)
    && (!g.root || (decide (g.parentPod = 0) && decide (g.upRoute = 0))) && (g.root || known g.upRoute) && optional g.upAlt
    && g.children.all (fun c => decide (c.pod < 4096) && decide (c.part < 8) && known c.down && optional c.downAlt)
    && gs.all (fun r => r.2.2) && ts.all (fun r => r.2.2)
    && decide (gids.eraseDups.length = gids.length) && g.transits.all (fun t => decide (t.gid < 0xFFFE) && !gids.contains t.gid && known t.notice && t.routes.all known)
    && g.groups.all (fun r => (if r.rank = 0 then optional r.notice else known r.notice) && r.routes.all known && r.members.all (fun m => optional m.2.2.2)))

/-! ### FORMAT (R172, R180, R195) -/

/-- The fields of the FORMAT section, whose layout the spec does not give (assumption 10). -/
def fmtSatmax : Nat := 0
def fmtUndmax : Nat := 1
def fmtFbfmt : Nat := 2
def fmtSens : Nat := 3
def fmtValid : Nat := 4
def fmtSfmt : Nat := 5
def fmtCost : Nat := 6
def fmtWork : Nat := 7
def fmtTotal : Nat := 8
def fmtBase : Nat := 9

/-- A field of a FORMAT section; 0 without one. -/
def formatNum (sec : Option (List Byte)) (f n : Nat) : Nat :=
  match sec with
  | some b => Config.formatField f n b
  | none => 0

/-- Whether the fall-back region is tile-aligned and lies in the payload of one stack of the partition (R180). -/
def Dev.regionOk (s : Dev) (p base tiles : Nat) : Bool :=
  decide (base % tileSize = 0) && (decide (tiles = 0) || (s.tilesInHbm p base tiles && decide (base / stackSize = (base + tiles * tileSize - 1) / stackSize)))

end Sys2Proof.Machine
end

