-- ==== Sys2Proof/Machine/Format.lean ====
section
/-!
DEFINITION. Fall-back of monitored layers (R170 to R197): requests, storms, grants, reversals and packing, over the monitor
table of a partition's lowest die.
-/
namespace Sys2Proof.Machine

/-- The index of monitor `n` of a partition in a monitor register. -/
def monIdx (p n : Nat) : Nat := dieIdx .FMT_MON_STATE p n

/-- Whether monitor `n` is a valid entry, and whether it is a valid monitored one (R172). -/
def Dev.monValid (s : Dev) (p n : Nat) : Bool := s.flag Fld.FMT_MON_CFG_VALID (monIdx p n)
def Dev.monitored (s : Dev) (p n : Nat) : Bool := s.monValid p n && !s.flag Fld.FMT_MON_CFG_SENS (monIdx p n)

/-- The monitor indices. -/
def monitors : List Nat := List.range 1024

/-- The test of R176 on a monitor's tallies. -/
def Dev.monTest (s : Dev) (p n : Nat) : Bool :=
  let i := monIdx p n
  let t (f : Fld) : Nat := s.fld f i
  decide (t Fld.FMT_MON_CFG_SATMAX * t Fld.FMT_MON_BLK_COUNT < t Fld.FMT_MON_SAT_COUNT * 65536)
    || decide (t Fld.FMT_MON_CFG_UNDMAX * t Fld.FMT_MON_NZ_COUNT < t Fld.FMT_MON_ZERO_COUNT * 65536)
    || decide (1 ≤ t Fld.FMT_MON_CLIP_COUNT)

/-- Evaluates the requests of a partition (R176). -/
def Dev.evalRequests (s : Dev) (p : Nat) : Dev :=
  s.each (monitors.filter (s.monitored p)) (fun n s =>
    let i := monIdx p n
    let req := !s.flag Fld.FMT_MON_STATE_FB i && !s.flag Fld.FMT_CTL_FREEZE p && s.monTest p n
    s.setFld Fld.FMT_MON_STATE_REQ i (b2n req))

/-- Whether a request map is a storm: twice the work of its valid layers exceeds the work of every valid entry (R179). A bit of the map whose
monitor is sensitive here counts, and one whose monitor is not valid does not (DESIGN CHOICE, assumption 78). -/
def Dev.storm (s : Dev) (p map : Nat) : Bool :=
  let work (ns : List Nat) : Nat := ns.foldl (fun a n => a + s.fld Fld.FMT_MON_SIZE_WORK (monIdx p n)) 0
  let valid := monitors.filter (s.monValid p)
  decide (work valid < 2 * work (valid.filter (fun n => map.testBit n)))

/-- One monitor's grant or denial at a commit; the Bool says that the budget is used up for the step (R180). -/
def Dev.grantOne (p map step : Nat) (acc : Dev × Bool) (n : Nat) : Dev × Bool :=
  let s := acc.1
  let i := monIdx p n
  if !map.testBit n || !s.monitored p n || s.flag Fld.FMT_MON_STATE_FB i then acc
  else
    let used := s.fld Fld.FMT_BUDGET_USED p + s.fld Fld.FMT_MON_SIZE_COST i
    if !acc.2 && decide (used ≤ s.fld Fld.FMT_BUDGET_TOTAL p) then
      let s := (s.setFld Fld.FMT_BUDGET_USED p used).setFld Fld.FMT_MON_STATE_FB i 1
      let s := s.setFld Fld.FMT_MON_STATE_FMT i (s.fld Fld.FMT_MON_CFG_FBFMT i)
      ((s.setFld Fld.FMT_MON_STATE_GSTEP i step).raise p Ev.FALLBACK_GRANTED, acc.2)
    else ((s.setFld Fld.FMT_MON_STATE_DEN i 1).raise p Ev.FALLBACK_DENIED, true)

/-- Grants and denials of the combined map, in ascending monitor index (R180). -/
def Dev.grants (s : Dev) (p map step : Nat) : Dev :=
  let s := s.each (monitors.filter (s.monitored p)) (fun n s => s.setFld Fld.FMT_MON_STATE_DEN (monIdx p n) 0)
  (monitors.foldl (Dev.grantOne p map step) (s, false)).1

/-- The fall-back state of a partition's monitors, as a drain records it: zero for an entry that is not monitored (R189, R339 step 4). -/
def Dev.monSnaps (s : Dev) (p : Nat) : List MonSnap :=
  monitors.map (fun n => if s.monitored p n then ⟨s.reg .FMT_MON_STATE (monIdx p n), s.reg .FMT_MON_RVSTEP (monIdx p n)⟩ else ⟨0, 0⟩)

/-- Applies the reversals whose target is the step that starts (R184). -/
def Dev.applyReversals (s : Dev) (p : Nat) : Dev :=
  let step := s.fld Fld.STEP_CTR_STEP p
  let due := monitors.filter (fun n => s.flag Fld.FMT_MON_STATE_RVPEND (monIdx p n) && s.fld Fld.FMT_MON_RVSTEP_RVSTEP (monIdx p n) == step)
  let s := s.each due (fun n s =>
    let i := monIdx p n
    let s := s.setFld Fld.FMT_MON_STATE_RVPEND i 0
    if s.flag Fld.FMT_MON_STATE_FB i then
      let s := (s.setFld Fld.FMT_MON_STATE_FB i 0).setFld Fld.FMT_MON_STATE_FMT i 0
      s.setFld Fld.FMT_BUDGET_USED p (s.fld Fld.FMT_BUDGET_USED p - s.fld Fld.FMT_MON_SIZE_COST i)
    else s)
  s.setPart p { s.part p with rvApplied := due }

/-- The reversals that a step applied are committed: their pending targets are gone, a later one accepted since apart (R184, R189). -/
def Dev.endReversals (s : Dev) (p : Nat) : Dev :=
  let s := s.each ((s.part p).rvApplied.filter (fun n => !s.flag Fld.FMT_MON_STATE_RVPEND (monIdx p n))) (fun n s => s.setReg .FMT_MON_RVSTEP (monIdx p n) 0)
  s.setPart p { s.part p with rvApplied := [] }

/-- Undoes a step's reversals at its abort: what they changed is as committed, and they are pending again (R184, R189), with the target of a
later FMT_REVERT where one was accepted since (DESIGN CHOICE, assumption 78). -/
def Dev.undoReversals (s : Dev) (p : Nat) : Dev :=
  let x := s.part p
  let s := s.each x.rvApplied (fun n s =>
    let i := monIdx p n
    let was := (x.fbSnap.getD n ⟨0, 0⟩).state
    let s := (s.setFld Fld.FMT_MON_STATE_FMT i (was % 16)).setFld Fld.FMT_MON_STATE_FB i (was / 16 % 2)
    s.setFld Fld.FMT_MON_STATE_RVPEND i 1)
  let s := if x.rvApplied.isEmpty then s else s.setFld Fld.FMT_BUDGET_USED p x.fbUsed
  s.setPart p { s.part p with rvApplied := [] }

/-- Packs the fall-back region (R182): each layer whose FB is 1 in ascending index; 0 for the others. -/
def Dev.packRegion (s : Dev) (p : Nat) : Dev :=
  let base := match (s.part p).plan with
    | some pl => pl.regionBase
    | none => 0
  (monitors.foldl (fun (acc : Dev × Nat) n =>
    let i := monIdx p n
    if acc.1.flag Fld.FMT_MON_STATE_FB i then
      (acc.1.setFld Fld.FMT_MON_BASE_ADDR i acc.2, acc.2 + tileSize * acc.1.fld Fld.FMT_MON_SIZE_COST i)
    else (acc.1.setFld Fld.FMT_MON_BASE_ADDR i 0, acc.2)) (s, base)).1

/-- The format digest of a partition's fall-back state (R178). -/
def Dev.formatDigest (s : Dev) (p : Nat) : Nat :=
  crc32 (leBytes 128 (ofBits (monitors.filter (fun n => s.flag Fld.FMT_MON_STATE_FB (monIdx p n)))))

/-- The six tally registers. -/
def tallyRegs : List RegKind := [.FMT_MON_BLK, .FMT_MON_SAT, .FMT_MON_ZERO, .FMT_MON_NZ, .FMT_MON_EXTRACT, .FMT_MON_CLIP]

/-- Sets the tallies to zero (R174). -/
def Dev.zeroTallies (s : Dev) (p : Nat) : Dev :=
  s.each monitors (fun n s => s.each tallyRegs (fun k s => s.setReg k (monIdx p n) 0))

/-- A write of FMT_REVERT (R184, R185, R194). -/
def Dev.revert (s : Dev) (p v : Nat) : Dev :=
  let layer := v % 1024
  let all := v.testBit 10
  let step := bits v 50 11
  let cur := s.fld Fld.STEP_CTR_STEP p
  let late := if (s.part p).stepping then decide (step ≤ cur) else decide (step < cur)
  if s.planState p < 2 || late || (!all && !s.monitored p layer) then s.raise p Ev.FALLBACK_REVERT_REFUSED
  else
    let ns := if all then monitors.filter (s.monitored p) else [layer]
    s.each ns (fun n s => (s.setFld Fld.FMT_MON_STATE_RVPEND (monIdx p n) 1).setFld Fld.FMT_MON_RVSTEP_RVSTEP (monIdx p n) step)

/-- Clears the monitor table and the format registers of a partition (R190). FREEZE, STORM and SPLIT are cleared with them, and do not stand
again when a plan is loaded (DESIGN CHOICE, assumption 83). -/
def Dev.clearFormat (s : Dev) (p : Nat) : Dev :=
  let s := s.each [RegKind.FMT_CTL, .FMT_STAT, .FMT_BUDGET] (fun k s => s.setReg k p 0)
  s.each monitors (fun n s => s.each ([RegKind.FMT_MON_CFG, .FMT_MON_SIZE, .FMT_MON_STATE, .FMT_MON_BASE, .FMT_MON_RVSTEP] ++ tallyRegs)
    (fun k s => s.setReg k (monIdx p n) 0))

/-- Fills the monitor table from the FORMAT section; the current format of a sensitive layer is its SFMT (R171, R172, R180, R189, R195,
R196). -/
def Dev.loadFormat (s : Dev) (p : Nat) (sec : Option (List Byte)) : Dev :=
  let g := formatNum sec
  let s := (s.clearFormat p).setFld Fld.FMT_BUDGET_TOTAL p (g fmtTotal 0)
  s.each monitors (fun n s =>
    let i := monIdx p n
    let cfg := g fmtSatmax n % 2 ^ 16 + 2 ^ 16 * (g fmtUndmax n % 2 ^ 16) + 2 ^ 32 * (g fmtFbfmt n % 16)
      + 2 ^ 36 * (g fmtSens n % 2) + 2 ^ 37 * (g fmtValid n % 2) + 2 ^ 38 * (g fmtSfmt n % 16)
    let s := (s.setReg .FMT_MON_CFG i cfg).setReg .FMT_MON_SIZE i (g fmtCost n % 2 ^ 28 + 2 ^ 28 * (g fmtWork n % 2 ^ 36))
    if s.monValid p n && !s.monitored p n then s.setReg .FMT_MON_STATE i (s.fld Fld.FMT_MON_CFG_SFMT i) else s)

end Sys2Proof.Machine
end

