-- ==== Sys2Proof/Machine/ContextImage.lean ====
section
/-!
DEFINITION. The commit table (R319, R320) and the context image that a drain writes (R337).
-/
namespace Sys2Proof.Machine

/-- An entry of the commit table: the two copies and their length in tiles (R319). -/
structure CtabEntry where
  copy0 : Nat
  copy1 : Nat
  tiles : Nat
  deriving DecidableEq, Repr

/-- The entries of the commit table at an address. -/
def Dev.ctabAt (s : Dev) (a : Nat) : List CtabEntry :=
  let rd (o n : Nat) : Nat := Memory.num s.mem (a + o) n
  (List.range (rd 0 4)).map (fun i => ⟨rd (16 + 32 * i) 8, rd (24 + 32 * i) 8, rd (32 + 32 * i) 4⟩)

/-- Whether no two of a list of (start, end) ranges overlap. -/
def disjoint : List (Nat × Nat) → Bool
  | [] => true
  | r :: rs => rs.all (fun q => decide (r.2 ≤ q.1) || decide (q.2 ≤ r.1)) && disjoint rs

/-- The checks of R320 on the table at an address, the table itself in HBM payload (R319). -/
def Dev.ctabOk (s : Dev) (p a : Nat) : Bool :=
  let rd (o n : Nat) : Nat := Memory.num s.mem (a + o) n
  let n := rd 0 4
  let es := s.ctabAt a
  decide (1 ≤ n) && decide (n ≤ 65535) && s.tilesInHbm p a ((16 + 32 * n + tileSize - 1) / tileSize) && decide (rd 4 12 = 0)
    && (List.range n).all (fun i => decide (rd (36 + 32 * i) 12 = 0))
    && es.all (fun e => decide (1 ≤ e.tiles) && decide (e.copy0 < 2 ^ 52) && decide (e.copy1 < 2 ^ 52)
      && s.tilesInHbm p e.copy0 e.tiles && s.tilesInHbm p e.copy1 e.tiles)
    && disjoint (es.flatMap (fun e => [(e.copy0, e.copy0 + e.tiles * tileSize), (e.copy1, e.copy1 + e.tiles * tileSize)]))

/-- The commit table in force; empty while STEP_CTAB is zero (R320). -/
def Dev.ctab (s : Dev) (p : Nat) : List CtabEntry := if s.reg .STEP_CTAB p = 0 then [] else s.ctabAt (s.reg .STEP_CTAB p)

/-- The front copy of an entry. -/
def CtabEntry.front (e : CtabEntry) (front : Bool) : Nat := if front then e.copy1 else e.copy0

/-- The tiles of the front copies, in the table's order. -/
def Dev.frontTiles (s : Dev) (p : Nat) : List Nat :=
  let front := s.flag Fld.STEP_STAT_FRONT p
  (s.ctab p).flatMap (fun e => (List.range e.tiles).map (fun i => e.front front + i * tileSize))

/-- Bytes padded with zeros to whole tiles. -/
def padTile (bs : List Byte) : List Byte := bs ++ zeros ((tileSize - bs.length % tileSize) % tileSize)

/-- Tiles that hold `n` bytes. -/
def tilesFor (n : Nat) : Nat := (n + tileSize - 1) / tileSize

/-- A lane record (R337). -/
def laneRecord (plan l : Nat) (x : Lane) : List Byte :=
  leBytes 2 plan ++ leBytes 1 l ++ [0] ++ leBytes 12 x.state.toNat ++ leBytes 6 x.count.toNat ++ [0, 0] ++ leBytes 6 x.count.toNat ++ [0, 0]

/-- The LANES section: every lane of every plan core in ascending order, as committed. -/
def Dev.lanesSection (s : Dev) (pl : Plan) : List Byte :=
  pl.cores.flatMap (fun c => (List.range 32).flatMap (fun l => laneRecord c.plan l (SMap.read {} (s.core c.core).committed l)))

/-- The bits of FMT_MONn_STATE that a context holds: FMT, FB, RVPEND and GSTEP (R337). -/
def stateMask (v : Nat) : Nat := v % 32 + 128 * (v / 128 % 2 ^ 41)

/-- The FORMAT section of a context image. -/
def formatSection (mons : List MonSnap) (used : Nat) : List Byte :=
  leBytes 16 (used % 2 ^ 28) ++ mons.flatMap (fun m => leBytes 8 (stateMask m.state) ++ leBytes 8 m.rvstep)

/-- A section table entry (R282). -/
def sectEntry (typ off len : Nat) : List Byte := leBytes 2 typ ++ [1, 0] ++ leBytes 4 off ++ leBytes 8 len

/-- The lengths in tiles of the sections before SCRUPLES: header, LANES, FORMAT, GROUPS, TENSORS. -/
def Dev.contextTiles (s : Dev) (p : Nat) (pl : Plan) : List Nat :=
  [1, tilesFor (1024 * pl.cores.length), tilesFor 16400, tilesFor (pl.fabricBytes.length + pl.groupsBytes.length),
    (s.ctab p).foldl (fun n e => n + e.tiles) 0]

/-- Sum of a list. -/
def sum (xs : List Nat) : Nat := xs.foldl (· + ·) 0

/-- CTX_SIZE: the image length in tiles for the loaded plan and commit table; 0 without a plan (R338, R344). -/
def Dev.contextSize (s : Dev) (p : Nat) : Nat :=
  match (s.part p).plan with
  | none => 0
  | some pl =>
    let n := sum (s.contextTiles p pl)
    n + tilesFor (8 * n)

/-- The context image of a partition's committed state with the given step number and fall-back state (R332, R337). -/
def Dev.contextImage (s : Dev) (p step : Nat) (mons : List MonSnap) (used : Nat) : List Byte :=
  match (s.part p).plan with
  | none => []
  | some pl =>
    let ts := s.contextTiles p pl
    let n := sum ts
    let len := (n + tilesFor (8 * n)) * tileSize
    let off (i : Nat) : Nat := sum (ts.take i)
    let groups := pl.fabricBytes ++ pl.groupsBytes
    let header := leBytes 8 0x5458544334585446 ++ leBytes 2 1 ++ leBytes 2 5 ++ zeros 4 ++ leBytes 8 len ++ leBytes 4 pl.lcores ++ leBytes 1 pl.dies
      ++ zeros 3 ++ leBytes 8 (s.reg .PLAN_ID p) ++ leBytes 5 step ++ zeros 3 ++ leBytes 2 (s.fld Fld.STEP_STREAM_STREAM p) ++ zeros 14
      ++ (List.range 8).flatMap (fun i => leBytes 8 (s.reg .PLAN_DIGEST (dieIdx .PLAN_DIGEST p i)))
      ++ sectEntry 1 (off 1) (1024 * pl.cores.length) ++ sectEntry 2 (off 2) 16400 ++ sectEntry 3 (off 3) groups.length
      ++ sectEntry 4 (off 4) (tileSize * ts.getD 4 0) ++ sectEntry 5 n (len - n * tileSize)
    let made := padTile header ++ padTile (s.lanesSection pl) ++ padTile (formatSection mons used) ++ padTile groups
    let fronts := s.frontTiles p
    let scr := (chunks tileSize (made.length / tileSize) made).map tileScruple ++ fronts.map s.scrupleOf
    made ++ fronts.flatMap s.tile ++ padTile (scr.flatMap (leBytes 8))

end Sys2Proof.Machine
end

