-- ==== Sys2Proof/Machine/Steps.lean ====
section
/-!
DEFINITION. A step from start to flip (R310, R311, R318 to R336, R403 to R410, R470, R471): the schedule, the vote, the decision,
commit and abort.
-/
namespace Sys2Proof.Machine

/-! ### Entries of the schedule -/

/-- The schedule entries of a partition's plan. -/
def Dev.entries (s : Dev) (p : Nat) : List SchedEntry :=
  match (s.part p).plan with
  | some pl => pl.entries
  | none => []

/-- The VOTE and FLIP entries of a partition's plan. -/
def Dev.voteEntry (s : Dev) (p : Nat) : Option SchedEntry := (s.entries p).find? (fun e => e.kind == kindVote)
def Dev.flipEntry (s : Dev) (p : Nat) : Option SchedEntry := (s.entries p).find? (fun e => e.kind == kindFlip)

/-- Whether an entry applies to a step (R309). -/
def SchedEntry.applies (e : SchedEntry) (step : Nat) : Bool := decide (e.every ≤ 1) || decide (step % e.every = 0)

/-- Beats since the step's start (R311). -/
def Dev.beatOffset (s : Dev) (p : Nat) : Nat :=
  (BitVec.ofNat 64 s.chainCount - BitVec.ofNat 64 (s.reg .PLAN_STEPBEAT p)).toNat

/-- The reached offset r (R311); PLAN_SCHED shows its low 32 bits (R314). -/
def Dev.reached (s : Dev) (p : Nat) : Int := (s.part p).reach

/-- The logical core a SWAP entry names (R309). -/
def Dev.swapCoreOf (s : Dev) (p : Nat) (e : SchedEntry) : Option Nat :=
  match (s.part p).plan with
  | some pl => pl.serving (e.arg % 65536)
  | none => none

/-- Whether a SWAP entry does nothing: its cluster has SWAP or FILL set or no usable spare, or no slot holds the bushel (R470). The spare
of a cluster with a retirement on record is spoken for (assumption 75). -/
def Dev.swapSkips (s : Dev) (f : Flash) (p : Nat) (e : SchedEntry) : Bool :=
  match s.swapCoreOf p e with
  | none => true
  | some c =>
    let i := clIdx (coreDie c) (coreCluster c)
    s.flag Fld.SPR_CLSTAT_SWAP i || s.flag Fld.SPR_CLSTAT_FILL i || decide (s.spareOf (coreDie c) (coreCluster c) = 0x1F)
      || (s.rtestSlot f p).isNone || s.clusterOpen (coreDie c) (coreCluster c) [2, 4, 5]

/-- Whether the boundary copy of a SWAP entry's rolling test is complete for the step in progress, and its record acknowledged (R471,
R496). -/
def Dev.swapCopied (s : Dev) (p : Nat) (e : SchedEntry) : Bool :=
  match s.swapCoreOf p e with
  | none => false
  | some c => match s.swapOf (coreDie c) (coreCluster c) with
    | some t => t.core == c && t.phase == 2 && t.step == s.step p && s.mayAct 4 (slotId t.die t.cluster t.tested)
    | none => false

/-- Whether an entry is ready (R266, R309, R332, R397, R410, R470). -/
def Dev.entryReady (s : Dev) (f : Flash) (p : Nat) (e : SchedEntry) : Bool :=
  match e.kind with
  | 1 => match (s.groups p).find e.obj with
    | some (gi, r) =>
      let want := r.expects.getD e.arg 0
      s.flag Fld.GRP_G_DEG (dieIdx .GRP_G p gi) || decide (want = 0) || decide (SMap.read 0 (s.part p).counts (gi * 4096 + e.arg) = want)
    | none => false
  | 2 => s.workDone p
  | 5 => s.swapSkips f p e || s.swapCopied p e
  | _ => true

/-! ### Drains (R332, R334, R436) -/

/-- The ports a drain of a partition uses: UP, PRIMARY or AUX, with DRAIN set. -/
def Dev.drainPortsOf (s : Dev) (p : Nat) : List Nat :=
  (s.diesOf p).filter (fun d => s.fld Fld.HLK_PSTAT_LINK d == 2 && (s.fld Fld.HLK_PSTAT_ROLE d == 1 || s.fld Fld.HLK_PSTAT_ROLE d == 2)
    && s.flag Fld.HLK_PCTL_DRAIN d)

/-- Most tiles of one MWS (R421). -/
def mwsMax : Nat := 4194304

/-- The MWS packets that carry tiles [lo, hi) of an image to its host region (R436). -/
def mwsPackets (base lo hi : Nat) (image : List Byte) : List HPkt :=
  (List.range ((hi - lo + mwsMax - 1) / mwsMax)).map (fun i =>
    let a := lo + i * mwsMax
    let n := min mwsMax (hi - a)
    { op := 3, len := n, addr := base + a * tileSize, data := (image.drop (a * tileSize)).take (n * tileSize) })

/-- The write streams of a drain go to its ports (R422, R436). -/
def Dev.sendDrain (s : Dev) (d : Drain) : Dev :=
  let n := d.image.length / tileSize
  let k := d.ports.length
  s.each d.ports.zipIdx (fun x s =>
    s.each (mwsPackets d.base (x.2 * n / k) ((x.2 + 1) * n / k) d.image) (fun q s => s.hostSend x.1 q))

/-- Drops the write streams of a port that have not begun; one under way goes on to its end (R336; DESIGN CHOICE, assumption 80). -/
def Dev.dropStreams (s : Dev) (port : Nat) : Dev :=
  let h := s.hostPort port
  s.setHost port { h with link := { h.link with queue := h.link.queue.filter (fun q => q.pkt.op != 3 || q.opened) } }

/-- Whether a port has written every write stream: none waits, and the adapter has accepted the tiles of each (R333, R422). -/
def HostPortSt.streamed (h : HostPortSt) : Bool :=
  h.link.queue.all (fun q => q.pkt.op != 3) && h.link.replay.all (fun x => x.pkt.op != 3)

/-- Ends a drain as abandoned (R333, R336, R436). -/
def Dev.abandonDrain (s : Dev) (p : Nat) : Dev :=
  let s := s.each ((s.part p).drain.elim [] (fun d => d.ports)) (fun q s => s.dropStreams q)
  let s := (s.setFld Fld.CTX_DSTAT_STATE p 3).raise p Ev.DRAIN_ABANDON
  (s.setPart p { s.part p with drain := none }).tryDone p

/-- Starts a drain of committed state with a step number; the front copies are read for it (R332, R338, R436, R448). -/
def Dev.beginDrain (s : Dev) (p step : Nat) (mons : List MonSnap) (used : Nat) : Dev :=
  let ports := s.drainPortsOf p
  let s := (s.setFld Fld.CTX_DSTAT_STATE p 1).setFld Fld.CTX_DSTAT_STEP p step
  if ports.isEmpty then s.abandonDrain p
  else
    let dr : Drain := ⟨ports, s.reg .CTX_DHOST p, s.contextImage p step mons used⟩
    ((s.hbmErrors (s.frontTiles p)).setPart p { s.part p with drain := some dr }).sendDrain dr

/-- A DRAIN entry that fires (R332): nothing unless enabled, addressed, idle, and the last completed drain holds another state, which its image
shows: a host that has written a front copy (R323), or reversed a fall-back before this step began (R189), has made another. -/
def Dev.fireDrain (s : Dev) (p : Nat) : Dev :=
  let x := s.part p
  if !s.flag Fld.CTX_CTL_DEN p || decide (s.reg .CTX_DHOST p = 0) || decide (s.fld Fld.CTX_DSTAT_STATE p = 1)
      || decide (x.lastDrained = some (s.contextImage p (s.step p) x.fbSnap x.fbUsed)) then s
  else s.beginDrain p (s.step p) x.fbSnap x.fbUsed

/-! ### Rolling-test swaps (R471) -/

/-- Starts the background copies of the SWAP entries of a step (R471 step 1). -/
def Dev.startCopies (s : Dev) (f : Flash) (p step : Nat) : Dev :=
  s.each ((s.entries p).filter (fun e => e.kind == kindSwap && e.applies step)) (fun e s =>
    match s.swapCoreOf p e with
    | none => s
    | some c =>
      let d := coreDie c
      let k := coreCluster c
      if s.swapSkips f p e || (s.swapOf d k).isSome then s
      else match s.rtestBushel f p with
        | none => s
        | some b => s.putSwap (s.copyFrom ⟨d, k, c, s.slotOf c, s.spareOf d k, step, 1, b, [], []⟩ 1))

/-- The switch of a rolling test: the core to the spare, the freed slot under test (R471 step 3), and its record closed. -/
def Dev.swapIn (s : Dev) (c : Nat) : Dev :=
  match s.swapOf (coreDie c) (coreCluster c) with
  | none => s
  | some t =>
    let s := ((s.swapMap t).serveCopy t).swapCore c
    (s.putSwap { t with phase := 3, copy := [], dirty := [] }).closeRecord 4 (slotId t.die t.cluster t.tested) false

/-- Fires a SWAP entry. -/
def Dev.fireSwap (s : Dev) (f : Flash) (p : Nat) (e : SchedEntry) : Dev :=
  match s.swapCoreOf p e with
  | none => s.raise p Ev.TEST_SKIP
  | some c => if s.swapSkips f p e then s.raise (coreDie c) Ev.TEST_SKIP else s.swapIn c

/-! ### The vote (R176, R179, R311, R404) -/

/-- What comes before a vote on complete work: requests are evaluated, and an own storm makes the verdict unclean (R176, R179). -/
def Dev.beforeVote (s : Dev) (p : Nat) : Dev :=
  let s := s.evalRequests p
  if s.storm p (s.reqMap p) then (s.raise p Ev.FALLBACK_STORM).unclean p Ev.FALLBACK_STORM else s

/-- The vote fires: the own VOTE is formed and sent when it can be. A vote that its deadline forces evaluated no requests, and its
request map is empty (R176, R404; DEDUCED, assumption 23). -/
def Dev.fireVote (s : Dev) (p : Nat) (overrun : Bool) : Dev :=
  let s := if overrun then s else s.beforeVote p
  let v := if overrun then { s.ownVote p true with reqmap := 0 } else s.ownVote p true
  let s := s.setPart p { s.part p with voteFired := true, votedClean := v.clean, ownVote := some v }
  s.tryVote p

/-- Fires one due entry (R311, R410). -/
def Dev.fireEntry (s : Dev) (f : Flash) (p : Nat) (e : SchedEntry) : Dev :=
  match e.kind with
  | 1 => match (s.groups p).find e.obj with
    | some (gi, _) =>
      let i := dieIdx .GRP_G p gi
      if s.flag Fld.GRP_G_DEG i then (s.raise p Ev.GRP_REFUSED).unclean p Ev.GRP_REFUSED
      else s.setFld Fld.GRP_G_PHASE i e.arg
    | none => s
  | 2 => s.fireVote p false
  | 4 => s.fireDrain p
  | 5 => s.fireSwap f p e
  | _ => s

/-- One beat of the schedule before the vote (R311). -/
def Dev.scheduleBeat (s : Dev) (f : Flash) (p : Nat) : Dev :=
  let x := s.part p
  let o := s.beatOffset p
  let r := s.reached p
  let slide := s.fld Fld.PLAN_SCHED_SLIDE p
  let flip := (s.flipEntry p).map (fun e => e.offset)
  let dead := (s.voteEntry p).map (fun e => e.arg)
  if !x.stepping || x.voteFired || decide (some o = flip) || decide (some o = dead) || decide ((o : Int) < r + 1 + slide) then s
  else
    let due := (s.entries p).filter (fun e => decide ((e.offset : Int) = r + 1) && e.applies (s.step p))
    if due.all (s.entryReady f p) then
      let s := (s.setPart p { x with reach := r + 1 }).setFld Fld.PLAN_SCHED_ROFF p (twos 32 (r + 1))
      let s := s.each due (fun e s => s.fireEntry f p e)
      if r + 1 = 0 then s.setPart p { s.part p with issuing := true } else s
    else
      let s := (s.setFld Fld.PLAN_SCHED_SLIDE p (slide + 1)).perf .PLAN_PC_SLIP p p 1
      if slide = 0 then s.raise p Ev.SCHED_SLIP else s

/-- The vote's deadline (R311). -/
def Dev.voteDeadline (s : Dev) (p : Nat) : Dev :=
  let x := s.part p
  if x.stepping && !x.voteFired && decide ((s.voteEntry p).map (fun e => e.arg) = some (s.beatOffset p)) then
    ((s.raise p Ev.STEP_OVERRUN).unclean p Ev.STEP_OVERRUN).fireVote p true
  else s

/-! ### Step start (R181, R184, R220, R311, R408 to R410, R414, R471) -/

/-- The collective and vote state of a partition at a step start. -/
def Part.atStart (x : Part) (flip : Word) (step holdq holdmax : Nat) (snaps : List MonSnap) (used : Nat) : Part :=
  { x with
    start := none, stepping := true, reach := -1, issuing := false, voteFired := false, votedClean := false, nanStop := false, nanCores := [], holding := false
    flip := flip, round := 0, holdq := holdq, holdmax := holdmax, fbSnap := snaps, fbUsed := used
    degLast := (match x.decision with
      | some v => v.deg
      | none => x.degLast)
    scopeStep := step, ownVote := none, votes := [], sentUp := false, decision := none, dones := [], sentDone := false, allDone := none
    counts := [], seqs := [], excess := [], recs := [], usedSeqs := [], ranges := [], degReceived := [], captures := [] }

/-- The registers of the step and of the groups at a step start (R343, R414). -/
def Dev.startRegs (s : Dev) (p b0 : Nat) : Dev :=
  let s := (((s.setFld Fld.STEP_STAT_UNCLEAN p 0).setFld Fld.STEP_STAT_CAUSE p 0).setFld Fld.STEP_STAT_HELD p 0).setReg .STEP_NANL p 0
  let s := (s.setReg .PLAN_STEPBEAT p b0).setReg .PLAN_SCHED p 0xFFFFFFFF
  let s := (((s.setFld Fld.GRP_STAT_POISON p 0).setFld Fld.GRP_STAT_RETRACTED p 0).setFld Fld.GRP_STAT_PROVOVF p 0).setFld Fld.GRP_STAT_DECIDED p 0
  s.each (List.range (s.groups p).groups.length) (fun i s => s.setFld Fld.GRP_G_RCOUNT (dieIdx .GRP_G p i) 0)

/-- The causes of an unclean verdict that persist from before a step: a bridge down inside the partition, and a bound cluster short
(R324, R325). -/
def Dev.persisting (s : Dev) (p : Nat) : List Nat :=
  (if s.bridgeStops p then [Ev.BRIDGE_DOWN] else [])
    ++ (if (s.planCores p).any (fun c => s.isShort (coreDie c) (coreCluster c)) then [Ev.LOGICAL_SHORTFALL] else [])

/-- A step starts at its beat. -/
def Dev.stepStart (s : Dev) (f : Flash) (p : Nat) : Dev :=
  let x := s.part p
  match x.start with
  | none => s
  | some b =>
    if s.planState p ≠ 3 ∨ x.stepping ∨ s.chainCount ≠ b.toNat then s
    else
      let flip := b + BitVec.ofNat 64 (((s.flipEntry p).map (fun e => e.offset)).getD 0)
      let s := s.setPart p (x.atStart flip (s.step p) (s.fld Fld.STEP_CFG_HOLDQ p) (s.fld Fld.STEP_CFG_HOLDMAX p) (s.monSnaps p) (s.fld Fld.FMT_BUDGET_USED p))
      let s := s.startRegs p b.toNat
      let s := s.swapsBack p
      let s := s.startCopies f p (s.step p)
      let s := s.startCopies f p (s.step p + 1)
      let s := (s.applyReversals p).packRegion p
      let s := (s.setFld Fld.FMT_STAT_DIGEST p (s.formatDigest p)).zeroTallies p
      let s := s.each (s.boundCores p) (fun c s => s.startCore c)
      let s := (s.evalDegraded p true []).updateDegraded p
      s.each (s.persisting p) (fun code s => s.unclean p code)

/-! ### Commit and abort (R326, R327, R330) -/

/-- What ends with a step either way. -/
def Part.atEnd (x : Part) : Part := { x with stepping := false, issuing := false, holding := false, recs := [], residentFresh := false }

/-- The classes of R466. -/
def clsTransient : Nat := 1
def clsPermanent : Nat := 2
def clsData : Nat := 3
def clsUnresolved : Nat := 4

/-- The record of a classified capture (R463, R464, R466). -/
def Capture.logRec (cap : Capture) (cls planId : Nat) : LogRec :=
  { kind := cap.kind, cls := cls, event := cap.event
    severity := if cls = clsTransient ∨ cls = clsData then 2 else 0
    flags := 1, chain := cap.chain, step := cap.step, stream := cap.stream, pcore := cap.slot, lcore := cap.core
    capslot := cap.capSlot.getD 0x1FFFF, fpc := cap.fpc, row := cap.row, total := cap.total
    result := cap.result, operand := cap.operand, tol := cap.tol, planId := planId }

/-- A failure that took no capture slot is UNRESOLVED (R459, R462, R475). -/
def Dev.unresolved (s : Dev) (p : Nat) (cap : Capture) : Dev :=
  let d := coreDie cap.core
  ((s.raise d Ev.CHK_UNRESOLVED).logRecord d (cap.logRec clsUnresolved (s.reg .PLAN_ID p))).setFld Fld.CHK_STAT_LAST p clsUnresolved

/-- After an abort the failures without a capture are classed, and diagnosis of the captures is due (R459, R461, R477). -/
def Dev.noteCaptures (s : Dev) (p : Nat) : Dev :=
  let cs := (s.part p).captures
  let held := cs.filter (fun c => c.capSlot.isSome)
  let s := s.each (cs.filter (fun c => c.capSlot.isNone)) (fun c s => s.unresolved p c)
  let s := (s.setPart p { s.part p with captures := held }).setFld Fld.CHK_STAT_NCAP p held.length
  if held.isEmpty then s else s.setFld Fld.CHK_STAT_DIAG p 1

/-- Raises EV_STEP_ABORT: in the device-wide array when the partition's lowest die is fenced (R345). -/
def Dev.raiseAbort (s : Dev) (p : Nat) : Dev := if s.fenced p then s.raiseDev Ev.STEP_ABORT else s.raise p Ev.STEP_ABORT

/-- Drops the rolling tests of a partition that have not switched yet (R471). -/
def Dev.dropCopies (s : Dev) (p : Nat) : Dev :=
  s.each (s.spr.swaps.filter (fun t => s.partOf t.die == p && decide (t.phase ≤ 2))) (fun t s => s.dropSwap t.die t.cluster)

/-- The abort actions, on the partition's dies that are not fenced (R327). -/
def Dev.abortStep (s : Dev) (p : Nat) : Dev :=
  let s := s.each (s.boundCores p) (fun c s => s.abortCore c)
  let s := ((s.undoReversals p).setFld Fld.STEP_STAT_HELD p 0).setFld Fld.STEP_STAT_UNCLEAN p 0
  let s := s.setFld Fld.STEP_STAT_HOLDN p (s.part p).round
  let s := s.setPart p (s.part p).atEnd
  let s := (s.dropCopies p).endTests p
  let s := (s.toLoaded p).raiseAbort p
  (s.perf .STEP_PC_ABORT p p 1).noteCaptures p

/-- The partition is uncertain (R325). -/
def Dev.uncertain (s : Dev) (p : Nat) : Dev := (s.setFld Fld.STEP_STAT_UNCERT p 1).raise p Ev.COMMIT_UNCERTAIN

/-- The commit actions with the combined request map, at hold round `round` (R327, R330). The next step starts GAP beats
later while the partition keeps running. -/
def Dev.commitStep (s : Dev) (p map round : Nat) : Dev :=
  let step := s.step p
  let gap := match (s.part p).plan with
    | some pl => pl.gap
    | none => 1
  let s := s.setFld Fld.STEP_STAT_FRONT p (1 - s.fld Fld.STEP_STAT_FRONT p)
  let s := s.each (s.boundCores p) (fun c s => s.setCore c { s.core c with committed := (s.core c).lanes })
  let s := (s.grants p map step).endReversals p
  let s := if step = 0xFFFFFFFFFF then (s.setFld Fld.STEP_STAT_LIMIT p 1).raise p Ev.STEP_LIMIT else s.setFld Fld.STEP_CTR_STEP p (step + 1)
  let x := s.part p
  let s := s.setPart p { x.atEnd with start := some (BitVec.ofNat 64 s.chainCount + BitVec.ofNat 64 gap) }
  let s := ((s.endTests p).setFld Fld.STEP_STAT_HELD p 0).setFld Fld.STEP_STAT_HOLDN p round
  let s := s.perf .STEP_PC_COMMIT p p 1
  if x.stopReq || x.noRun || s.bridgeStops p || s.flag Fld.STEP_STAT_LIMIT p || decide (s.fld Fld.CHN_STAT_STATE 0 = 4) then s.toLoaded p else s

/-- The storm flag of a step that ends by its own request map (R179, R192). -/
def Dev.ownStorm (s : Dev) (p : Nat) : Dev :=
  match (s.part p).ownVote with
  | some v => if s.storm p v.reqmap then s.setFld Fld.FMT_STAT_STORM p 1 else s
  | none => s

/-- The decision of a flip beat or hold round (R326, R405, R407). R326's order holds: an unclean step aborts without EV_FALLBACK_STORM for a
combined map that is a storm (DESIGN CHOICE, assumption 78: R179 names no order). -/
def Dev.decideFlip (s : Dev) (p round : Nat) : Dev :=
  let s := s.setPart p { s.part p with round := round }
  let x := s.part p
  match x.decision with
  | none =>
    let s := if x.votedClean then s.uncertain p else s
    (s.ownStorm p).abortStep p
  | some v =>
    let pending := v.drain && !(match x.allDone with
      | some r => decide (r ≤ round)
      | none => false)
    if s.flag Fld.STEP_STAT_UNCLEAN p || !x.voteFired || !v.clean || !v.complete then (s.ownStorm p).abortStep p
    else if v.split || decide (v.digest ≠ s.fld Fld.FMT_STAT_DIGEST p) then
      ((s.setFld Fld.FMT_STAT_SPLIT p 1).raise p Ev.FALLBACK_SPLIT).abortStep p
    else if s.storm p v.reqmap then ((s.setFld Fld.FMT_STAT_STORM p 1).raise p Ev.FALLBACK_STORM).abortStep p
    else if pending && decide (round < x.holdmax) then
      let s := s.setPart p { x with holding := true }
      let s := (s.setFld Fld.STEP_STAT_HELD p 1).perf .STEP_PC_HOLD p p 1
      if round = 0 then s.raise p Ev.DRAIN_STALL else s
    else
      let s := if pending && decide (s.fld Fld.CTX_DSTAT_STATE p = 1) then s.abandonDrain p else s
      s.commitStep p v.reqmap round

/-- The flip beat (R311, R326). -/
def Dev.flipBeat (s : Dev) (p : Nat) : Dev :=
  let x := s.part p
  if x.stepping && !x.holding && decide (BitVec.ofNat 64 s.chainCount = x.flip) then s.decideFlip p 0 else s

/-- A hold round's beat (R326). -/
def Dev.holdRound (s : Dev) (p : Nat) : Dev :=
  let x := s.part p
  let at_ := x.flip + BitVec.ofNat 64 ((x.round + 1) * x.holdq)
  if x.stepping && x.holding && decide (BitVec.ofNat 64 s.chainCount = at_) then s.decideFlip p (x.round + 1) else s

/-- A partition stops because of what leaves its step no beat: a step in progress aborts at once, a pending start is cancelled
(R307, R310, R327, R502). A chain conflict also makes the verdict unclean, and a partition that voted clean uncertain. -/
def Dev.stopAtOnce (s : Dev) (p : Nat) (conflict : Bool) : Dev :=
  if (s.part p).stepping then
    let unsure := (s.part p).votedClean && conflict
    let s := if conflict then ((s.unclean p Ev.CHAIN_CONFLICT).markUnclean p Ev.CHAIN_CONFLICT).1 else s
    (if unsure then s.uncertain p else s).abortStep p
  else if s.planState p = 3 then s.toLoaded p
  else s

end Sys2Proof.Machine
end

