-- ==== Sys2Proof/Machine/ChainOps.lean ====
section
/-!
DEFINITION. The chain (R301 to R308): symbols, acquisition, beats, holdover, loss and conflict, and its configuration.
-/
namespace Sys2Proof.Machine

/-- The states of CHN_STAT.STATE (R316). -/
def chnUnlocked : Nat := 0
def chnAcquiring : Nat := 1
def chnLocked : Nat := 2
def chnHoldover : Nat := 3
def chnLost : Nat := 4

/-- The chain state. -/
def Dev.chnState (s : Dev) : Nat := s.fld Fld.CHN_STAT_STATE 0

/-- Sets the chain state; leaving or entering the locked states changes the timing source of heartbeats, which sets the misses to
zero (R497). -/
def Dev.setChn (s : Dev) (st : Nat) : Dev :=
  let was := s.chnState
  let s := s.setFld Fld.CHN_STAT_STATE 0 st
  if decide (was < 2) = decide (st < 2) then s else s.each (List.range 6) (fun d s => s.setFld Fld.CTL_CSTAT_MISSED d 0)

/-- Sets the chain count; the wrap to zero raises its event (R301). -/
def Dev.setCount (s : Dev) (c : Nat) : Dev :=
  let old := s.chainCount
  let s := s.setReg .CHN_COUNT 0 c
  if c = 0 ∧ old = 2 ^ 64 - 1 then s.raiseDev Ev.CHAIN_EPOCH else s

/-- Entry to UNLOCKED: the last applied count and what waits are forgotten (R306). -/
def Dev.unlockChain (s : Dev) : Dev :=
  let s := (s.setChn chnUnlocked).setFld Fld.CHN_STAT_HOLD 0 0
  { s with chain := { inForce := s.chain.inForce, frameAt := s.chain.frameAt } }

/-- Clears the chain configuration (R308). -/
def Dev.clearChain (s : Dev) : Dev :=
  let s := ((s.setReg .CHN_CTL 0 0).setReg .CHN_CFG 0 0).setReg .CHN_FWD 0 0
  { s.unlockChain with chain := { frameAt := s.chain.frameAt } }

/-- Whether the chain logic runs: not in SLEEP, nor after it before the last die has switched to its PLL (R529, R539). -/
def Dev.chainOn (s : Dev) : Bool := decide (s.power ≠ pwrSleep) && s.sby.switching.isEmpty

/-- A local master's chain starts: from UNLOCKED to LOCKED at once, with count 0, as soon as the chain logic runs; other sources acquire theirs
(R306, R539). -/
def Dev.startMaster (s : Dev) : Dev :=
  if s.chainOn ∧ s.chain.inForce ∧ s.fld Fld.CHN_CTL_SRC 0 = 3 then
    let s := (s.setChn chnLocked).setReg .CHN_COUNT 0 0
    { s with chain := { s.chain with lastBeat := s.now } }
  else s

/-- Installs a configuration (R308). -/
def Dev.installChain (s : Dev) (c : ChainCfg) : Dev :=
  let s := ((s.setReg .CHN_CTL 0 c.ctl).setReg .CHN_CFG 0 c.cfg).setReg .CHN_FWD 0 c.fwd
  ({ s with chain := { s.chain with inForce := true } } : Dev).startMaster

/-- The running configuration. -/
def Dev.chainCfg (s : Dev) : ChainCfg := ⟨s.reg .CHN_CTL 0, s.reg .CHN_CFG 0, s.reg .CHN_FWD 0⟩

/-- Whether a partition other than `p` holds a plan or is past step 6 of its load (R308). -/
def Dev.othersHold (s : Dev) (p : Nat) : Bool :=
  (List.range 6).any (fun q => q != p && ((s.part q).pastChain || (s.part q).plan.isSome))

/-- Clears the configuration when the partition was the last to hold it. -/
def Dev.releaseChain (s : Dev) (p : Nat) : Dev := if s.othersHold p then s else s.clearChain

/-! ### Symbols -/

/-- The delay of an input in units of 0.25 ns: none while not measured, or for an input that is not named (R303, R304, R374). A local
master takes no input, whatever ALT names (DESIGN CHOICE, assumption 83). -/
def Dev.inputDelay (s : Dev) (input : Nat) : Option Nat :=
  let src := s.fld Fld.CHN_CTL_SRC 0
  let prim := (src == 1 && input == s.fld Fld.CHN_CTL_PRIMARY 0) || (src == 2 && input == 0x3E)
  let alt := (src == 1 || src == 2) && input == s.fld Fld.CHN_CTL_ALT 0
  if !s.chain.inForce || !(prim || alt) then none
  else if input = 0x3E then some (s.fld Fld.CHN_CFG_INSKEW 0)
  else if input < 36 ∧ s.flag Fld.CHN_DLY_VALID input ∧ s.fld Fld.FAB_PORT_STAT_PLAN input = planMatch then some (s.fld Fld.CHN_DLY_DLY input)
  else none

/-- The fields of a symbol (R302). -/
def symCount (v : Nat) : Nat := bits v 63 0
def symAcc (v : Nat) : Nat := bits v 79 64

/-- Whether a symbol's zero fields, MID and PERIOD are as R303 asks. -/
def Dev.symbolOk (s : Dev) (v : Nat) : Bool :=
  decide (bits v 83 80 = s.fld Fld.CHN_CTL_PERIOD 0) && decide (bits v 87 84 = 0) && decide (bits v 95 89 = 0)
    && decide (bits v 127 96 = s.fld Fld.CHN_CFG_MID 0)

/-- Whether count `a` is at or before count `b`, modulo 2^64. -/
def countLe (a b : Nat) : Bool := decide ((BitVec.ofNat 64 b - BitVec.ofNat 64 a).toNat < 2 ^ 63)

/-- Whether a count is a duplicate: the last applied one, one that waits already, or in an acquisition the last one received (R303, assumption
11). -/
def Dev.dupCount (s : Dev) (c : Nat) : Bool :=
  decide (s.chain.lastApplied = some (BitVec.ofNat 64 c)) || s.chain.waiting.any (fun w => w.count.toNat == c)
    || (decide (s.chnState = chnAcquiring) && decide (s.chain.runCount = BitVec.ofNat 64 c))

/-- Whether a count is at or before the last applied one (R303). -/
def Dev.oldCount (s : Dev) (c : Nat) : Bool :=
  match s.chain.lastApplied with
  | some l => countLe c l.toNat
  | none => false

/-- Forwards a symbol with its accumulated delay on every MATCH port of CHN_FWD (R305). A delay above 16 bits is sent as 0xFFFF (DESIGN CHOICE,
assumption 83). -/
def Dev.forwardSymbol (s : Dev) (v acc : Nat) : Dev :=
  s.each ((List.range 36).filter (fun q => (s.reg .CHN_FWD 0).testBit q && s.fld Fld.FAB_PORT_STAT_PLAN q == planMatch))
    (fun q s => s.emit (.fabChain q (putBits v 64 16 (min acc 0xFFFF)) (s.fabPort q).link.lastSeq))

/-- The count the chain gives to the beat of the window an apply time falls in, the last beat's own window included, and whether
it falls in a window at all; outside every window the coming beat's count stands for it (R306, assumption 11). -/
def Dev.expectedCount (s : Dev) (at_ : Int) : Nat × Bool :=
  let beat : Int := s.beatUnits
  let off := at_ - s.chain.lastBeat
  let k := (off + beat / 2) / beat
  let inside := decide (0 ≤ k) && decide ((off - k * beat).natAbs * 8 ≤ s.beatUnits)
  (if inside then (s.chainCount + k.toNat) % 2 ^ 64 else (s.chainCount + 1) % 2 ^ 64, inside)

/-- Puts a symbol in line to be applied. -/
def Dev.waitSymbol (s : Dev) (c : Nat) (at_ : Int) (input : Nat) : Dev :=
  { s with chain := { s.chain with waiting := s.chain.waiting ++ [⟨BitVec.ofNat 64 c, at_, input⟩] } }

/-- A symbol of an acquisition (R306): from the eighth in sequence on, it waits to be applied, which locks the chain. A symbol
out of sequence starts the count afresh; once an acquisition is complete, until it is applied, such a symbol is discarded. -/
def Dev.acquire (s : Dev) (c : Nat) (at_ : Int) (input : Nat) : Dev :=
  let x := s.chain
  let next := decide (s.chnState = chnAcquiring) && decide (BitVec.ofNat 64 c = x.runCount + 1)
    && decide ((at_ - (x.runTime + s.beatUnits)).natAbs * 8 ≤ s.beatUnits)
  if !next && !x.waiting.isEmpty then s
  else
    let n := if next then x.run + 1 else 1
    let s := { s with chain := { x with run := n, runCount := BitVec.ofNat 64 c, runTime := at_ } }
    let s := s.setChn chnAcquiring
    if n < 8 then s else s.waitSymbol c at_ input

/-- Counts a valid symbol whose count differs from its expected one (R306). -/
def Dev.differs (s : Dev) : Dev := { s with chain := { s.chain with conflicts := s.chain.conflicts + 1 } }

/-- A symbol received in LOCKED, HOLDOVER or LOST (R306). A conflict that is due stays due until CHAIN_CONFLICT. -/
def Dev.tracked (s : Dev) (c : Nat) (at_ : Int) (input : Nat) : Dev :=
  let e := s.expectedCount at_
  if c ≠ e.1 then s.differs
  else
    let s := { s with chain := { s.chain with conflicts := if 16 ≤ s.chain.conflicts then s.chain.conflicts else 0 } }
    if e.2 then s.waitSymbol c at_ input else s

/-- A chain symbol that passed its CRC arrives on an input (R302 to R306). -/
def Dev.chainSymbol (s : Dev) (input v residence : Nat) : Dev :=
  if !s.chainOn then s
  else match s.inputDelay input with
    | none => s
    | some δ =>
      let c := symCount v
      let acc := symAcc v + δ
      let h := s.fld Fld.CHN_CFG_HORIZON 0
      if !s.symbolOk v then s
      else if h < acc then s.raiseDev Ev.CHAIN_HORIZON
      else if s.dupCount c then s
      else if s.oldCount c then (if 2 ≤ s.chnState then s.differs else s)
      else
        let at_ : Int := s.now + h - acc
        let s := s.forwardSymbol v (acc + residence)
        if s.chnState < 2 then s.acquire c at_ input else s.tracked c at_ input

/-- Byte `b` and the `n - 1` bytes after it of a CHAIN_IN frame (R591). -/
def frameNum (f : BitVec 184) (b n : Nat) : Nat := f.toNat / 2 ^ (8 * b) % 2 ^ (8 * n)

/-- Whether the line carries a frame: its preamble, its start byte and its CRC are right (R591). -/
def frameOk (f : BitVec 184) : Bool :=
  decide (frameNum f 0 3 = 0xD55555) && crc32 (leBytes 16 (frameNum f 3 16)) == frameNum f 19 4

/-- Whether a frame that begins now begins before the previous one has ended: a frame lasts 147.2 ns, which is 588.8 units (R591). -/
def Dev.frameOverlaps (s : Dev) : Bool := s.chain.frameAt.any (fun t => decide (s.now < t + 589))

/-- A frame on CHAIN_IN: one that fails its CRC or overlaps the frame before it is discarded, and its symbol counts as missing (R591). A
discarded frame is itself the previous frame of the next one (DESIGN CHOICE, assumption 83). -/
def Dev.chainFrame (s : Dev) (f : BitVec 184) (residence : Nat) : Dev :=
  let t := { s with chain := { s.chain with frameAt := some s.now } }
  if !frameOk f || s.frameOverlaps then t else t.chainSymbol 0x3E (frameNum f 3 16) residence

/-! ### Beats -/

/-- The symbol that is applied next. -/
def Chain.nextSym (x : Chain) : Option WaitSym :=
  x.waiting.foldl (fun acc w => match acc with
    | none => some w
    | some v => if w.at_ < v.at_ then some w else some v) none

/-- The apply time of the next waiting symbol arrives (R304): its beat is applied, and the chain is locked, from an acquisition
as from holdover or loss (R306). A count no newer than the last applied one changes nothing. -/
def Dev.beatApply (s : Dev) : Dev :=
  match s.chain.nextSym with
  | none => s
  | some w =>
    let s := { s with chain := { s.chain with waiting := s.chain.waiting.erase w } }
    if s.chnState = chnUnlocked ∨ (2 ≤ s.chnState ∧ s.oldCount w.count.toNat = true) then s
    else
      let fresh := decide (s.chnState = chnAcquiring)
      let s := if s.chnState = chnLocked then s else (s.setChn chnLocked).setFld Fld.CHN_STAT_HOLD 0 0
      let s := s.reach w.at_
      let s := if fresh then s.setReg .CHN_COUNT 0 w.count.toNat else s.setCount w.count.toNat
      let s := s.setFld Fld.CHN_STAT_SRCPORT 0 w.input
      let x := s.chain
      { s with chain := { x with
          lastApplied := some w.count, lastBeat := w.at_, run := 0, conflicts := if fresh then 0 else x.conflicts } }

/-- A beat of the local master: sent at once and applied H later (R305). -/
def Dev.masterBeat (s : Dev) : Dev :=
  if !s.chainOn ∨ !s.chain.inForce ∨ s.fld Fld.CHN_CTL_SRC 0 ≠ 3 then s
  else
    let last := match s.chain.waiting.getLast? with
      | some w => w.count.toNat
      | none => s.chainCount
    let c := (last + 1) % 2 ^ 64
    let v := c + 2 ^ 80 * s.fld Fld.CHN_CTL_PERIOD 0 + 2 ^ 96 * s.fld Fld.CHN_CFG_MID 0
    (s.forwardSymbol v 0).waitSymbol c (s.now + s.fld Fld.CHN_CFG_HORIZON 0) 0x3F

/-- A beat generated locally: the count goes on, and what counts it (R306, R316). -/
def Dev.localBeat (s : Dev) : Dev :=
  let s := s.setCount ((s.chainCount + 1) % 2 ^ 64)
  let s := s.perfDev .CHN_PC_MISS 0 1
  let s := s.setFld Fld.CHN_STAT_HOLD 0 (min 65536 (s.fld Fld.CHN_STAT_HOLD 0 + 1))
  { s with chain := { s.chain with lastBeat := s.chain.lastBeat + s.beatUnits } }

/-- A locked window passes with no valid symbol (R306). -/
def Dev.windowMiss (s : Dev) : Dev :=
  if s.chnState ≠ chnLocked ∨ s.fld Fld.CHN_CTL_SRC 0 = 3 ∨ s.chain.waiting.any (fun w => w.count.toNat == (s.chainCount + 1) % 2 ^ 64) then s
  else
    let s := (s.setChn chnHoldover).raiseDev Ev.CHAIN_HOLDOVER
    let s := (s.setFld Fld.CHN_STAT_HOLD 0 0).localBeat
    s.reach (s.chain.lastBeat + s.beatUnits / 8)

/-- A beat of holdover or loss (R306). -/
def Dev.holdoverBeat (s : Dev) : Dev :=
  if s.chnState = chnHoldover ∨ s.chnState = chnLost then
    let s := s.localBeat
    s.reach s.chain.lastBeat
  else s

/-- Holdover has generated 65,536 beats: LOST; pending starts are cancelled, and steps in progress are the last, whatever the chain does before
their flips (R306, R307, R310). -/
def Dev.chainLost (s : Dev) : Dev :=
  if s.chnState ≠ chnHoldover ∨ s.fld Fld.CHN_STAT_HOLD 0 < 65536 then s
  else
    let s := (s.setChn chnLost).raiseDev Ev.CHAIN_LOST
    s.each s.partitions (fun p s =>
      if s.planState p ≠ 3 then s
      else if (s.part p).stepping then s.setPart p { s.part p with stopReq := true }
      else s.toLoaded p)

/-- Sixteen valid symbols in a row have disagreed: UNLOCKED, and every step in progress aborts at once (R306, R307). -/
def Dev.chainConflict (s : Dev) : Dev :=
  if s.chnState < 2 ∨ s.chain.conflicts < 16 then s
  else
    let s := s.raiseDev Ev.CHAIN_CONFLICT
    let s := s.each s.partitions (fun p s => s.stopAtOnce p true)
    s.unlockChain

end Sys2Proof.Machine
end

