-- ==== Sys2Proof/Machine/Plan.lean ====
section
/-!
DEFINITION. Loading, completing, unloading, stopping and running a plan (R296 to R300, R308, R310, R486, R491, R523, R532).
-/
namespace Sys2Proof.Machine

/-- A reader of memory from a byte address on. -/
def Dev.reader (s : Dev) (a : Nat) : Reader := fun o n => Memory.num s.mem (a + o) n

/-- The mask of a partition's dies. -/
def Dev.dieMask (s : Dev) (p : Nat) : Nat := ofBits (s.diesOf p)

/-! ### Reading an image (R296 steps 1 to 5) -/

/-- The bytes of a section of an image. -/
def Dev.sectBytes (s : Dev) (a : Nat) (x : Sect) : List Byte := Memory.bytes s.mem (a + x.lo) x.len

/-- The section of a type; an empty one where it is absent. -/
def sectOf (rd : Reader) (t : Nat) : Sect := (findSect (sections rd) t).getD ⟨t, 0, 0⟩

/-- The FORMAT section's bytes, where there is one. -/
def Dev.formatBytes (s : Dev) (a : Nat) : Option (List Byte) :=
  (findSect (sections (s.reader a)) 6).map (s.sectBytes a)

/-- The FABRIC section read under the checks of R379. -/
def Dev.fabricOf (s : Dev) (p a : Nat) : Option Fabric := parseFabric (s.sectBytes a (sectOf (s.reader a) 0xA)) (s.diesOf p)

/-- Whether the FORMAT section follows R172 and R180: the fall-back formats, the formats of sensitive layers, the region. -/
def Dev.formatOk (s : Dev) (p a : Nat) : Bool :=
  let g := formatNum (s.formatBytes a)
  s.regionOk p (g fmtBase 0) (g fmtTotal 0 % 2 ^ 28) && monitors.all (fun n =>
    decide (g fmtValid n % 2 = 0) || (if g fmtSens n % 2 = 1 then decide (5 ≤ g fmtSfmt n % 16) && decide (g fmtSfmt n % 16 ≤ 8)
      else decide (g fmtFbfmt n % 16 = 3) || decide (g fmtFbfmt n % 16 = 4)))

/-- The byte ranges an image's layouts name. -/
def imageNamed (rd : Reader) (ids records dies : Nat) (groups : Ranges) : Ranges :=
  let whole (t : Nat) : Ranges := match findSect (sections rd) t with
    | some x => [(x.lo, x.hi)]
    | none => []
  let at_ (t : Nat) (rs : Ranges) : Ranges := match findSect (sections rd) t with
    | some x => rs.map (fun r => (x.lo + r.1, x.lo + r.2))
    | none => []
  let each (t n st : Nat) (rs : Ranges) : Ranges := at_ t ((List.range n).flatMap (fun i => rs.map (fun r => (st * i + r.1, st * i + r.2))))
  [(0, 12), (16, 29), (32, 40)] ++ (List.range (rd 10 2)).flatMap (fun i => [(64 + 16 * i, 67 + 16 * i), (68 + 16 * i, 80 + 16 * i)])
    ++ each 1 dies 80 [(0, 1), (8, 76)] ++ each 2 ids 16 [(0, 2), (4, 14)] ++ at_ 3 [(0, 6), (8, 14), (16, 1040)]
    ++ whole 4 ++ whole 5 ++ whole 6 ++ whole 7 ++ at_ 8 [(0, 8)] ++ at_ 8 ((List.range records).flatMap (fun i =>
      [(16 + 16 * i, 21 + 16 * i), (22 + 16 * i, 32 + 16 * i)]))
    ++ at_ 9 [(0, 17)] ++ whole 0xA ++ groups ++ at_ 0xC [(0, 2), (4, 8)] ++ whole 0xFF

/-- The tiles of the image that records name as content. -/
def contentRanges (cores : List PlanCore) (res : List Resident) : Ranges :=
  cores.map (fun c => (c.tile * tileSize, (c.tile + c.ntiles) * tileSize)) ++ res.map (fun r => (r.tile * tileSize, (r.tile + r.count) * tileSize))

/-- Step 5 of R296: every section's contents, and zero wherever no layout names a byte. -/
def Dev.contentOk (s : Dev) (p a : Nat) : Bool :=
  let rd := s.reader a
  let dies := s.diesOf p
  let cores := parseCores rd (sectOf rd 1) dies
  let prog := parseProgram rd (sectOf rd 2) (planIds cores.1)
  let res := s.parseResident p rd (findSect (sections rd) 4)
  match s.fabricOf p a with
  | none => false
  | some fab =>
    let gr := parseGroups rd (sectOf rd 0xB) p fab
    let named := imageNamed rd prog.1.length (rd (sectOf rd 8).lo 4) dies.length gr.2.1
    cores.2 && prog.2 && decide ((sectOf rd 3).len = 1040) && res.2 && (parseReloc rd (findSect (sections rd) 5) cores.1).2
      && s.formatOk p a && (barriersOf rd (findSect (sections rd) 7)).2 && (parseChain rd (sectOf rd 9)).2
      && (parseCheck rd (sectOf rd 0xC)).2.2 && gr.2.2 && scheduleOk rd (sectOf rd 8) cores.1 gr.1
      && namedOnly s.mem a (rd 16 8) (named ++ contentRanges prog.1 res.1)

/-- The digest of an image (R298). -/
def Dev.imageDigest (s : Dev) (a : Nat) : List Byte :=
  let rd := s.reader a
  shake256 (Memory.bytes s.mem a (match findSect (sections rd) 0xFF with
    | some x => x.lo
    | none => rd 16 8))

/-- The outcome of steps 1 to 5 under the provisioned operator keys: the event of the first step that fails. -/
def Dev.loadCheck (s : Dev) (opKeys : List Nat) (p a : Nat) : Option Nat :=
  let rd := s.reader a
  if !s.tilesInHbm p a 1 || !headerOk rd (s.dieMask p) || !s.tilesInHbm p a (rd 16 8 / tileSize) then some Ev.PLAN_FORMAT
  else if !tableOk rd then some Ev.PLAN_FORMAT
  else match findSect (sections rd) 0xFF with
    | some x =>
      if sigTileOk "FENRAM-TX4-PLAN" (s.imageDigest a) (s.sectBytes a x) opKeys then (if s.contentOk p a then none else some Ev.PLAN_FORMAT)
      else some Ev.PLAN_SIG_BAD
    | none =>
      if s.flag Fld.PLAN_CTL_REQUIRE_SIGNED 0 then some Ev.PLAN_UNSIGNED
      else if s.contentOk p a then none else some Ev.PLAN_FORMAT

/-! ### Binding (R292) -/

/-- The binding of one die's used clusters to present ones; none when too few. -/
def bindDie (r : CoresRec) (pres : Nat → Bool) : Option (List (Nat × Nat)) :=
  let used := setBits 272 r.use
  let lost := used.filter (fun k => !pres k)
  let free := (setBits 272 r.vac).filter pres
  if free.length < lost.length then none
  else some (((used.filter pres).map (fun k => (k, k))) ++ lost.zip free)

/-- Whether a cluster of a die is present (R31). -/
def Dev.clusterPresent (s : Dev) (d k : Nat) : Bool := !s.fenced d && !s.isShort d k

/-- Logical cores a partition presents. -/
def Dev.partCores (s : Dev) (p : Nat) : Nat :=
  16 * ((s.diesOf p).flatMap (fun d => (List.range 272).filter (s.clusterPresent d))).length

/-- The binding of a partition's plan: (die, plan cluster, device cluster). -/
def Dev.binding (s : Dev) (p lcores : Nat) (rs : List CoresRec) : Option (List (Nat × Nat × Nat)) :=
  let bs := rs.map (fun r => (bindDie r (s.clusterPresent r.die)).map (fun b => b.map (fun x => (r.die, x.1, x.2))))
  if s.partCores p < lcores ∨ bs.any (fun b => b.isNone) then none else some (bs.flatMap (fun b => b.getD []))

/-- A plan core with its serving logical core under a binding. -/
def bindCore (bs : List (Nat × Nat × Nat)) (c : PlanCore) : PlanCore :=
  let d := coreDie c.plan
  let k := ((bs.find? (fun b => b.1 == d && b.2.1 == coreCluster c.plan)).map (fun b => b.2.2)).getD (coreCluster c.plan)
  { c with core := coreId d k (coreNum c.plan) }

/-- A plan's cores in full redundancy: the odd core of a pair runs the even core's program, with its content and entry (R455). -/
def dupCores (cs : List PlanCore) : List PlanCore :=
  cs.map (fun c => if c.plan % 2 = 0 then c else match cs.find? (fun e => e.plan == c.plan - 1) with
    | some e => { c with entry := e.entry, tile := e.tile, ntiles := e.ntiles }
    | none => c)

/-- The plan an image gives a partition, not yet bound: what steps 3 to 5 read of it, with the scruples its tiles have (R287, R296). -/
def Dev.readPlan (s : Dev) (p a : Nat) : Plan :=
  let rd := s.reader a
  let uses := (parseCores rd (sectOf rd 1) (s.diesOf p)).1
  let cores := (parseProgram rd (sectOf rd 2) (planIds uses)).1
  let check := parseCheck rd (sectOf rd 0xC)
  let fab := (s.fabricOf p a).getD {}
  let g := formatNum (s.formatBytes a)
  { addr := a, length := rd 16 8, dies := rd 28 1, lcores := rd 24 4
    cores := if check.1.testBit 1 then dupCores cores else cores
    barriers := (barriersOf rd (findSect (sections rd) 7)).1
    gap := rd ((sectOf rd 8).lo + 4) 4, entries := schedEntries rd (sectOf rd 8), fabric := fab
    groups := (parseGroups rd (sectOf rd 0xB) p fab).1
    ownFabric := s.sectBytes a (sectOf rd 0xA), fabricBytes := s.sectBytes a (sectOf rd 0xA)
    groupsBytes := namedBytes (sectOf rd 0xB).lo (parseGroups rd (sectOf rd 0xB) p fab).2.1 (s.sectBytes a (sectOf rd 0xB))
    relocs := (parseReloc rd (findSect (sections rd) 5) []).1, residents := (s.parseResident p rd (findSect (sections rd) 4)).1
    regionBase := g fmtBase 0, regionTiles := g fmtTotal 0 % 2 ^ 28, rtest := check.2.1
    uses := uses, planId := rd 32 8, digest := s.imageDigest a, signed := (findSect (sections rd) 0xFF).isSome
    consts := s.sectBytes a (sectOf rd 3), format := s.formatBytes a, check := check.1
    scruples := (List.range (rd 16 8 / tileSize)).map (fun t => tileScruple (s.tile (a + t * tileSize))) }

/-- A plan under a binding (R292). A barrier member that is no plan core of the image is kept as a core that never arrives. -/
def Plan.bind (pl : Plan) (bs : List (Nat × Nat × Nat)) : Plan :=
  let cores := pl.cores.map (bindCore bs)
  let serve (c : Nat) : Nat := ((cores.find? (fun x => x.plan == c)).map (fun x => x.core)).getD (65536 + c)
  { pl with cores := cores, barriers := pl.barriers.map (fun b => b.map serve), bound := true }

/-! ### LOAD (R296 steps 1 to 7) -/

/-- Refuses a request, or ends a load, with an event in ERR. -/
def Dev.planErr (s : Dev) (p code : Nat) : Dev := (s.setFld Fld.PLAN_STAT_ERR p code).raise p code

/-- Whether LOAD is refused in the present state (R297, R523, R532, R558). -/
def Dev.loadRefused (s : Dev) (p : Nat) : Bool :=
  decide (s.planState p ≠ 0) || !s.running || (s.diesOf p).any s.fenced || s.flag Fld.SEC_STAT_RESETREQ 0

/-- Whether a CHAIN section may be used: none is in force, or it equals the one in force (R308). -/
def Dev.chainAgrees (s : Dev) (c : ChainCfg) : Bool := !s.chain.inForce || decide (c = s.chainCfg)

/-- Whether a fill is in progress in a partition (R486). -/
def Dev.filling (s : Dev) (p : Nat) : Bool := s.spr.fills.any (fun f => s.partOf f.die == p)

/-- Step 7 of a load that is not bound yet, which waits for every fill in the partition to end; it binds by the cluster map as it stood when the load
began (R292, R296, R486). -/
def Dev.loadBind (s : Dev) (p : Nat) : Dev :=
  match (s.part p).loading with
  | none => s
  | some pl =>
    if pl.bound || s.filling p then s
    else match (s.part p).loadBinding with
      | none =>
        let s := (s.setFld Fld.PLAN_STAT_STATE p 0).setPart p { s.part p with loading := none, pastChain := false }
        (s.planErr p Ev.PLAN_COREMAP).releaseChain p
      | some bs => s.setPart p { s.part p with loading := some (pl.bind bs) }

/-- The tiles of the image of a load: its length's, where they fit, else the first. -/
def Dev.loadTiles (s : Dev) (p a : Nat) : List Nat :=
  let n := s.reader a 16 8 / tileSize
  if s.tilesInHbm p a 1 then (List.range (if s.tilesInHbm p a n then n else 1)).map (fun i => a + i * tileSize) else []

/-- A LOAD of PLAN_CMD, up to step 7 where no fill is in progress (R292, R296, R308). It reads every tile of the image: one that reports an
uncorrectable error ends the load as a failed use (R446 to R448). -/
def Dev.planLoad (s : Dev) (opKeys : List Nat) (p : Nat) : Dev :=
  let a := s.fld Fld.PLAN_ADDR_ADDR p / tileSize * tileSize
  let rd := s.reader a
  if s.loadRefused p then s.planErr p Ev.PLAN_STATE
  else match (s.loadTiles p a).find? s.ueAt with
  | some t => ((s.hbmErrors (s.loadTiles p a)).useFailedAs p p Ev.TILE_POISON none 0 t poisonScruple (tileScruple (s.tile t))).setFld Fld.PLAN_STAT_ERR p Ev.TILE_POISON
  | none =>
    match s.loadCheck opKeys p a with
    | some code => s.planErr p code
    | none =>
      let c := (parseChain rd (sectOf rd 9)).1
      if !s.chainAgrees c then s.planErr p Ev.PLAN_CHAIN
      else
        let s := if s.chain.inForce then s else s.installChain c
        let pl := s.readPlan p a
        let s := s.setPart p { s.part p with loading := some pl, loadBinding := s.binding p pl.lcores pl.uses, pastChain := true }
        (s.setFld Fld.PLAN_STAT_STATE p 1).loadBind p

/-! ### Step 8 and completion -/

/-- A number of `n` bytes at an offset of a list of bytes. -/
def byteNum (bs : List Byte) (o n : Nat) : Nat := leNat ((bs.drop o).take n)

/-- The plan registers of one bound core, its registers cleared and its lanes seeded, with the CONST section's bytes (R151, R203, R232,
R284, R285). Banks, panels and what a stop recorded stay (R85, R274). -/
def Dev.loadCore (s : Dev) (consts : List Byte) (c : PlanCore) : Dev :=
  let seed := byteNum consts 0 6
  let lanes := seedLanes seed c.core
  let s := s.setCore c.core { s.core c.core with
    sregs := [], vregs := [], pregs := [], nregs := [], pend := [], gillCols := [], lanes := lanes, committed := lanes, spilled := [] }
  let s := ((s.setReg .CORE_ENTRY c.core c.entry).setReg .RNG_SEED c.core seed).setReg .EDGE_ROTSEED c.core (byteNum consts 8 6)
  let s := s.each (List.range 128) (fun i s => s.setReg .RNG_CDF (dieIdx .RNG_CDF c.core i) (byteNum consts (16 + 8 * i) 8))
  (s.setReg .CORE_VFP c.core 0).setFld Fld.GILL_STAT_FILL c.core 0

/-- PLAN_BIND of a partition's dies (R315). -/
def Dev.setBind (s : Dev) (pl : Plan) : Dev :=
  s.each pl.cores (fun c s =>
    if coreNum c.plan ≠ 0 then s
    else
      let i := dieIdx .PLAN_BIND (coreDie c.core) (coreCluster c.core)
      s.setReg .PLAN_BIND i (coreCluster c.plan + 512 * b2n (coreCluster c.plan != coreCluster c.core)))

/-- Clears PLAN_BIND of a partition's dies. -/
def Dev.clearBind (s : Dev) (p : Nat) : Dev :=
  s.each (s.diesOf p) (fun d s => s.each (List.range 272) (fun k s => s.clearReg .PLAN_BIND (dieIdx .PLAN_BIND d k)))

/-- GRP_SCOPE and GRP_G of a partition from its GROUPS section (R414). -/
def Dev.setGroups (s : Dev) (p : Nat) (g : Groups) : Dev :=
  let s := (s.setReg .GRP_SCOPE p (g.scopeId + 2 ^ 32 * g.total + 2 ^ 47 * b2n g.root)).setReg .GRP_STAT p 0
  s.each (List.range 1024) (fun i s =>
    s.setReg .GRP_G (dieIdx .GRP_G p i) (match g.groups[i]? with
      | some r => r.gid + 2 ^ 16
      | none => 0))

/-- The plan digest registers. -/
def Dev.setDigest (s : Dev) (p : Nat) (dig : List Byte) : Dev :=
  s.each (List.range 8) (fun i s => s.setReg .PLAN_DIGEST (dieIdx .PLAN_DIGEST p i) (leNat ((dig.drop (8 * i)).take 8)))

/-- A load's failure at step 8: what it wrote is zeroed, and the partition is EMPTY (R296). -/
def Dev.undoLoad (s : Dev) (p code : Nat) (cores : List Nat) : Dev :=
  let s := s.each cores (fun c s => s.zeroStride c)
  let s := (s.setFld Fld.PLAN_STAT_STATE p 0).setFld Fld.PLAN_STAT_ERR p code
  (s.setPart p { s.part p with loading := none, pastChain := false }).releaseChain p

/-- The first image tile, of those the loader only reads, whose use fails. -/
def Dev.badImageTile (s : Dev) (pl : Plan) : Option (Nat × Nat) :=
  (List.range (pl.length / tileSize)).findSome? (fun t => (s.imageFault pl t).map (fun code => (t, code)))

/-- The writes of step 8: RESIDENT, then the program of each plan core in order, then the tables. The result holds the event of a
failing image tile and the cores written. -/
def Dev.loadStores (s : Dev) (p : Nat) (pl : Plan) : Dev × Option Nat × List Nat :=
  let r := s.copyImage p pl false pl.residentTiles
  let acc := pl.cores.foldl (fun (acc : Dev × Option Nat × List Nat) c =>
    if acc.2.1.isSome then acc
    else
      let q := acc.1.loadProgram p pl false c
      (q.1, q.2.1, if q.2.1.isSome && q.2.2 == 0 then acc.2.2 else acc.2.2 ++ [c.core])) (r.1, r.2.1, [])
  if acc.2.1.isSome then acc
  else match acc.1.badImageTile pl with
    | none => acc
    | some (t, code) => (acc.1.imageUseFailed p pl t code, some code, acc.2.2)

/-- What a successful load leaves in the partition's registers (R171, R296, R300, R314, R315, R321, R344, R363, R373, R477). -/
def Dev.loadDone (s : Dev) (p : Nat) (pl : Plan) : Dev :=
  let s := s.each pl.cores (fun c s => s.loadCore pl.consts c)
  let s := (s.loadFormat p pl.format).setReg .CHK_CTL p pl.check
  let s := (s.setGroups p pl.groups).setBind pl
  let s := (s.setReg .PLAN_ID p pl.planId).setDigest p pl.digest
  let subst := pl.cores.any (fun c => coreCluster c.plan != coreCluster c.core)
  let s := s.setReg .PLAN_STAT p (2 + 4 * b2n pl.signed + 8 * b2n subst)
  let s := ((s.setFld Fld.STEP_STAT_FRONT p 0).setFld Fld.CTX_STAT_STATE p 0).setRevision p none
  let s := (s.setReg .PLAN_STEPBEAT p 0).setReg .PLAN_SCHED p 0
  let x := s.part p
  let short := pl.cores.any (fun c => !s.present c.core)
  let s := s.setPart p { x with plan := some pl, loading := none, start := none, stopReq := false, noRun := short, reach := 0, degLast := [], decision := none
                                captures := [] }
  (s.loadRoutes p pl.fabric).comparison p []

/-- A load finishes its writes, once it is bound (R296, R486); a bridge down inside the partition holds it (R24; assumption 74). -/
def Dev.loadComplete (s : Dev) (p : Nat) : Dev :=
  match (s.part p).loading with
  | none => s
  | some pl =>
    if !pl.bound || s.bridgeStops p then s
    else
      let r := s.loadStores p pl
      match r.2.1 with
      | some code => r.1.undoLoad p code r.2.2
      | none => r.1.loadDone p pl

/-! ### UNLOAD, STOP, RUN -/

/-- The plan-loaded registers of a core, zeroed (R297). -/
def Dev.unloadCore (s : Dev) (c : Nat) : Dev :=
  let s := ((s.setReg .CORE_ENTRY c 0).setReg .RNG_SEED c 0).setReg .EDGE_ROTSEED c 0
  s.each (List.range 128) (fun i s => s.setReg .RNG_CDF (dieIdx .RNG_CDF c i) 0)

/-- The registers and routes that a plan put in place, back to no plan (R297, R314, R363). -/
def Dev.unloadRegs (s : Dev) (p : Nat) (pl : Plan) : Dev :=
  let s := s.each pl.cores (fun c s => s.unloadCore c.core)
  let s := ((s.clearFormat p).setReg .CHK_CTL p 0).setGroups p {}
  let s := (s.setReg .PLAN_ID p 0).setReg .PLAN_STEPBEAT p 0
  let s := ((s.setReg .PLAN_SCHED p 0).setDigest p []).clearBind p
  let s := (s.unloadRoutes p pl.fabric).setRevision p none
  ((s.setFld Fld.PLAN_STAT_STATE p 0).setFld Fld.PLAN_STAT_SIGNED p 0).setFld Fld.PLAN_STAT_SUBST p 0

/-- A restore in progress ends with its plan. -/
def Dev.endRestore (s : Dev) (p : Nat) : Dev :=
  if s.fld Fld.CTX_STAT_STATE p = 1 then s.setFld Fld.CTX_STAT_STATE p 0 else s

/-- A partition's plan goes, and with it a diagnosis in progress (R297, R308, R363, R488; assumption 77). -/
def Dev.unload (s : Dev) (p : Nat) : Dev :=
  match (s.part p).plan with
  | none => s
  | some pl =>
    let s := (s.dropCopies p).unloadRegs p pl
    let x := s.part p
    let s := s.setPart p { x with plan := none, pastChain := false, start := none, stopReq := false, noRun := false, reach := 0, captures := []
                                  restoring := none, residentFresh := false }
    let s := (s.each (s.portsOf p) (fun q s => s.setFld Fld.FAB_PORT_STAT_PLAN q planUnused)).countPorts p
    (((s.endRestore p).setFld Fld.CHK_STAT_DIAG p 0).releaseChain p).unloadFills p

/-- UNLOAD (R297). -/
def Dev.planUnload (s : Dev) (p : Nat) : Dev := if s.planState p = 2 then s.unload p else s.planErr p Ev.PLAN_STATE

/-- STOP (R297, R310): a pending start is cancelled; a step in progress is the last. -/
def Dev.planStop (s : Dev) (p : Nat) : Dev :=
  if s.planState p ≠ 3 then s.planErr p Ev.PLAN_STATE
  else if (s.part p).stepping then s.setPart p { s.part p with stopReq := true }
  else s.toLoaded p

/-- Whether PLAN_RUN is refused (R24, R310, R325, R330, R340, R461, R486, R491, R502, R532, R599). -/
def Dev.runRefused (s : Dev) (p beat : Nat) : Bool :=
  decide (s.planState p ≠ 2) || !(decide (s.chnState = chnLocked) || decide (s.chnState = chnHoldover))
    || decide ((BitVec.ofNat 64 beat - BitVec.ofNat 64 s.chainCount).toInt < 16)
    || s.flag Fld.STEP_STAT_UNCERT p || s.flag Fld.STEP_STAT_LIMIT p
    || decide (s.fld Fld.CTX_STAT_STATE p = 1) || decide (s.fld Fld.CTX_STAT_STATE p = 3)
    || s.flag Fld.CHK_STAT_DIAG p || s.fillHolds p || (s.part p).noRun || s.bridgeStops p || !s.running

/-- A write of PLAN_RUN (R310). -/
def Dev.planRun (s : Dev) (p beat : Nat) : Dev :=
  if s.runRefused p beat then s.planErr p Ev.PLAN_STATE
  else (s.setFld Fld.PLAN_STAT_STATE p 3).setPart p { s.part p with start := some (BitVec.ofNat 64 beat), stopReq := false }

end Sys2Proof.Machine
end

