-- ==== Sys2Proof/Machine/Restore.lean ====
section
/-!
DEFINITION. Saving and restoring a context (R338 to R340), and the writes of the step registers (R320, R331).
-/
namespace Sys2Proof.Machine

/-- Refuses a step or context write or command (R320, R331, R338, R341). -/
def Dev.ctxRefuse (s : Dev) (p : Nat) : Dev := s.raise p Ev.CTX_STATE

/-- A write of STEP_CTAB (R320). -/
def Dev.writeCtab (s : Dev) (p a : Nat) : Dev :=
  if s.planState p ≠ 2 then s.ctxRefuse p
  else if a = 0 then s.setReg .STEP_CTAB p 0
  else if s.ctabOk p a then s.setReg .STEP_CTAB p a
  else (s.setReg .STEP_CTAB p 0).raise p Ev.CTX_CTAB

/-- A write of STEP_STREAM (R331). -/
def Dev.writeStream (s : Dev) (p v : Nat) : Dev :=
  let limit := s.flag Fld.STEP_STAT_LIMIT p
  if s.planState p ≠ 2 ∨ 0xFFFE ≤ v ∨ (limit ∧ v = s.fld Fld.STEP_STREAM_STREAM p) then s.ctxRefuse p
  else
    let s := s.setFld Fld.STEP_STREAM_STREAM p v
    if limit then (s.setFld Fld.STEP_CTR_STEP p 0).setFld Fld.STEP_STAT_LIMIT p 0 else s

/-- A write of STEP_CTR (R331). -/
def Dev.writeCtr (s : Dev) (p v : Nat) : Dev :=
  if s.planState p ≠ 2 then s.ctxRefuse p else s.setFld Fld.STEP_CTR_STEP p v

/-- SAVE (R338, R532). -/
def Dev.ctxSave (s : Dev) (p : Nat) : Dev :=
  if s.planState p ≠ 2 ∨ !s.running ∨ s.fld Fld.CTX_DSTAT_STATE p = 1 ∨ s.reg .CTX_DHOST p = 0 ∨ s.fld Fld.CTX_STAT_STATE p = 3 then s.ctxRefuse p
  else s.beginDrain p (s.step p) (s.monSnaps p) (s.fld Fld.FMT_BUDGET_USED p)

/-! ### Checking an image (R337, R339 steps 1 to 4) -/

/-- The five sections of a context image. -/
def ctxSections (rd : Reader) : List Sect := (List.range 5).map (fun i => ⟨rd (128 + 16 * i) 2, rd (132 + 16 * i) 4, rd (136 + 16 * i) 8⟩)

/-- The section of a type in a context image. -/
def ctxSect (rd : Reader) (t : Nat) : Sect := (findSect (ctxSections rd) t).getD ⟨t, 0, 0⟩

/-- Bytes of the FABRIC part of a context's GROUPS section. -/
def ctxFabricLen (rd : Reader) : Nat := 640 + 8 * rd ((ctxSect rd 3).lo + 4) 4

/-- The routing and membership of a context image, where they follow R379 and R389 to R391. -/
def Dev.ctxGroups (s : Dev) (p a : Nat) : Option (Fabric × Groups) :=
  let rd := s.reader a
  let x := ctxSect rd 3
  let n := ctxFabricLen rd
  if x.len < n then none
  else match parseFabric (Memory.bytes s.mem (a + x.lo) n) (s.diesOf p) with
  | none => none
  | some fab =>
    let g := parseGroups (s.reader (a + x.lo + n)) ⟨0, 0, x.len - n⟩ p fab
    if g.2.2 && namedOnly s.mem (a + x.lo + n) (x.len - n) g.2.1 then some (fab, g.1) else none

/-- Step 1: the header, the section table and the sections; a reserved stream ID breaks it (R331; DEDUCED, assumption 24). -/
def Dev.ctxFormatOk (s : Dev) (p a : Nat) : Bool :=
  let rd := s.reader a
  let len := rd 16 8
  let ss := ctxSections rd
  let at_ (t : Nat) : Sect := ctxSect rd t
  let lanes := (at_ 1).len / 32
  let named : Ranges :=
    [(0, 12), (16, 29), (32, 45), (48, 50), (64, 128)] ++ (List.range 5).flatMap (fun i => [(128 + 16 * i, 131 + 16 * i), (132 + 16 * i, 144 + 16 * i)])
      ++ (List.range lanes).flatMap (fun i => let b := (at_ 1).lo + 32 * i; [(b, b + 3), (b + 4, b + 22), (b + 24, b + 30)])
      ++ [((at_ 2).lo, (at_ 2).hi), ((at_ 3).lo, (at_ 3).hi), ((at_ 4).lo, (at_ 4).hi), ((at_ 5).lo, (at_ 5).lo + 8 * (at_ 5).off)]
  s.tilesInHbm p a 1 && decide (rd 0 8 = 0x5458544334585446) && decide (rd 8 2 = 1) && decide (rd 10 2 = 5) && decide (len % tileSize = 0)
    && decide (0 < len) && s.tilesInHbm p a (len / tileSize) && decide (rd 28 1 = s.dieMask p)
    && [1, 2, 3, 4, 5].all (fun t => ss.any (fun x => x.typ == t)) && (List.range 5).all (fun i => decide (rd (130 + 16 * i) 1 = 1))
    && ss.all (fun x => decide (x.off ≠ 0) && decide (x.hi ≤ len)) && disjoint (ss.map (fun x => (x.lo, x.hi)))
    && decide ((ss.getLast?).map (fun x => x.typ) = some 5) && decide ((at_ 5).hi = len) && ss.all (fun x => decide (x.lo ≤ (at_ 5).lo))
    && decide (8 * (at_ 5).off ≤ (at_ 5).len)
    && decide ((at_ 1).len % 32 = 0) && decide (rd 48 2 < 0xFFFE) && decide ((at_ 2).len = 16400) && decide ((at_ 4).len % tileSize = 0)
    && namedOnly s.mem a len named
    && (List.range lanes).all (fun i => decide (rd ((at_ 1).lo + 32 * i + 2) 1 < 32))
    && decide (rd (at_ 2).lo 16 < 2 ^ 28) && monitors.all (fun n =>
      let b := (at_ 2).lo + 16 + 16 * n
      decide (stateMask (rd b 8) = rd b 8) && decide (rd (b + 8) 8 < 2 ^ 40))
    && (s.ctxGroups p a).isSome

/-- Step 2: the plan's identity and digest. -/
def Dev.ctxPlanOk (s : Dev) (p a : Nat) : Bool :=
  let rd := s.reader a
  decide (rd 32 8 = s.reg .PLAN_ID p) && (List.range 8).all (fun i => decide (rd (64 + 8 * i) 8 = s.reg .PLAN_DIGEST (dieIdx .PLAN_DIGEST p i)))

/-- Step 4: the tensors, the lanes, the fall-back records and USED against the loaded plan and the commit table. -/
def Dev.ctxMatches (s : Dev) (p a : Nat) : Bool :=
  let rd := s.reader a
  let lo := (ctxSect rd 2).lo
  let cores : List Nat := match (s.part p).plan with
    | some pl => pl.cores.map (fun c => c.plan)
    | none => []
  let st (n : Nat) : Nat := rd (lo + 16 + 16 * n) 8
  decide ((ctxSect rd 4).len = tileSize * (s.ctab p).foldl (fun n e => n + e.tiles) 0)
    && (cores.zipIdx.all (fun c => (List.range 32).all (fun l =>
      let b := (ctxSect rd 1).lo + 1024 * c.2 + 32 * l
      decide (rd b 2 = c.1) && decide (rd (b + 2) 1 = l))))
    && decide (rd 24 4 = cores.length) && decide (1024 * cores.length = (ctxSect rd 1).len)
    && monitors.all (fun n => s.monitored p n || decide (rd (lo + 16 + 16 * n) 16 = 0))
    && decide (rd lo 4 = (monitors.filter (fun n => (st n).testBit 4)).foldl (fun t n => t + s.fld Fld.FMT_MON_SIZE_COST (monIdx p n)) 0)
    && (match s.ctxGroups p a with
      | some g => (s.entries p).all (fun e => e.kind != kindPhase || (match g.2.find e.obj with
        | some (_, r) => decide (e.arg < r.expects.length)
        | none => false))
      | none => false)

/-- The event of the first of steps 1 to 4 that fails. -/
def Dev.ctxCheck (s : Dev) (p a : Nat) : Option Nat :=
  let rd := s.reader a
  if !s.ctxFormatOk p a then some Ev.CTX_FORMAT
  else if !s.ctxPlanOk p a then some Ev.CTX_PLAN
  else if (s.boundCores p).length < rd 24 4 then some Ev.CTX_CORECOUNT
  else if !s.ctxMatches p a then some Ev.CTX_FORMAT
  else none

/-! ### Loading (R339 step 5) -/

/-- The event that tile `t` of the image at `a` meets when it is used: its sideband's (R444), or that of the scruple the image records for it in its
SCRUPLES section (R337, R339 step 5). -/
def Dev.ctxFault (s : Dev) (a t : Nat) : Option Nat :=
  let rd := s.reader a
  let x := ctxSect rd 5
  let own := rd (x.lo + 8 * t) 8
  match s.tileFault (a + t * tileSize) with
  | some code => some code
  | none =>
    if x.off ≤ t then none
    else if own = poisonScruple then some Ev.TILE_POISON
    else if own = tileScruple (s.tile (a + t * tileSize)) then none
    else some Ev.TILE_CHECK

/-- A use of an image tile fails (R447): its event names the scruple it was held against. -/
def Dev.ctxFailed (s : Dev) (p a t code : Nat) : Dev :=
  let rd := s.reader a
  let at_ := a + t * tileSize
  if (s.tileFault at_).isSome then s.useFailed p p code none 0 at_
  else (s.hbmErrors [at_]).useFailedAs p p code none 0 at_ (rd ((ctxSect rd 5).lo + 8 * t) 8) (tileScruple (s.tile at_))

/-- The first of a list of the image's tiles whose use fails. -/
def Dev.firstBad (s : Dev) (a : Nat) (ts : List Nat) : Option (Nat × Nat) := ts.findSome? (fun t => (s.ctxFault a t).map (fun code => (t, code)))

/-- Copies tensor tiles of the image with their scruples, up to the first that fails; the result says which event. -/
def Dev.copyTensors (s : Dev) (p a : Nat) (ts : List (Nat × Nat)) : Dev × Option Nat :=
  ts.foldl (fun (acc : Dev × Option Nat) t =>
    let src := a + t.1 * tileSize
    if acc.2.isSome then acc
    else match acc.1.ctxFault a t.1 with
      | some code => (acc.1.ctxFailed p a t.1 code, some code)
      | none => (acc.1.writeTile t.2 (acc.1.tile src) (Memory.scruple acc.1.mem src), none)) (s, none)

/-- Loads what a context holds of FMT_MONn_STATE; REQ and DEN stay (R189, R337). -/
def loadState (old v : Nat) : Nat := stateMask v + 32 * (old / 32 % 4)

/-- The fall-back state of an image, for the monitored layers. -/
def Dev.loadFallback (s : Dev) (p : Nat) (rd : Reader) : Dev :=
  let lo := (ctxSect rd 2).lo
  let s := s.setFld Fld.FMT_BUDGET_USED p (rd lo 4)
  s.each (monitors.filter (s.monitored p)) (fun n s =>
    let b := lo + 16 + 16 * n
    (s.setReg .FMT_MON_STATE (monIdx p n) (loadState (s.reg .FMT_MON_STATE (monIdx p n)) (rd b 8))).setReg .FMT_MON_RVSTEP (monIdx p n) (rd (b + 8) 8))

/-- Puts routing and membership of an image into force; a revision where they differ from the plan's own (R339, R373). -/
def Dev.installRouting (s : Dev) (p a : Nat) : Dev :=
  match (s.part p).plan, s.ctxGroups p a with
  | some pl, some (fab, g) =>
    let rd := s.reader a
    let n := ctxFabricLen rd
    let lo := a + (ctxSect rd 3).lo
    let fb := Memory.bytes s.mem lo n
    let gb := Memory.bytes s.mem (lo + n) ((ctxSect rd 3).len - n)
    let was := s.transitDegraded p
    let s := s.unloadRoutes p pl.fabric
    let s := s.setPart p { s.part p with plan := some { pl with fabric := fab, groups := g, fabricBytes := fb, groupsBytes := gb } }
    let s := (s.setGroups p g).loadRoutes p fab
    let s := s.setRevision p (if fb = pl.ownFabric then none else some (shake256 (padTile fb)))
    s.comparison p was
  | _, _ => s

/-- A restore fails: its event in ERR. -/
def Dev.ctxFail (s : Dev) (p code : Nat) : Dev := (s.setFld Fld.CTX_STAT_ERR p code).raise p code

/-- A restore's step 5. -/
def Dev.ctxLoad (s : Dev) (p a : Nat) : Dev :=
  let rd := s.reader a
  let x := ctxSect rd 4
  let s := s.setFld Fld.STEP_STAT_UNCERT p 0
  let others := (List.range (rd 16 8 / tileSize)).filter (fun t => !(decide (x.off ≤ t) && decide (t * tileSize < x.hi)))
  let bad (s : Dev) (code : Nat) : Dev := (s.setFld Fld.CTX_STAT_STATE p 3).setFld Fld.CTX_STAT_ERR p code
  match s.firstBad a others with
  | some (t, code) => bad (s.ctxFailed p a t code) code
  | none =>
    let dsts := (s.ctab p).flatMap (fun e => (List.range e.tiles).map (fun i => e.copy0 + i * tileSize))
    let r := s.copyTensors p a (dsts.zipIdx.map (fun d => (x.off + d.2, d.1)))
    match r.2 with
    | some code => bad r.1 code
    | none =>
      let s := ((r.1.setFld Fld.STEP_STAT_FRONT p 0).loadFallback p rd).installRouting p a
      let s := ((s.setFld Fld.STEP_CTR_STEP p (rd 40 5)).setFld Fld.STEP_STREAM_STREAM p (rd 48 2)).setFld Fld.STEP_STAT_LIMIT p 0
      (s.setFld Fld.CTX_STAT_STATE p 1).setPart p { s.part p with restoring := some a }

/-- RESTORE (R339, R532), refused while a bridge inside the partition is down (R24; DESIGN CHOICE, assumption 74). -/
def Dev.ctxRestore (s : Dev) (p : Nat) : Dev :=
  let a := s.fld Fld.CTX_RADDR_ADDR p
  if s.planState p ≠ 2 ∨ !s.running ∨ s.fld Fld.CTX_DSTAT_STATE p = 1 ∨ s.fld Fld.CTX_STAT_STATE p = 1 ∨ s.bridgeStops p then
    s.ctxFail p Ev.CTX_STATE
  else match s.ctxCheck p a with
    | some code => s.ctxFail p code
    | none => s.ctxLoad p a

/-! ### Lanes (R340) -/

/-- One lane record: the lane to load and whether it is backstepped; none for skew. -/
def restoreLane (align : Bool) (state cnt pos : Nat) : Option (Lane × Bool) :=
  let l : Lane := ⟨BitVec.ofNat 96 state, BitVec.ofNat 48 cnt⟩
  if pos = 0xFFFFFFFFFFFF ∨ cnt = pos then some (l, false)
  else if cnt = pos + 1 ∧ align ∧ !l.saturated then some (l.back, true)
  else none

/-- A restore's step 6: every lane record loaded under R340, and the outcome. -/
def Dev.ctxLanes (s : Dev) (p : Nat) : Dev :=
  match (s.part p).plan, (s.part p).restoring with
  | some pl, some a =>
    let rd := s.reader a
    let lo := (ctxSect rd 1).lo
    let align := s.flag Fld.CTX_CTL_ALIGN p
    let r := pl.cores.zipIdx.foldl (fun (acc : Dev × Nat × Nat) c =>
      let rs := (List.range 32).map (fun l =>
        let b := lo + 1024 * c.2 + 32 * l
        restoreLane align (rd (b + 4) 12) (rd (b + 16) 6) (rd (b + 24) 6))
      let x := acc.1.core c.1.core
      let lanes := rs.zipIdx.foldl (fun (m : SMap Lane) q => match q.1 with
        | some (v, _) => SMap.write {} m q.2 v
        | none => m) x.lanes
      (acc.1.setCore c.1.core { x with lanes := lanes, committed := lanes },
        acc.2.1 + (rs.filter (fun q => q.isNone)).length, acc.2.2 + (rs.filter (fun q => q.any (fun v => v.2))).length)) (s, 0, 0)
    let s := (r.1.raiseN p Ev.RESTORE_ALIGNED r.2.2).raiseN p Ev.RESTORE_SKEW r.2.1
    let s := s.setPart p { s.part p with restoring := none }
    let s := if r.2.1 = 0 then s else s.setFld Fld.CTX_STAT_ERR p Ev.RESTORE_SKEW
    (s.setFld Fld.CTX_STAT_ALIGNED p (b2n (r.2.2 != 0))).setFld Fld.CTX_STAT_STATE p (if r.2.1 = 0 then 2 else 3)
  | _, _ => s

end Sys2Proof.Machine
end

