-- ==== Sys2Proof/Machine/PlanCmds.lean ====
section
/-!
DEFINITION. The meanings of the plan, chain, step and context commands (R296 to R345).
-/
namespace Sys2Proof.Machine

/-- PLAN_LOAD (R296, R297). -/
def execPlanLoad (port : HostPort) (ue : List (BitVec 52)) (s : State) : Host.Outcome State Fault Refusal :=
  ok s (s.dev.partGate port (fun d => d.withUe (ue.map (fun a => a.toNat)) (fun d => d.planLoad (s.flash.keys 2) (d.partOf port))))

/-- PLAN_LOAD_COMPLETE (R296). -/
def execPlanLoadComplete (part : DieId) (ue : List (BitVec 52)) (s : State) : Host.Outcome State Fault Refusal :=
  ok s (s.dev.withUe (ue.map (fun a => a.toNat)) (fun d => d.loadComplete part))

/-- PLAN_UNLOAD (R297). -/
def execPlanUnload (port : HostPort) (s : State) : Host.Outcome State Fault Refusal :=
  ok s (s.dev.partGate port (fun d => d.planUnload (d.partOf port)))

/-- PLAN_STOP (R310). -/
def execPlanStop (port : HostPort) (s : State) : Host.Outcome State Fault Refusal :=
  ok s (s.dev.partGate port (fun d => d.planStop (d.partOf port)))

/-- PLAN_RUN (R310). -/
def execPlanRun (port : HostPort) (beat : Word) (s : State) : Host.Outcome State Fault Refusal :=
  ok s (s.dev.partGate port (fun d => d.planRun (d.partOf port) beat.toNat))

/-- A CHAIN flit on a fabric port: a control flit like any other to the link (R349, R355), and, where it passes its CRC, a symbol in its bytes
8 to 23 (R350). -/
def Dev.chainFlit (s : Dev) (port : Nat) (fl : Flit) (residence : Nat) : Dev :=
  let t := s.fabFlit port fl
  if s.fabAwake port && flitNum fl 0 1 == 0x3C && flitCrcOk fl && flitNum fl 1 1 == 3 then t.chainSymbol port (flitNum fl 8 16) residence else t

/-- CHAIN_SYMBOL (R303, R306, R350, R591). -/
def execChainSymbol (arrival : SymbolArrival) (residence : BitVec 16) (s : State) : Host.Outcome State Fault Refusal :=
  match arrival with
  | .flit port fl => ok s (s.dev.chainFlit port.toNat fl residence.toNat)
  | .frame fr => ok s (s.dev.chainFrame fr residence.toNat)

/-- CHAIN_CONFLICT (R306, R307). -/
def execChainConflict (s : State) : Host.Outcome State Fault Refusal := ok s s.dev.chainConflict

/-- CHAIN_BEAT_APPLY (R304). -/
def execChainBeatApply (s : State) : Host.Outcome State Fault Refusal := ok s s.dev.beatApply

/-- LOCAL_MASTER_BEAT (R305). -/
def execLocalMasterBeat (s : State) : Host.Outcome State Fault Refusal := ok s s.dev.masterBeat

/-- CHAIN_WINDOW_MISS (R306). -/
def execChainWindowMiss (s : State) : Host.Outcome State Fault Refusal := ok s s.dev.windowMiss

/-- HOLDOVER_BEAT (R306). -/
def execHoldoverBeat (s : State) : Host.Outcome State Fault Refusal := ok s s.dev.holdoverBeat

/-- CHAIN_LOST (R306, R307). -/
def execChainLost (s : State) : Host.Outcome State Fault Refusal := ok s s.dev.chainLost

/-- STEP_START (R310, R311). -/
def execStepStart (part : DieId) (s : State) : Host.Outcome State Fault Refusal := ok s (s.dev.stepStart s.flash part)

/-- SCHEDULE_BEAT (R311). -/
def execScheduleBeat (part : DieId) (ue : List (BitVec 52)) (s : State) : Host.Outcome State Fault Refusal :=
  ok s (s.dev.withUe (ue.map (fun a => a.toNat)) (fun d => d.scheduleBeat s.flash part))

/-- VOTE_DEADLINE (R311). -/
def execVoteDeadline (part : DieId) (s : State) : Host.Outcome State Fault Refusal := ok s (s.dev.voteDeadline part)

/-- UPDEADLINE (R404): on its beat the vote whose deadline it also is fires first; then the partition combines and sends what there is,
unless it has sent. -/
def Dev.upDeadline (s : Dev) (p : Nat) : Dev :=
  if !(s.part p).stepping || decide (s.beatOffset p ≠ (s.groups p).upDeadline) then s
  else
    let s := s.voteDeadline p
    if (s.part p).sentUp then s else s.sendVote p

/-- UPDEADLINE_EXPIRY (R404). -/
def execUpdeadlineExpiry (part : DieId) (s : State) : Host.Outcome State Fault Refusal := ok s (s.dev.upDeadline part)

/-- FLIP_BEAT (R326). -/
def execFlipBeat (part : DieId) (s : State) : Host.Outcome State Fault Refusal := ok s (s.dev.flipBeat part)

/-- HOLD_ROUND (R326). -/
def execHoldRound (part : DieId) (s : State) : Host.Outcome State Fault Refusal := ok s (s.dev.holdRound part)

/-- A drain has written its last byte (R333, R436): nothing of its write streams is left on its ports, and no bridge that is down cuts the
partition (R24; assumption 74). -/
def Dev.drainComplete (s : Dev) (p : Nat) : Dev :=
  match (s.part p).drain with
  | none => s
  | some d =>
    if s.bridgeStops p || d.ports.any (fun q => !(s.hostPort q).streamed) then s
    else
      let s := s.setPart p { s.part p with drain := none, lastDrained := some d.image }
      (s.setFld Fld.CTX_DSTAT_STATE p 2).tryDone p

/-- DRAIN_COMPLETE (R333). -/
def execDrainComplete (part : DieId) (s : State) : Host.Outcome State Fault Refusal := ok s (s.dev.drainComplete part)

/-- STEP_CTAB_WRITE (R320). -/
def execStepCtabWrite (port : HostPort) (value : Word) (s : State) : Host.Outcome State Fault Refusal :=
  ok s (s.dev.partGate port (fun d => d.writeCtab (d.partOf port) (bits value.toNat 51 0)))

/-- STEP_STREAM_WRITE (R331). -/
def execStepStreamWrite (port : HostPort) (value : Word) (s : State) : Host.Outcome State Fault Refusal :=
  ok s (s.dev.partGate port (fun d => d.writeStream (d.partOf port) (bits value.toNat 15 0)))

/-- STEP_CTR_WRITE (R331). -/
def execStepCtrWrite (port : HostPort) (value : Word) (s : State) : Host.Outcome State Fault Refusal :=
  ok s (s.dev.partGate port (fun d => d.writeCtr (d.partOf port) (bits value.toNat 39 0)))

/-- CTX_SAVE (R338). -/
def execCtxSave (port : HostPort) (ue : List (BitVec 52)) (s : State) : Host.Outcome State Fault Refusal :=
  ok s (s.dev.partGate port (fun d => d.withUe (ue.map (fun a => a.toNat)) (fun d => d.ctxSave (d.partOf port))))

/-- CTX_RESTORE (R339). -/
def execCtxRestore (port : HostPort) (ue : List (BitVec 52)) (s : State) : Host.Outcome State Fault Refusal :=
  ok s (s.dev.partGate port (fun d => d.withUe (ue.map (fun a => a.toNat)) (fun d => d.ctxRestore (d.partOf port))))

/-- CTX_RESTORE_COMPLETE (R340). -/
def execCtxRestoreComplete (part : DieId) (s : State) : Host.Outcome State Fault Refusal := ok s (s.dev.ctxLanes part)

/-- FMT_REVERT_WRITE (R184, R194). -/
def execFmtRevertWrite (port : HostPort) (value : Word) (s : State) : Host.Outcome State Fault Refusal :=
  ok s (s.dev.partGate port (fun d => d.revert (d.partOf port) value.toNat))

/-- Whether a core's window is served to a partition's ports: the core is present in it, and the power state is not SLEEP
(R20, R35, R97, R532). -/
def Dev.coreServed (s : Dev) (p c : Nat) : Bool := s.present c && decide (s.corePart c = p) && decide (s.fld Fld.PWR_STAT_STATE 0 ≠ 2)

/-- A host's access to a core's window; outside the partition's window it is unmapped (R423). -/
def Dev.coreGate (s : Dev) (port c : Nat) (f : Dev → Dev) : Dev :=
  s.hostGate port (fun s => if s.coreServed (s.partOf port) c && s.reaches port (coreDie c) then f s else s.raise port Ev.HLK_UNMAPPED)

/-- A write of RNG_BACKSTEP (R206). The lanes change at once; BKBUSY stands until BACKSTEP_COMPLETE. The die controller's copy stays as the
last flip left it (R220). -/
def Dev.backstep (s : Dev) (c v : Nat) : Dev :=
  let x := s.core c
  let lanes := setBits 32 v
  let lane (l : Nat) : Lane := SMap.read {} x.lanes l
  if (s.part (s.corePart c)).stepping || s.flag Fld.RNG_STAT_BKBUSY c || lanes.any (fun l => decide ((lane l).count = 0) || (lane l).saturated) then
    s.raise (coreDie c) Ev.RNG_BACKSTEP_REFUSED
  else
    let ls := lanes.foldl (fun m l => SMap.write {} m l (lane l).back) x.lanes
    (s.setCore c { x with lanes := ls }).setFld Fld.RNG_STAT_BKBUSY c 1

/-- RNG_BACKSTEP_WRITE (R206). -/
def execRngBackstepWrite (port : HostPort) (core : CoreId) (value : Word) (s : State) : Host.Outcome State Fault Refusal :=
  ok s (s.dev.coreGate port core.toNat (fun d => d.backstep core.toNat value.toNat))

/-- BACKSTEP_COMPLETE (R206). -/
def execBackstepComplete (core : CoreId) (s : State) : Host.Outcome State Fault Refusal :=
  ok s (s.dev.setFld Fld.RNG_STAT_BKBUSY core.toNat 0)

end Sys2Proof.Machine
end

