-- ==== Sys2Proof/Machine/Registers.lean ====
section
/-!
DEFINITION. Registers as software sees them (R38, R97 to R102, R132 to R135, R160 to R168, R221 to R226, R275 to R278, R343, R412):
the fields a write reaches by access type, the values derived from other state, and the window of a logical core.
-/
namespace Sys2Proof.Machine

/-- The mask of a register's fields of some access types. -/
def fieldMask (fs : List FieldDesc) (accs : List Access) : Nat :=
  fs.foldl (fun m f => if accs.contains f.acc then m ||| ((2 ^ f.width - 1) * 2 ^ f.lo) else m) 0

/-- A register's value after a write of `v`: RW fields take it, W1C and W1S fields clear or set by ones, the rest stay. -/
def fieldWrite (fs : List FieldDesc) (old v : Nat) : Nat :=
  fs.foldl (fun r f =>
    let new := bits v (f.lo + f.width - 1) f.lo
    let cur := bits r (f.lo + f.width - 1) f.lo
    match f.acc with
    | .rw => putBits r f.lo f.width new
    | .w1c => putBits r f.lo f.width (cur &&& (new ^^^ (2 ^ f.width - 1)))
    | .w1s => putBits r f.lo f.width (cur ||| new)
    | .ro | .wo | .rc => r) old

/-- The plain write of a register. -/
def Dev.writeFields (s : Dev) (k : RegKind) (i v : Nat) : Dev := s.setReg k i (fieldWrite (regDesc k).fields (s.reg k i) v)

/-- The stored value with write-only fields reading zero. -/
def Dev.stored (s : Dev) (k : RegKind) (i : Nat) : Nat :=
  s.reg k i &&& (fieldMask (regDesc k).fields [.ro, .rw, .w1c, .w1s, .rc])

/-! ### The window of a core -/

/-- The array that carries out the work of array `a` on a core: the odd core of a pair takes that of (a + 2) mod 4 (R455). Bank loads, banks
and the registers of the window go by the core's own array; what a panel holds goes by the program's. -/
def Dev.ownArray (s : Dev) (c a : Nat) : Nat := if c % 2 = 1 && s.flag Fld.CHK_CTL_DUP (s.corePart c) then (a + 2) % 4 else a

/-- The arrays of a mask, ascending (R91). -/
def maskArrays (m : Nat) : List Nat := setBits 4 m

/-- ARR_STAT (R100). -/
def Dev.arrStat (s : Dev) (c : Nat) : Nat :=
  let x := s.core c
  let busy := x.flights.foldl (fun m f => m ||| ofBits ((maskArrays f.data.mask.toNat).map (s.ownArray c))) 0
  let loading := x.loads.foldl (fun m l => m ||| 2 ^ (2 * l.array + l.bank)) 0
  busy + 16 * loading

/-- The bank `b` of array `a`, numbered 2a + b. -/
def Core.bank (x : Core) (n : Nat) : Bank := SMap.read {} x.banks n

/-- Whether a code of a format is finite and not zero, its scale apart. -/
def Fmt.solid (f : Fmt) (code : Nat) : Bool :=
  match f.decode code with
  | .fin _ m _ => decide (m ≠ 0)
  | _ => false

/-- The blocks of a bank: scale and codes, in order (R82). -/
def Bank.blocks (b : Bank) (f : Fmt) : List (Nat × List Nat) :=
  b.rows.flatMap (fun r =>
    let cs := unpackElems f.bits 32 r.elems
    if b.bs16 then [(r.sc0.toNat, cs.take 16), (r.sc1.toNat, cs.drop 16)] else [(r.sc0.toNat, cs)])

/-- ARR_BANK (R101). -/
def Bank.reg (b : Bank) : Nat :=
  match b.fmt with
  | none => 0xFF0F
  | some f =>
    let bs := b.blocks f
    let ok := bs.filter (fun x => (!f.narrow || decide (x.1 ≠ 0xFF)) && x.2.any f.solid)
    let scs := ok.map (fun x => if f.narrow then x.1 else 0x7F)
    let lo := scs.foldl min 0xFF
    let hi := scs.foldl max 0
    let nan := ofBits ((b.rows.zipIdx.filter (fun r => f.narrow && (decide (r.1.sc0 = 0xFF) || (b.bs16 && decide (r.1.sc1 = 0xFF))))).map (fun r => r.2))
    f.code + 16 * b2n b.bs16 + 32 + 2 ^ 8 * lo + 2 ^ 16 * hi + 2 ^ 32 * nan

/-- A panel. -/
def Core.panel (x : Core) (n : Nat) : Panel := SMap.read {} x.panels n
def Core.setPanel (x : Core) (n : Nat) (p : Panel) : Core := { x with panels := SMap.write {} x.panels n p }

/-- ACC_STAT (R134). -/
def Core.accStat (x : Core) : Nat :=
  let mask (f : Nat → Bool) : Nat := ofBits ((List.range 8).filter f)
  let inflt (n : Nat) : Bool := x.flights.any (fun f => f.panel == n) || x.edgeFlights.any (fun f => f.panel == some n)
  mask (fun n => (x.panel n).live) + 2 ^ 8 * mask inflt + 2 ^ 16 * mask (fun n => (x.panel n).pair)

/-- Whether the converter has a conversion in flight (R164). -/
def Core.converting (x : Core) : Bool := x.edgeFlights.any (fun f => f.conv)

/-- A draw lane. -/
def Core.lane (x : Core) (l : Nat) : Lane := SMap.read {} x.lanes l

/-- The value of instance `n` of a register of a core's window. -/
def Dev.coreReg (s : Dev) (k : RegKind) (c n : Nat) : Nat :=
  let x := s.core c
  let i := (regDesc k).count * c + n
  match k with
  | .ARR_STAT => s.arrStat c
  | .ARR_BANK => (x.bank n).reg
  | .ACC_STAT => x.accStat
  | .EDGE_STAT => b2n x.converting + 2 * s.fld Fld.EDGE_STAT_RSTPEND c
  | .GILL_STAT => s.fld Fld.GILL_STAT_FILL c + 2 ^ 13 * b2n (decide (s.fld Fld.GILL_STAT_FILL c = 4096))
  | .RNG_STREAM => s.fld Fld.STEP_STREAM_STREAM (s.corePart c)
  | .RNG_STAT => s.fld Fld.RNG_STAT_BKBUSY c + 2 ^ 32 * ofBits ((List.range 32).filter (fun l => (x.lane l).saturated))
  | .RNG_LANE_LO => (x.lane n).state.toNat % 2 ^ 64
  | .RNG_LANE_HI => (x.lane n).state.toNat / 2 ^ 64
  | .RNG_LANE_CNT => (x.lane n).count.toNat
  | .STEP_CORE => s.fld Fld.STEP_STAT_FRONT (s.corePart c) + 2 ^ 24 * s.fld Fld.STEP_CTR_STEP (s.corePart c)
  | k => s.stored k i

/-- The register of a space at an offset: its kind and instance. -/
def regAt (sp : RegSpace) (off : Nat) : Option (RegKind × Nat) :=
  match allRegs.find? (fun k =>
    let r := regDesc k
    decide (r.space = sp) && decide (r.base ≤ off) && decide ((off - r.base) % r.stride = 0) && decide ((off - r.base) / r.stride < r.count)) with
  | some k => some (k, (off - (regDesc k).base) / (regDesc k).stride)
  | none => none

/-- The counters of the format monitors, which belong to the performance class though their layout is their own (R175, R192). -/
def formatCounters : List RegKind := [.FMT_MON_BLK, .FMT_MON_SAT, .FMT_MON_ZERO, .FMT_MON_NZ, .FMT_MON_EXTRACT, .FMT_MON_CLIP]

/-- Whether a kind is a performance counter with a CLR bit that sets COUNT to zero (R102). -/
def RegKind.perfCounter (k : RegKind) : Bool :=
  match (regDesc k).fields with
  | [a, b] => a == ⟨0, 48, .ro, 0⟩ && b == ⟨63, 1, .wo, 0⟩
  | _ => false

/-- A write of GILL_CTL.RESET (R151, R165). -/
def Dev.gillReset (s : Dev) (c : Nat) : Dev :=
  if (s.core c).converting then s.setFld Fld.EDGE_STAT_RSTPEND c 1 else s.setFld Fld.GILL_STAT_FILL c 0

/-- Sets a field unless the value breaks its rule, where the field stays. -/
def Dev.setIf (s : Dev) (okv : Bool) (f : Fld) (i v : Nat) : Dev := if okv then s.setFld f i v else s

/-- A write of a register of a core's window, by the partition or the core's own SCSR (R99, R133, R161 to R167, R206, R222, R278,
R412). -/
def Dev.coreRegWrite (s : Dev) (k : RegKind) (c v : Nat) : Dev :=
  match k with
  | .ACC_CTL =>
    let p := bits v 6 0
    (s.setIf (decide (1 ≤ p) && decide (p ≤ 64)) Fld.ACC_CTL_PROMOTE c p).setFld Fld.ACC_CTL_PAIR c (bits v 8 8)
  | .EDGE_CTL =>
    let s := s.setReg .EDGE_CTL c (putBits (s.reg .EDGE_CTL c) 0 6 (v % 64))
    s.setIf (decide (bits v 10 8 = 3) || decide (bits v 10 8 = 4)) Fld.EDGE_CTL_SR_BITS c (bits v 10 8)
  | .GILL_CTL =>
    let t := bits v 7 0
    let s := s.setIf (decide (t = 0) || decide (4 ≤ t)) Fld.GILL_CTL_THRESH c t
    let s := s.setIf (decide (1 ≤ bits v 10 8) && decide (bits v 10 8 ≤ 4)) Fld.GILL_CTL_PERBLK c (bits v 10 8)
    if v.testBit 63 then s.gillReset c else s
  | .CORE_VFP =>
    let s := s.setIf (decide (bits v 2 0 ≤ 4)) Fld.CORE_VFP_RM c (bits v 2 0)
    s.setReg .CORE_VFP c (putBits (s.reg .CORE_VFP c) 4 5 (bits v 8 4))
  | .RNG_BACKSTEP => s.backstep c v
  | .GILL_OVF => if v.testBit 63 then s.setReg .GILL_OVF c 0 else s
  | k => if k.perfCounter then (if v.testBit 63 then s.setReg k c 0 else s) else s.writeFields k c v

/-- Writes an offset of a core's window; RSV and read-only registers discard it (R38, R238). -/
def Dev.windowWrite (s : Dev) (c off v : Nat) : Dev :=
  match regAt .core off with
  | some (k, _) => if (regDesc k).writer = .none then s else s.coreRegWrite k c v
  | none => s

/-- Reads an offset of a core's window; RSV reads zero (R38, R238). -/
def Dev.windowRead (s : Dev) (c off : Nat) : Nat :=
  match regAt .core off with
  | some (k, n) => s.coreReg k c n
  | none => 0

end Sys2Proof.Machine
end

