-- ==== Sys2Proof/Machine/Issue.lean ====
section
/-!
DEFINITION. Issue (R231, R234, R235, R267, R271 to R273): whether a core issues, the guard, the holds and their counters, the stops,
and how the sequencer advances. A command of an instruction gives the core's next instruction; while it is held the command changes
only the stall counter, and the sender gives it again.
-/
namespace Sys2Proof.Machine

/-- How an instruction ends at issue. -/
inductive Act where
  /-- Carried out; the sequencer advances by one word. -/
  | done (s : Dev)
  /-- A taken branch to a byte offset (R239). -/
  | jump (s : Dev) (pc : Nat)
  /-- A stopping condition, with the faulting device address of EV_CORE_ADDR (R272). -/
  | stop (code addr : Nat)
  /-- Held at issue, for the reason of a stall counter (R267, R271). -/
  | hold (why : RegKind)
  /-- A wait that the core has entered (R263), or an end of the core's work (R266). -/
  | stay (s : Dev)

/-- Whether a core's sequencer runs: the core is present and running in a step, and its instructions are not yet barred by a
non-finite loss or a debug halt (R266, R274, R311, R328, R574). -/
def Dev.sequencing (s : Dev) (c : Nat) : Bool :=
  let p := s.part (s.corePart c)
  s.present c && decide (s.fld Fld.CORE_STAT_STATE c = coreRun) && p.issuing && !p.nanStop && !(s.core c).halted

/-- Whether a core's sequencer issues: it runs and does not wait at a barrier (R263). -/
def Dev.mayIssue (s : Dev) (c : Nat) : Bool := s.sequencing c && (s.core c).barrier.isNone

/-- Whether a core hands over a loss in the same cycle as the first non-finite one: it was running when that one was found, the clock
has not moved since, and it has handed over none (R328; DESIGN CHOICE, assumption 25). -/
def Dev.sameCycle (s : Dev) (c : Nat) : Bool :=
  let p := s.part (s.corePart c)
  s.present c && p.issuing && p.nanStop && p.nanAt == s.now && p.nanCores.contains c && !(s.core c).halted

/-- The next instruction's word, of the group fetched last, or of the store where that is another group. -/
def Dev.nextWord (s : Dev) (c : Nat) : Word :=
  let x := s.core c
  let pc := x.pc.toNat
  match x.fetched.filter (fun g => g.1 == pc / 64 * 64) with
  | some g => BitVec.ofNat 64 (leNat ((g.2.drop (pc % 64)).take 8))
  | none => BitVec.ofNat 64 (Memory.num s.mem (strideAddr c pc) 8)

/-- A taken branch: what was fetched counts no more (R231, R239). -/
def Dev.refetch (s : Dev) (c : Nat) : Dev := s.setCore c { s.core c with fetched := none }

/-- The instruction has issued: its count, and the byte offset of the next one, whose group is fetched. -/
def Dev.issued (s : Dev) (c pc : Nat) : Dev :=
  ((s.setCore c { s.core c with pc := BitVec.ofNat 64 pc }).fetch c).perfCore .CORE_PC_ISSUE c 1

/-- Issues an instruction: `legal` says that its word keeps the rules of R234, `uses` are the scalar registers it reads or writes.
An instruction outside the vector unit whose guard bit 0 is 0 issues and does nothing else (R235). -/
def Dev.issue (s : Dev) (c w : Nat) (legal : Bool) (uses : List Nat) (act : Nat → Act) : Dev :=
  if !(s.mayIssue c || (opOf w == 0x26 && s.sameCycle c)) then s
  else
    let x := s.core c
    let pc := x.pc.toNat
    if payloadEnd ≤ pc then s.stopCore c Ev.CORE_ADDR pc (strideAddr c pc)
    else if opOf w < 0xA0 ∧ (x.guard w).testBit 0 = false then s.issued c (pc + 8)
    else if !legal then s.stopCore c Ev.CORE_ILLEGAL pc 0
    else if uses.any x.pend.contains then s.perfCore .CORE_PC_STALL_REG c 1
    else
      match act (x.guard w) with
      | .done t => t.issued c (pc + 8)
      | .jump t n => (t.refetch c).issued c n
      | .stop code addr => s.stopCore c code pc addr
      | .hold k => s.perfCore k c 1
      | .stay t => t

/-- The scalar registers among a standard word's fields. -/
def Form.uses (m : Form) (w : Nat) : List Nat :=
  [(m.d, fD w), (m.a, fA w), (m.b, fB w), (m.c, fC w), (m.x, fX w)].filterMap (fun f => if f.1 = .s then some f.2 else none)

/-- Issues an instruction of the standard form; `more` are further rules on its word. -/
def Dev.issueS (s : Dev) (c w : Nat) (m : Form) (more : Bool) (act : Nat → Act) : Dev := s.issue c w (m.ok w && more) (m.uses w) act

/-- Issues an instruction of the long form. -/
def Dev.issueL (s : Dev) (c w : Nat) (d a : Slot) (useF8 more : Bool) (act : Nat → Act) : Dev :=
  s.issue c w (longOk d a useF8 w && more) (({ d := d, a := a } : Form).uses w) act

/-- Writes a scalar register of a core. -/
def Dev.putS (s : Dev) (c i v : Nat) : Dev := s.setCore c ((s.core c).setS i v)

/-! ### Completion of units (R241, R266, R328) -/

/-- Whether the units that a FENCE mask names have nothing outstanding: bit 1 DMA, 2 array queue, 3 edge queue; the memory and
vector units complete at issue (R241). -/
def Core.unitsDone (x : Core) (mask : Nat) : Bool :=
  (!mask.testBit 1 || x.dmas.isEmpty)
    && (!mask.testBit 2 || (x.arrayQ.isEmpty && x.flights.isEmpty && x.loads.isEmpty))
    && (!mask.testBit 3 || (x.edgeQ.isEmpty && x.edgeFlights.isEmpty))

/-- After a non-finite loss, each core whose issued work has completed is DONE (R328). -/
def Dev.settle (s : Dev) (p : Nat) : Dev :=
  if !(s.part p).nanStop then s
  else s.each (s.boundCores p) (fun c s =>
    if s.fld Fld.CORE_STAT_STATE c = coreRun ∧ (s.core c).unitsDone 0x1F then s.setFld Fld.CORE_STAT_STATE c coreDone else s)

end Sys2Proof.Machine
end

