-- ==== Sys2Proof/Machine/Scalar.lean ====
section
/-!
DEFINITION. Scalar, control and synchronisation instructions (R236 to R239, R262 to R266).
-/
namespace Sys2Proof.Machine

/-- A scalar operation of SOP and SOPI on 64-bit values; none for the illegal codes (R237). -/
def sop (f a b : Nat) : Option Nat :=
  let sa := signed 64 a
  let sb := signed 64 b
  let k := b % 64
  match f with
  | 0x00 => some ((a + b) % 2 ^ 64)
  | 0x01 => some ((a + 2 ^ 64 - b) % 2 ^ 64)
  | 0x02 => some (a &&& b)
  | 0x03 => some (a ||| b)
  | 0x04 => some (a ^^^ b)
  | 0x05 => some (a * 2 ^ k % 2 ^ 64)
  | 0x06 => some (a / 2 ^ k)
  | 0x07 => some (twos 64 (sa / (2 ^ k : Nat)))
  | 0x08 => some (a * b % 2 ^ 64)
  | 0x09 => some (if sa ≤ sb then a else b)
  | 0x0A => some (if sa ≤ sb then b else a)
  | 0x0B => some (min a b)
  | 0x0C => some (max a b)
  | _ => none

/-- A condition of SCMP; none for the illegal values (R237). -/
def scond (f a b : Nat) : Option Bool :=
  match f with
  | 0 => some (decide (a = b))
  | 1 => some (decide (a ≠ b))
  | 2 => some (decide (signed 64 a < signed 64 b))
  | 3 => some (decide (a < b))
  | 4 => some (decide (signed 64 b ≤ signed 64 a))
  | 5 => some (decide (b ≤ a))
  | _ => none

/-- The form of SOP. -/
def formSop : Form := { d := .s, a := .s, b := .s, f := 0x3F }

/-- SOP (R237). -/
def Dev.iSop (s : Dev) (c : Nat) (w : BitVec 56) : Dev :=
  let i := insn 0x01 w
  let x := s.core c
  s.issueS c i formSop true (fun _ =>
    match sop (fF i) (x.s (fA i)) (x.s (fB i)) with
    | none => .stop Ev.CORE_ILLEGAL 0
    | some v => .done (s.putS c (fD i) v))

/-- SOPI (R237). -/
def Dev.iSopi (s : Dev) (c : Nat) (w : BitVec 56) : Dev :=
  let i := insn 0x02 w
  s.issueL c i .s .s true true (fun _ =>
    match sop (f8 i) ((s.core c).s (fA i)) (simm i) with
    | none => .stop Ev.CORE_ILLEGAL 0
    | some v => .done (s.putS c (fD i) v))

/-- SLIH (R236). -/
def Dev.iSlih (s : Dev) (c : Nat) (w : BitVec 56) : Dev :=
  let i := insn 0x03 w
  s.issueL c i .s .s false true (fun _ => .done (s.putS c (fD i) ((s.core c).s (fA i) % 2 ^ 32 + imm32 i * 2 ^ 32)))

/-- SCMP (R237). -/
def Dev.iScmp (s : Dev) (c : Nat) (w : BitVec 56) : Dev :=
  let i := insn 0x04 w
  let x := s.core c
  s.issueS c i { d := .p, a := .s, b := .s, f := 0x3F } true (fun _ =>
    match scond (fF i) (x.s (fA i)) (x.s (fB i)) with
    | none => .stop Ev.CORE_ILLEGAL 0
    | some b => .done (s.setCore c (x.setP (fD i) 0xFFFFFFFF (if b then 0xFFFFFFFF else 0))))

/-- The form of SCSR: D is used only by a read and A only by a write (R234, R238). -/
def formScsr (i : Nat) : Form :=
  { d := if (fF i).testBit 0 then .s else .unused, a := if (fF i).testBit 1 then .s else .unused, f := 3, imm := 0xFFF8 }

/-- SCSR (R238). -/
def Dev.iScsr (s : Dev) (c : Nat) (w : BitVec 56) : Dev :=
  let i := insn 0x05 w
  s.issueS c i (formScsr i) true (fun _ =>
    let old := s.windowRead c (imm16 i)
    let t := if (fF i).testBit 1 then s.windowWrite c (imm16 i) ((s.core c).s (fA i)) else s
    .done (if (fF i).testBit 0 then t.putS c (fD i) old else t))

/-- BR (R239). -/
def Dev.iBr (s : Dev) (c : Nat) (w : BitVec 56) : Dev :=
  let i := insn 0x20 w
  let pc := (s.core c).pc.toNat
  s.issueL c i .s .unused false true (fun _ => .jump (s.putS c (fD i) (pc + 8)) (twos 64 ((pc : Int) + 8 * signed 32 (imm32 i))))

/-- BRR (R239). -/
def Dev.iBrr (s : Dev) (c : Nat) (w : BitVec 56) : Dev :=
  let i := insn 0x21 w
  let x := s.core c
  s.issueS c i { d := .s, a := .s } true (fun _ =>
    let t := x.s (fA i)
    if t % 8 ≠ 0 then .stop Ev.CORE_ADDR (strideAddr c t) else .jump (s.putS c (fD i) (x.pc.toNat + 8)) t)

/-- WBEAT (R262). -/
def Dev.iWbeat (s : Dev) (c : Nat) (w : BitVec 56) : Dev :=
  let i := insn 0x22 w
  s.issueL c i .unused .unused false true (fun _ =>
    if (imm32 i : Int) ≤ s.reached (s.corePart c) then .done s else .hold .CORE_PC_STALL_SYNC)

/-- The members of a barrier of the core's partition (R263). -/
def Dev.barrierMembers (s : Dev) (c n : Nat) : List Nat :=
  match (s.part (s.corePart c)).plan with
  | some pl => pl.barriers.getD n []
  | none => []

/-- A barrier's last member has arrived: its members go on (R263). -/
def Dev.releaseBarrier (s : Dev) (ms : List Nat) : Dev :=
  s.each ms (fun m s => (s.setCore m { s.core m with barrier := none }).issued m ((s.core m).pc.toNat + 8))

/-- BAR (R263). A core that waits at the barrier already is held for one more cycle (R271). -/
def Dev.iBar (s : Dev) (c : Nat) (w : BitVec 56) : Dev :=
  let i := insn 0x23 w
  let n := imm16 i % 64
  if s.sequencing c ∧ (s.core c).barrier = some n then s.perfCore .CORE_PC_STALL_SYNC c 1
  else s.issueS c i { imm := 0x3F } true (fun _ =>
    let ms := s.barrierMembers c n
    if !ms.contains c then .stop Ev.CORE_ILLEGAL 0
    else
      let t := s.setCore c { s.core c with barrier := some n }
      if ms.all (fun m => (t.core m).barrier == some n) then .stay (t.releaseBarrier ms.eraseDups)
      else .stay (t.perfCore .CORE_PC_STALL_SYNC c 1))

/-- FENCE (R241). -/
def Dev.iFence (s : Dev) (c : Nat) (w : BitVec 56) : Dev :=
  let i := insn 0x24 w
  s.issueS c i { imm := 0x1F } true (fun _ =>
    if (s.core c).unitsDone (imm16 i) then .done s else .hold .CORE_PC_STALL_SYNC)

/-- The current format code of a monitor as LFMT reads it (R264). -/
def Dev.layerFormat (s : Dev) (p n : Nat) : Nat :=
  if !s.monValid p n then 0xF
  else if s.flag Fld.FMT_MON_CFG_SENS (monIdx p n) then s.fld Fld.FMT_MON_CFG_SFMT (monIdx p n)
  else s.fld Fld.FMT_MON_STATE_FMT (monIdx p n)

/-- LFMT (R264). -/
def Dev.iLfmt (s : Dev) (c : Nat) (w : BitVec 56) : Dev :=
  let i := insn 0x25 w
  s.issueS c i { d := .s, imm := 0x3FF } true (fun _ => .done (s.putS c (fD i) (s.layerFormat (s.corePart c) (imm16 i))))

/-- A non-finite loss handed over by a core (R265, R328): the first of the step is recorded, or the lowest core's of those of one
cycle. -/
def Dev.nanLoss (s : Dev) (c v : Nat) : Dev :=
  let p := s.corePart c
  let s := (s.raise p Ev.NAN_LOSS).unclean p Ev.NAN_LOSS
  let x := s.part p
  let lower := x.nanStop && decide (c < s.fld Fld.STEP_NANL_CORE p)
  let s := if s.flag Fld.STEP_NANL_VALID p && !lower then s else s.setReg .STEP_NANL p (v + c * 2 ^ 32 + 2 ^ 48)
  if x.nanStop then s
  else
    let running := (s.boundCores p).filter (fun k => s.fld Fld.CORE_STAT_STATE k == coreRun)
    s.setPart p { s.part p with nanStop := true, nanAt := s.now, nanCores := running }

/-- LOSS (R265). -/
def Dev.iLoss (s : Dev) (c : Nat) (w : BitVec 56) : Dev :=
  let i := insn 0x26 w
  let t := s.issueS c i { a := .v, imm := 0x1F } true (fun _ =>
    let v := ((s.core c).v (fA i)).getD (imm16 i) 0
    let s := if isFin32 v then s else s.nanLoss c v
    let p := s.corePart c
    .done (s.setPart p { s.part p with nanCores := (s.part p).nanCores.erase c }))
  t.settle (s.corePart c)

/-- STEPEND (R266). -/
def Dev.iStepend (s : Dev) (c : Nat) (w : BitVec 56) : Dev :=
  s.issueS c (insn 0x27 w) {} true (fun _ =>
    if (s.core c).unitsDone 0x1F then .done (s.setFld Fld.CORE_STAT_STATE c coreDone) else .hold .CORE_PC_STALL_SYNC)

/-- NOP (R236). -/
def Dev.iNop (s : Dev) (c : Nat) (w : BitVec 56) : Dev := s.issueS c (insn 0x2F w) {} true (fun _ => .done s)

end Sys2Proof.Machine
end

