-- ==== Sys2Proof/Machine/CoreMemory.lean ====
section
/-!
DEFINITION. Loads and stores of a core's own stride (R240, R446).
-/
namespace Sys2Proof.Machine

/-- What an access to the own stride meets (R240). -/
inductive Reach where
  | full | discard | fault
  deriving DecidableEq, Repr

/-- The access rule of R240 for the bytes [off, off + n). -/
def ownReach (store : Bool) (off n : Nat) : Reach :=
  let e := off + n
  if e ≤ 0xFF000 then .full
  else if 0xFF000 ≤ off ∧ e ≤ 0xFF7F8 then (if store then .fault else .full)
  else if 0x100000 ≤ off ∧ e ≤ 0x11A000 then .full
  else if 0x11A000 ≤ off ∧ e ≤ 0x120000 then (if store then .discard else .full)
  else .fault

/-- The address sA + IMM32 of a load or store. -/
def Core.ea (x : Core) (i : Nat) : Nat := (x.s (fA i) + simm i) % 2 ^ 64

/-- The use of a payload tile at its first load since the step start or its last write (R446). -/
def Dev.loadUse (s : Dev) (c off : Nat) : Dev :=
  let x := s.core c
  let t := off / tileSize
  if payloadEnd ≤ off ∨ x.usedTiles.contains t then s
  else
    (s.setCore c { x with usedTiles := x.usedTiles ++ [t] }).useTile (s.corePart c) (coreDie c) (some c) (x.pc.toNat % 2 ^ 20) (strideAddr c off)

/-- A load of `n` bytes at the effective address, and what it does with them. -/
def Dev.loadAct (s : Dev) (c i n : Nat) (put : Core → List Byte → Core) : Act :=
  let off := (s.core c).ea i
  if off % n ≠ 0 ∨ ownReach false off n = .fault then .stop Ev.CORE_ADDR (strideAddr c off)
  else
    let bs := Memory.bytes s.mem (strideAddr c off) n
    let t := s.loadUse c off
    .done (t.setCore c (put (t.core c) bs))

/-- A store of bytes at the effective address. -/
def Dev.storeAct (s : Dev) (c i : Nat) (bs : List Byte) : Act :=
  let off := (s.core c).ea i
  let n := bs.length
  if off % n ≠ 0 then .stop Ev.CORE_ADDR (strideAddr c off)
  else
    match ownReach true off n with
    | .fault => .stop Ev.CORE_ADDR (strideAddr c off)
    | .discard => .done s
    | .full => .done (s.write (strideAddr c off) bs)

/-- LDS (R240). -/
def Dev.iLds (s : Dev) (c : Nat) (w : BitVec 56) : Dev :=
  let i := insn 0x40 w
  s.issueL c i .s .s false true (fun _ => s.loadAct c i 8 (fun x bs => x.setS (fD i) (leNat bs)))

/-- STS (R240). -/
def Dev.iSts (s : Dev) (c : Nat) (w : BitVec 56) : Dev :=
  let i := insn 0x41 w
  s.issueL c i .s .s false true (fun _ => s.storeAct c i (leBytes 8 ((s.core c).s (fD i))))

/-- VLD (R240). -/
def Dev.iVld (s : Dev) (c : Nat) (w : BitVec 56) : Dev :=
  let i := insn 0x42 w
  s.issueL c i .v .s false true (fun _ => s.loadAct c i 128 (fun x bs => x.setV (fD i) 0xFFFFFFFF ((chunks 4 32 bs).map leNat)))

/-- VST (R240). -/
def Dev.iVst (s : Dev) (c : Nat) (w : BitVec 56) : Dev :=
  let i := insn 0x43 w
  s.issueL c i .v .s false true (fun _ => s.storeAct c i (((s.core c).v (fD i)).flatMap (leBytes 4)))

end Sys2Proof.Machine
end

