-- ==== Sys2Proof/Machine/Dma.lean ====
section
/-!
DEFINITION. The cluster DMA (R242 to R244, R392, R393, R410, R455): issuing a descriptor, waiting for tags, and carrying a descriptor out.
-/
namespace Sys2Proof.Machine

/-- The even core of a pair in full redundancy, for an odd one; none otherwise (R455). -/
def Dev.evenOf (s : Dev) (c : Nat) : Option Nat :=
  if c % 2 = 1 ∧ s.flag Fld.CHK_CTL_DUP (s.corePart c) then some (c - 1) else none

/-- A device address as a core takes it: the odd core of a pair takes the even core's stride as its own (R455). -/
def Dev.ownAddr (s : Dev) (c a : Nat) : Nat :=
  match s.evenOf c with
  | some e => if strideAddr e 0 ≤ a ∧ a < strideAddr c 0 then a + strideSize else a
  | none => a

/-- Whether a write of a core to a device address, as its program gives it, is discarded (R455). -/
def Dev.writeLost (s : Dev) (c a : Nat) : Bool :=
  match s.evenOf c with
  | some e => !(decide (strideAddr e 0 ≤ a) && decide (a < strideAddr c 0))
  | none => false

/-- A descriptor's 32 bytes handed over under a tag, with the collective tag of its core (R242, R243, R392). -/
def DmaDesc.parse (tag coreTag pc : Nat) (bs : List Byte) : DmaDesc :=
  let n := leNat bs
  { tag := tag, src := bits n 51 0, dst := bits n 115 64, count := bits n 159 128, sstride := signed 32 (bits n 191 160)
    dstride := signed 32 (bits n 223 192), kind := bits n 225 224, route := bits n 255 240
    bad := decide (bits n 63 52 ≠ 0) || decide (bits n 127 116 ≠ 0) || decide (bits n 239 226 ≠ 0), coreTag := coreTag, pc := pc }

/-- DMAW (R242). -/
def Dev.iDmaw (s : Dev) (c : Nat) (w : BitVec 56) : Dev :=
  let i := insn 0x45 w
  s.issueS c i { imm := 0xFFFF } true (fun _ =>
    if (s.core c).dmas.any (fun d => (imm16 i).testBit d.tag) then .hold .CORE_PC_STALL_SYNC else .done s)

/-- The address of tile `t` of a side of a descriptor (R243). -/
def tileAt (base : Nat) (stride : Int) (t : Nat) : Int := (base : Int) + tileSize * t * stride

/-- Whether a tile may be an end of a descriptor: HBM or core-store payload in the partition's window, or, for a copy, the edge
buffers of a core (R137, R243, R244). -/
def Dev.dmaTile (s : Dev) (p : Nat) (copy : Bool) (a : Int) : Bool :=
  decide (0 ≤ a) && s.inMemWindow p a.toNat && (match memPlace a.toNat with
    | .hbmPayload _ _ => true
    | .corePayload _ _ => true
    | .staging _ => copy
    | .gill _ => copy
    | _ => false)

/-- What is wrong with a descriptor before any tile moves: its event and faulting address; none when it may go (R244, R392). A COUNT above
1,048,576 is illegal (DESIGN CHOICE, assumption 78: R243 gives the range and R244 names only 0). -/
def Dev.dmaCheck (s : Dev) (c : Nat) (d : DmaDesc) : Option (Nat × Nat) :=
  let p := s.corePart c
  let copy := decide (d.kind = 0)
  let group := d.coreTag % 65536
  if d.bad || decide (2 ≤ d.kind) || decide (d.count = 0) || decide (1048576 < d.count) || (copy && decide (d.route ≠ 0))
      || (!copy && decide (group ≠ 0xFFFE) && ((s.groups p).find group).isNone) then some (Ev.CORE_ILLEGAL, 0)
  else if d.src % tileSize ≠ 0 then some (Ev.CORE_ADDR, d.src)
  else if d.dst % tileSize ≠ 0 then some (Ev.CORE_ADDR, d.dst)
  else
    let own (a : Int) : Int := if 0 ≤ a then (s.ownAddr c a.toNat : Nat) else a
    let ts := List.range d.count
    let bad := match ts.find? (fun t => !s.dmaTile p copy (own (tileAt d.src d.sstride t))) with
      | some t => some (tileAt d.src d.sstride t)
      | none => if copy then (ts.find? (fun t => !s.dmaTile p true (own (tileAt d.dst d.dstride t)))).map (tileAt d.dst d.dstride) else none
    bad.map (fun a => (Ev.CORE_ADDR, twos 52 a))

/-- DMA (R242): the descriptor is checked whole when it is issued, and a descriptor at fault stops the core at the DMA (R244, R272,
R392). -/
def Dev.iDma (s : Dev) (c : Nat) (w : BitVec 56) : Dev :=
  let i := insn 0x44 w
  s.issueS c i { a := .s, imm := 0xF } true (fun _ =>
    let x := s.core c
    let off := x.s (fA i)
    if 16 ≤ x.dmas.length then .hold .CORE_PC_STALL_UNIT
    else if off % 32 ≠ 0 ∨ payloadEnd < off + 32 then .stop Ev.CORE_ADDR (strideAddr c off)
    else
      let d := DmaDesc.parse (imm16 i) (s.reg .GRP_CORETAG c) (x.pc.toNat % 2 ^ 20) (Memory.bytes s.mem (strideAddr c off) 32)
      match s.dmaCheck c d with
      | some (code, a) => .stop code a
      | Option.none => .done (s.setCore c { x with dmas := x.dmas ++ [d] }))

/-- Whether a group is Degraded on a partition (R410). -/
def Dev.degraded (s : Dev) (p gid : Nat) : Bool :=
  match (s.groups p).find gid with
  | some (gi, _) => s.flag Fld.GRP_G_DEG (dieIdx .GRP_G p gi)
  | none => false

/-- Sends one tile on a route: its sender fields, and its SEQ in its group (R393, R400, R410). -/
def Dev.sendTile (s : Dev) (c : Nat) (d : DmaDesc) (scr dst : Nat) (t : List Byte) : Dev :=
  let p := s.corePart c
  let die := coreDie c
  let group := d.coreTag % 65536
  let rt := s.reg .FAB_RT (die * 65536 + d.route)
  let go (s : Dev) (area : List Byte) : Dev := s.route (36 + die) (s.packet p d.route (bits rt 9 8) dst area (some t))
  let scope := (s.groups p).scopeId
  match (s.groups p).find group with
  | none => go s (senderArea scr (s.step p) p (s.flag Fld.GRP_STAT_RETRACTED p) 0xFFFE 0 0 0 scope)
  | some (gi, g) =>
    if s.degraded p group then s.perf .GRP_PC_REJECT p p 1
    else
      let x := s.part p
      let q := SMap.read 0 x.seqs gi
      let area := senderArea scr (s.step p) p (s.flag Fld.GRP_STAT_RETRACTED p) group (bits d.coreTag 27 16) g.rank q scope
      go (s.setPart p { x with seqs := SMap.write 0 x.seqs gi (q + 1) }) area

/-- Moves or sends tile `t` of a descriptor; a source tile read with an uncorrectable error goes with the poison scruple, and one that lands
in staging is used (R243, R446, R448, R455). -/
def Dev.dmaMove (s : Dev) (c : Nat) (d : DmaDesc) (t : Nat) : Dev :=
  let src := s.ownAddr c (tileAt d.src d.sstride t).toNat
  let dst := (tileAt d.dst d.dstride t).toNat
  let bs := s.tile src
  let scr := match scrupleAddr src with
    | some _ => s.scrupleOf src
    | none => tileScruple bs
  if d.kind = 1 then
    let s := s.hbmErrors [src]
    if (s.evenOf c).isSome then s else s.sendTile c d scr dst bs
  else if s.writeLost c dst then s.hbmErrors [src]
  else
    let dest := s.ownAddr c dst
    match memPlace dest with
    | .staging _ => (s.write dest bs).useTile (s.corePart c) (coreDie c) (some c) d.pc src
    | .gill _ => s.hbmErrors [src]
    | _ => (s.hbmErrors [src]).writeTile dest bs scr

/-- A descriptor carried out: checked whole once more, then its tiles in increasing order (R243, R244, R273). -/
def Dev.dmaRun (s : Dev) (c : Nat) (d : DmaDesc) : Dev :=
  match (if d.moved then none else s.dmaCheck c d) with
  | some (code, a) => s.stopCore c code d.pc a
  | none =>
    if d.moved then s else s.each (List.range d.count) (fun t s => s.dmaMove c d t)

/-- The descriptors outstanding before the one at `index` move their tiles, so that the unit's accesses take effect in program order
(R241); they stay outstanding, for completion may come in any order (R242). -/
def Dev.dmaEarlier (s : Dev) (c index : Nat) : Dev :=
  let ds := (s.core c).dmas
  let s := s.setCore c { s.core c with dmas := ds.zipIdx.map (fun d => if d.2 < index then { d.1 with moved := true } else d.1) }
  s.each (ds.take index) (fun d s => s.dmaRun c d)

/-- Whether a bridge that is down cuts off a tile that a descriptor still has to move: between its source, its core's die and the
destination of a copy (R22, R24). -/
def Dev.dmaCut (s : Dev) (c : Nat) (d : DmaDesc) : Bool :=
  !s.ctl.bridgesDown.isEmpty && !d.moved && (List.range d.count).any (fun t =>
    !s.reaches (addrDie (s.ownAddr c (tileAt d.src d.sstride t).toNat)) (coreDie c)
      || (d.kind == 0 && !s.reaches (coreDie c) (addrDie (s.ownAddr c (tileAt d.dst d.dstride t).toNat))))

/-- DMA_DESCRIPTOR_COMPLETE (R243): the descriptor at `index` among those outstanding. One whose tiles, or those of an earlier one, a bridge
that is down cuts off does not complete (R24; assumption 74). -/
def Dev.dmaComplete (s : Dev) (c index : Nat) : Dev :=
  match (s.core c).dmas[index]? with
  | none => s
  | some d =>
    if ((s.core c).dmas.take (index + 1)).any (s.dmaCut c) then s
    else
    let s := s.dmaEarlier c index
    ((s.setCore c { s.core c with dmas := (s.core c).dmas.eraseIdx index }).dmaRun c d).settle (s.corePart c)

/-- DMA_DESCRIPTOR_COMPLETE (R243). -/
def execDmaDescriptorComplete (core : CoreId) (index : Nat) (ue : List (BitVec 52)) (s : State) : Host.Outcome State Fault Refusal :=
  ok s (s.dev.withUe (ue.map (fun a => a.toNat)) (fun d => d.dmaComplete core.toNat index))

end Sys2Proof.Machine
end

