-- ==== Sys2Proof/Machine/Panels.lean ====
section
/-!
DEFINITION. Panels as instructions use them (R109, R120, R268, R269): the holds between instructions on one panel, the counts of the
accumulator row, and the close.
-/
namespace Sys2Proof.Machine

/-- The panel an AMUL word names; an edge-queue word of PSPILL, PRESUME or POUT has it in the same place (R245, R246). -/
def panelOf (w : Nat) : Nat := bits w 20 18

/-- Whether a queued edge operation uses a panel. -/
def edgeUsesPanel (w : Nat) : Bool := decide (opOf w = 0x62) || decide (opOf w = 0x63) || decide (opOf w = 0x64)

/-- Whether a queued array operation is an AMUL. -/
def isAmul (w : Nat) : Bool := decide (opOf w = 0x61)

/-- Whether an AMUL handed over before `order` has not reached the accumulator row whole on panel `n` (R109). -/
def Core.amulBefore (x : Core) (n order : Nat) : Bool :=
  x.arrayQ.any (fun q => isAmul q.word && decide (panelOf q.word = n) && decide (q.order < order))
    || x.flights.any (fun f => decide (f.panel = n) && decide (f.order < order))

/-- Whether an edge operation handed over before `order` has not finished with panel `n` (R109, R269). -/
def Core.edgeBefore (x : Core) (n order : Nat) : Bool :=
  x.edgeQ.any (fun q => edgeUsesPanel q.word && decide (panelOf q.word = n) && decide (q.order < order))
    || x.edgeFlights.any (fun f => decide (f.panel = some n) && decide (f.order < order))

/-- Whether anything handed over before `order` still works on panel `n`. -/
def Core.panelBusy (x : Core) (n order : Nat) : Bool := x.amulBefore n order || x.edgeBefore n order

/-- The counts and events of work at the accumulator row (R113, R119, R135). -/
def Dev.accCount (s : Dev) (c : Nat) (n : AccCounts) : Dev :=
  let s := s.perfCore .ACC_PC_PROMOTE c n.promotes
  let s := s.perfCore .ACC_PC_ALIGN_TRUNC c n.truncs
  let s := s.perfCore .ACC_PC_BYPASS c n.bypass
  s.raiseN (coreDie c) Ev.ACC_OVERFLOW n.overflows

/-- Whether checksum checking is on for a core's partition (R450). -/
def Dev.abft (s : Dev) (c : Nat) : Bool := s.flag Fld.CHK_CTL_ABFT (s.corePart c)

/-- A panel closed: its promotions counted, and noted by the check datapath (R120, R450). -/
def Dev.closePanel (s : Dev) (c n : Nat) : Dev :=
  let x := s.core c
  let r := (x.panel n).close
  let k := r.1.check
  let p := if s.abft c then { r.1 with check := { k with
      closes := k.closes + b2n (decide (r.2.promotes ≠ 0)), peak := max k.peak r.2.peak } } else r.1
  (s.setCore c (x.setPanel n p)).accCount c r.2

end Sys2Proof.Machine
end

