-- ==== Sys2Proof/Machine/Vector.lean ====
section
/-!
DEFINITION. Vector and predicate instructions without draws (R249 to R252, R254 to R256, R261).
-/
namespace Sys2Proof.Machine

/-- Whether W selects FP64 (R251). -/
def wideOf (i : Nat) : Bool := (imm16 i).testBit 3

/-- FP64 or FP32. -/
def shapeOf (wide : Bool) : FShape := if wide then shapeFP64 else shapeFP32

/-- The slot of a floating-point operand. -/
def fpSlot (wide : Bool) : Slot := if wide then .pair else .v

/-- The operands VF's functions read: 1 a, 2 a and b, 3 all (R251). -/
def vfArity (f : Nat) : Nat :=
  match f with
  | 3 | 4 | 5 => 3
  | 7 | 0xA | 0xB | 0xD | 0xE | 0xF => 1
  | _ => 2

/-- roundToIntegralExact (R251). -/
def FShape.rint (sh : FShape) (rm : Rm) (a : Nat) : FpRes :=
  match sh.decode a with
  | .fin n m e => let k := roundInt rm n m e; ⟨(sh.round .rne n k.1 0).code, { nx := k.2 }⟩
  | v => sh.finish rm (sh.isSNaN a) (some v)

/-- CVTFI: out of range, infinite or NaN gives 0x8000_0000 and NV. No other flag is set (DEDUCED, assumption 13). -/
def cvtfi (rm : Rm) (a : Nat) : FpRes :=
  match shapeFP32.decode a with
  | .fin n m e =>
    let k := (roundInt rm n m e).1
    if n && decide (k ≤ 0x80000000) then ⟨twos 32 (-(k : Int)), {}⟩
    else if !n && decide (k < 0x80000000) then ⟨k, {}⟩
    else ⟨0x80000000, { nv := true }⟩
  | _ => ⟨0x80000000, { nv := true }⟩

/-- CVTIF. -/
def cvtif (rm : Rm) (a : Nat) : FpRes :=
  let v := signed 32 a
  (shapeFP32.round rm (decide (v < 0)) v.natAbs 0).toRes

/-- The sign functions ABS, NEG and COPYSIGN: no flags, a NaN gives the canonical NaN. -/
def FShape.signFn (sh : FShape) (f a b : Nat) : FpRes :=
  let top := 2 ^ (sh.eb + sh.mb)
  if (sh.decode a).isNaN then ⟨sh.nanCode, {}⟩
  else match f with
    | 0xA => ⟨a % top, {}⟩
    | 0xB => ⟨a ^^^ top, {}⟩
    | _ => ⟨a % top + b / top % 2 * top, {}⟩

/-- One lane of VF (R251). -/
def vfLane (sh : FShape) (f : Nat) (rm : Rm) (a b c : Nat) : FpRes :=
  match f with
  | 0x0 => sh.add rm a b
  | 0x1 => sh.sub rm a b
  | 0x2 => sh.mul rm a b
  | 0x3 => sh.fma rm false false a b c
  | 0x4 => sh.fma rm false true a b c
  | 0x5 => sh.fma rm true false a b c
  | 0x6 => sh.div rm a b
  | 0x7 => sh.sqrt rm a
  | 0x8 => sh.maxMin true a b
  | 0x9 => sh.maxMin false a b
  | 0xD => sh.rint rm a
  | 0xE => cvtfi rm a
  | 0xF => cvtif rm a
  | f => sh.signFn f a b

/-- The results of all lanes, and the flags of the active ones (R235, R249). -/
def laneMap (g : Nat) (f : Nat → Nat → Nat → FpRes) (xs ys zs : List Nat) : List Nat × FpFlags :=
  let rs := ((xs.zip ys).zip zs).map (fun t => f t.1.1 t.1.2 t.2)
  (rs.map (fun r => r.code), unionFlags ((rs.zipIdx.filter (fun r => g.testBit r.2)).map (fun r => r.1.flags)))

/-- Whether a function of VF rounds, and so uses RM (R234, R251). -/
def vfRounds (f : Nat) : Bool := !([8, 9, 0xA, 0xB, 0xC].contains f)

/-- The form of a VF word. -/
def formVf (i : Nat) : Form :=
  let k := fpSlot (wideOf i)
  let n := vfArity (fF i)
  { d := k, a := k, b := if 2 ≤ n then k else .unused, c := if n = 3 then k else .unused, f := 0xF
    imm := if vfRounds (fF i) then 0xF else 8 }

/-- VF (R251). -/
def Dev.iVf (s : Dev) (c : Nat) (w : BitVec 56) : Dev :=
  let i := insn 0xA0 w
  let wide := wideOf i
  s.issueS c i (formVf i) (!(wide && decide (0xE ≤ fF i))) (fun g =>
    match s.rmOf c (imm16 i % 8) with
    | none => .stop Ev.CORE_ILLEGAL 0
    | some rm =>
      let x := s.core c
      let n := vfArity (fF i)
      let a := x.operand wide (fA i)
      let r := laneMap g (vfLane (shapeOf wide) (fF i) rm) a (if 2 ≤ n then x.operand wide (fB i) else a) (if n = 3 then x.operand wide (fC i) else a)
      .done ((s.setCore c (x.setOperand wide (fD i) g r.1)).orFlags c r.2))

/-- A floating-point or integer condition of VCMP on one lane, and whether it raises NV; none for the illegal values (R252). -/
def vcmpLane (sh : FShape) (f a b : Nat) : Option (Bool × Bool) :=
  let o := cmpVal (sh.decode a) (sh.decode b)
  let snan := sh.isSNaN a || sh.isSNaN b
  let any := decide (o = none)
  let sa := signed 32 a
  let sb := signed 32 b
  match f with
  | 0x0 => some (decide (o = some .eq), snan)
  | 0x1 => some (decide (o ≠ some .eq), snan)
  | 0x2 => some (decide (o = some .lt), any)
  | 0x3 => some (decide (o = some .lt) || decide (o = some .eq), any)
  | 0x4 => some (decide (o = some .gt), any)
  | 0x5 => some (decide (o = some .gt) || decide (o = some .eq), any)
  | 0x6 => some (any, snan)
  | 0x7 => some (!any, snan)
  | 0x8 => some (decide (a = b), false)
  | 0x9 => some (decide (a ≠ b), false)
  | 0xA => some (decide (sa < sb), false)
  | 0xB => some (decide (a < b), false)
  | 0xC => some (decide (sa ≤ sb), false)
  | 0xD => some (decide (a ≤ b), false)
  | _ => none

/-- VCMP (R252). -/
def Dev.iVcmp (s : Dev) (c : Nat) (w : BitVec 56) : Dev :=
  let i := insn 0xA1 w
  let wide := wideOf i
  let f := fF i
  s.issueS c i { d := .p, a := fpSlot wide, b := fpSlot wide, f := 0xF, imm := 8 } (decide (f ≤ 0xD) && !(wide && decide (8 ≤ f))) (fun g =>
    let x := s.core c
    let rs := ((x.operand wide (fA i)).zip (x.operand wide (fB i))).map (fun t => (vcmpLane (shapeOf wide) f t.1 t.2).getD (false, false))
    let bitsOf := ofBits ((List.range 32).filter (fun l => (rs.getD l (false, false)).1))
    let nv := (active g).any (fun l => (rs.getD l (false, false)).2)
    .done ((s.setCore c (x.setP (fD i) g bitsOf)).orFlags c { nv := nv }))

/-! ### Integer and lane instructions (R254) -/

/-- One lane of VI; none for the illegal codes. -/
def viLane (f a b : Nat) : Option Nat :=
  let sa := signed 32 a
  let sb := signed 32 b
  let k := b % 32
  match f with
  | 0x0 => some ((a + b) % 2 ^ 32)
  | 0x1 => some ((a + 2 ^ 32 - b) % 2 ^ 32)
  | 0x2 => some (a &&& b)
  | 0x3 => some (a ||| b)
  | 0x4 => some (a ^^^ b)
  | 0x5 => some (a * 2 ^ k % 2 ^ 32)
  | 0x6 => some (a / 2 ^ k)
  | 0x7 => some (twos 32 (sa / (2 ^ k : Nat)))
  | 0x8 => some (a * b % 2 ^ 32)
  | 0x9 => some (if sa ≤ sb then a else b)
  | 0xA => some (if sa ≤ sb then b else a)
  | 0xB => some (min a b)
  | 0xC => some (max a b)
  | _ => none

/-- VI (R254). -/
def Dev.iVi (s : Dev) (c : Nat) (w : BitVec 56) : Dev :=
  let i := insn 0xC0 w
  s.issueS c i { d := .v, a := .v, b := .v, f := 0xF } (decide (fF i ≤ 0xC)) (fun g =>
    let x := s.core c
    .done (s.setCore c (x.setV (fD i) g (((x.v (fA i)).zip (x.v (fB i))).map (fun t => (viLane (fF i) t.1 t.2).getD 0)))))

/-- VSEL (R254). -/
def Dev.iVsel (s : Dev) (c : Nat) (w : BitVec 56) : Dev :=
  let i := insn 0xC1 w
  s.issueS c i { d := .v, a := .v, b := .v, c := .p } true (fun g =>
    let x := s.core c
    let p := x.p (fC i)
    .done (s.setCore c (x.setV (fD i) g (((x.v (fA i)).zip (x.v (fB i))).zipIdx.map (fun t => if p.testBit t.2 then t.1.1 else t.1.2)))))

/-- VBCAST (R254). -/
def Dev.iVbcast (s : Dev) (c : Nat) (w : BitVec 56) : Dev :=
  let i := insn 0xC2 w
  s.issueS c i { d := .v, a := .s } true (fun g =>
    let x := s.core c
    .done (s.setCore c (x.setV (fD i) g (List.replicate 32 (x.s (fA i) % 2 ^ 32)))))

/-- VIDX (R254). -/
def Dev.iVidx (s : Dev) (c : Nat) (w : BitVec 56) : Dev :=
  let i := insn 0xC3 w
  s.issueS c i { d := .v, a := .s } true (fun g =>
    let x := s.core c
    .done (s.setCore c (x.setV (fD i) g ((List.range 32).map (fun l => (x.s (fA i) + l) % 2 ^ 32)))))

/-- VMOVS (R254). -/
def Dev.iVmovs (s : Dev) (c : Nat) (w : BitVec 56) : Dev :=
  let i := insn 0xC4 w
  s.issueS c i { d := .s, a := .v, imm := 0x1F } true (fun g =>
    .done (if g.testBit 0 then s.putS c (fD i) (((s.core c).v (fA i)).getD (imm16 i) 0) else s))

/-- The form of a PLOG word (R254). -/
def formPlog (i : Nat) : Form :=
  match fF i with
  | 0 | 1 | 2 | 3 => { d := .p, a := .p, b := .p, f := 7 }
  | 4 => { d := .p, a := .p, f := 7 }
  | 5 => { d := .p, a := .s, f := 7 }
  | _ => { d := .s, a := .p, f := 7 }

/-- PLOG (R254). -/
def Dev.iPlog (s : Dev) (c : Nat) (w : BitVec 56) : Dev :=
  let i := insn 0xC5 w
  s.issueS c i (formPlog i) (decide (fF i ≤ 6)) (fun g =>
    let x := s.core c
    let a := x.p (fA i)
    let b := x.p (fB i)
    let set (v : Nat) : Act := .done (s.setCore c (x.setP (fD i) g v))
    match fF i with
    | 0 => set (a &&& b)
    | 1 => set (a ||| b)
    | 2 => set (a ^^^ b)
    | 3 => set (a &&& (b ^^^ 0xFFFFFFFF))
    | 4 => set (a ^^^ 0xFFFFFFFF)
    | 5 => set (x.s (fA i) % 2 ^ 32)
    | _ => .done (if g.testBit 0 then s.putS c (fD i) a else s))

/-! ### Reductions (R255) -/

/-- One level of the fixed tree: adjacent pairs added. -/
def treeLevel (sh : FShape) (rm : Rm) : List Nat → List Nat × FpFlags
  | a :: b :: r =>
    let x := sh.add rm a b
    let t := treeLevel sh rm r
    (x.code :: t.1, x.flags.union t.2)
  | xs => (xs, {})

/-- The fixed tree over its levels. -/
def treeSum (sh : FShape) (rm : Rm) : Nat → List Nat → FpFlags → Nat × FpFlags
  | 0, xs, fl => (xs.getD 0 0, fl)
  | n + 1, xs, fl => let l := treeLevel sh rm xs; treeSum sh rm n l.1 (fl.union l.2)

/-- FMAX or FMIN of a list that is not empty. -/
def foldMax (mn : Bool) (xs : List Nat) : Nat × FpFlags :=
  xs.foldl (fun acc x => let r := shapeFP32.maxMin mn acc.1 x; (r.code, acc.2.union r.flags)) (xs.getD 0 0, {})

/-- Writes a reduction's result to every active lane. -/
def Core.spread (x : Core) (r g v : Nat) : Core := x.setV r g (List.replicate 32 v)

/-- VRED (R255). AMAX with one register for value and index keeps the index: the value is written first (DESIGN CHOICE, assumption 83). -/
def Dev.iVred (s : Dev) (c : Nat) (w : BitVec 56) : Dev :=
  let i := insn 0xA3 w
  let f := fF i
  let m : Form := { d := .v, a := .v, b := if f = 4 then .v else .unused, c := if f = 4 then .v else .unused, f := 7, imm := if f = 0 then 7 else 0 }
  s.issueS c i m (decide (f ≤ 4)) (fun g =>
    match s.rmOf c (imm16 i % 8) with
    | none => .stop Ev.CORE_ILLEGAL 0
    | some rm =>
      let x := s.core c
      let a := x.v (fA i)
      let act := (active g).map (fun l => a.getD l 0)
      if act.isEmpty then .done s
      else
        match f with
        | 0 =>
          let r := treeSum shapeFP32 rm 5 (a.zipIdx.map (fun t => if g.testBit t.2 then t.1 else 0)) {}
          .done ((s.setCore c (x.spread (fD i) g r.1)).orFlags c r.2)
        | 3 => .done (s.setCore c (x.spread (fD i) g (act.foldl (· + ·) 0 % 2 ^ 32)))
        | 4 =>
          let b := x.v (fB i)
          let r := (active g).foldl (fun p l => argCombine false p (a.getD l 0, b.getD l 0)) (0x7FC00000, 0xFFFFFFFF)
          let t := s.setCore c ((x.spread (fD i) g r.1).spread (fC i) g r.2)
          .done (if act.all isNaN32 then t.raise (coreDie c) Ev.SAMPLE_NAN else t)
        | _ =>
          let r := foldMax (decide (f = 2)) act
          .done ((s.setCore c (x.spread (fD i) g r.1)).orFlags c r.2))

/-- VPRD (R256): held while anything earlier works on its panel (R109), which counts in CORE_PC_STALL_UNIT (DESIGN CHOICE, assumption 83: R267 and
R271 class no such hold). -/
def Dev.iVprd (s : Dev) (c : Nat) (w : BitVec 56) : Dev :=
  let i := insn 0xA4 w
  s.issueS c i { d := .v, f := 0x1C, imm := 0xFF } true (fun g =>
    let n := panelOf i
    if (s.core c).panelBusy n (s.core c).order then .hold .CORE_PC_STALL_UNIT
    else
      let t := s.closePanel c n
      let x := t.core c
      let p := x.panel n
      let vals := (List.range 32).map (fun j =>
        let cell := p.cell (cellKey (bits (imm16 i) 6 5) (imm16 i % 32) j)
        if cell.empty then 0 else if (imm16 i).testBit 7 then cell.c.toNat else cell.f.toNat)
      .done (t.setCore c (x.setV (fD i) g vals)))

/-- VSSQ (R261). -/
def Dev.iVssq (s : Dev) (c : Nat) (w : BitVec 56) : Dev :=
  let i := insn 0xA5 w
  s.issueS c i { a := .v, f := 3 } true (fun g =>
    let x := s.core c
    let sq (a : Nat) : FpRes := let e := shapeFP32.convert shapeFP64 .rne a; let m := shapeFP64.mul .rne e.code e.code; ⟨m.code, m.flags.union e.flags⟩
    let rs := (x.v (fA i)).zipIdx.map (fun t => if g.testBit t.2 then sq t.1 else ⟨0, {}⟩)
    let r := treeSum shapeFP64 .rne 5 (rs.map (fun r => r.code)) (unionFlags (rs.map (fun r => r.flags)))
    let n := fF i % 4
    let a := shapeFP64.add .rne (x.n n) r.1
    .done ((s.setCore c (x.setN n a.code)).orFlags c (r.2.union a.flags)))

/-- NRD (R261). It acts when bit 0 of the guard is 1. -/
def Dev.iNrd (s : Dev) (c : Nat) (w : BitVec 56) : Dev :=
  let i := insn 0xA6 w
  s.issueS c i { d := .s, f := 7 } true (fun g =>
    if g.testBit 0 then
      let n := fF i % 4
      let t := s.putS c (fD i) ((s.core c).n n)
      .done (if (fF i).testBit 2 then t.setCore c ((t.core c).setN n 0) else t)
    else .done s)

end Sys2Proof.Machine
end

