-- ==== Sys2Proof/Machine/VectorRandom.lean ====
section
/-!
DEFINITION. Vector instructions that draw (R209 to R216, R253, R257 to R260).
-/
namespace Sys2Proof.Machine

/-- `n` draws of a lane, in order, and whether one of them saturated its count (R201, R204). -/
def Lane.drawN : Nat → Lane → List Nat × Lane × Bool
  | 0, l => ([], l, false)
  | n + 1, l =>
    let d := l.draw
    let r := Lane.drawN n d.2.1
    (d.1 :: r.1, r.2.1, d.2.2 || r.2.2)

/-- One draw of lane `l` of a core, with its count and any saturation (R201, R204, R226). -/
def Dev.takeDraws (s : Dev) (c l n : Nat) : List Nat × Dev :=
  let x := s.core c
  let r := Lane.drawN n (x.lane l)
  let s := (s.setCore c { x with lanes := SMap.write {} x.lanes l r.2.1 }).perfCore .RNG_PC_LANE c n
  (r.1, if r.2.2 then s.raise (coreDie c) Ev.DRAW_SAT else s)

/-- The key of keyed draws under a tag (R207). -/
def Dev.drawKey (s : Dev) (c tag : Nat) : Nat := mixKey tag (s.fld Fld.RNG_SEED_SEED c)

/-- The stream and step of keyed draws (R207). -/
def Dev.drawStream (s : Dev) (c : Nat) : Nat := s.fld Fld.STEP_STREAM_STREAM (s.corePart c)
def Dev.drawStep (s : Dev) (c : Nat) : Nat := s.step (s.corePart c)

/-- The draws of a vector instruction for the lanes of a guard: `nd` for each active lane, none for the others (R210). One mix counts for each
draw and each group of eight elements that holds an active lane (DESIGN CHOICE, assumption 78: R226 does not say how masked groups count). -/
def Dev.vecDraws (s : Dev) (c : Nat) (keyed : Bool) (g e0 tag j nd : Nat) : List (List Nat) × Dev :=
  if keyed then
    let key := s.drawKey c tag
    let es := (active g).map (fun l => (e0 + l) / 8)
    ((List.range 32).map (fun l =>
        if g.testBit l then (List.range nd).map (fun k => keyedVecWord key (s.drawStream c) (s.drawStep c) (e0 + l) (j + k)) else []),
      s.perfCore .RNG_PC_KEYED c (nd * es.eraseDups.length))
  else
    (List.range 32).foldl (fun acc l =>
      if g.testBit l then let r := acc.2.takeDraws c l nd; (acc.1 ++ [r.1], r.2) else (acc.1 ++ [[]], acc.2)) ([], s)

/-- Whether a keyed instruction's draws would reach index 0xFFFF (R210). -/
def drawsReach (keyed : Bool) (j nd : Nat) : Bool := keyed && decide (0xFFFF ≤ j + nd - 1)

/-- The format code in the descriptor at a payload offset (R288). -/
def Dev.descFmt (s : Dev) (c off : Nat) : Nat := bits (Memory.num s.mem (strideAddr c off) 8) 55 52

/-- Whether a queued edge operation will draw from lane generators as the registers stand (R154, R199, R211). -/
def Dev.opDraws (s : Dev) (c : Nat) (q : EdgeOp) : Bool :=
  s.flag Fld.EDGE_CTL_SR c && !s.flag Fld.RNG_CTL_MODE c
    && ((decide (opOf q.word = 0x80) && decide (s.descFmt c q.a ≠ s.descFmt c q.b))
      || (decide (opOf q.word = 0x64) && decide (s.descFmt c q.d ≤ 6)))

/-- Whether lane-generator draws of a vector instruction wait for an earlier conversion's (R211). -/
def Dev.drawHeld (s : Dev) (c : Nat) (keyed : Bool) : Bool := !keyed && (s.core c).edgeQ.any (s.opDraws c)

/-! ### VCVT (R253) -/

/-- One lane of VCVT: a conversion between wide formats; the same format is a copy, a NaN code kept too (R60, R67; DESIGN CHOICE against R51,
assumption 83). -/
def vcvtLane (src dst : Fmt) (rm : Rm) (a : Nat) : FpRes :=
  if src = dst then ⟨a % 2 ^ dst.bits, {}⟩ else src.shape.convert dst.shape rm (a % 2 ^ src.bits)

/-- Whether a format code is one VCVT accepts. -/
def vcvtFmt (n : Nat) : Option Fmt :=
  match Fmt.ofCode n with
  | some f => if f.narrow then none else some f
  | none => none

/-- The results of VCVT with each lane's random bits; `sr` is the random bits' number, 0 for none. -/
def vcvtAll (src dst : Fmt) (rm : Rm) (sr g : Nat) (xs : List Nat) (us : List (List Nat)) : List Nat × FpFlags :=
  let rs := xs.zipIdx.map (fun t =>
    vcvtLane src dst (if sr = 0 then rm else .stoch sr ((us.getD t.2 []).getD 0 0 % 2 ^ sr)) t.1)
  (rs.map (fun r => r.code), unionFlags ((active g).map (fun l => (rs.getD l ⟨0, {}⟩).flags)))

/-- The form of a VCVT word. -/
def formVcvt (i : Nat) : Form :=
  let sr := bits (imm16 i) 4 3
  { d := fpSlot (decide (fF i = 8)), a := fpSlot (decide (imm16 i / 4096 = 8)), b := if sr = 0 then .unused else .s
    c := if sr = 0 then .unused else .s, f := 0xF, imm := if sr = 0 then 0xF01F else 0xF03F }

/-- VCVT (R253). A copy takes no draws (R60). -/
def Dev.iVcvt (s : Dev) (c : Nat) (w : BitVec 56) : Dev :=
  let i := insn 0xA2 w
  let sr := bits (imm16 i) 4 3
  let keyed := (imm16 i).testBit 5
  s.issueS c i (formVcvt i) (decide (sr ≠ 3) && (decide (sr = 0) || ((decide (fF i = 5) || decide (fF i = 6)) && decide (imm16 i % 8 = 0)))) (fun g =>
    match s.rmOf c (imm16 i % 8), vcvtFmt (imm16 i / 4096), vcvtFmt (fF i) with
    | none, _, _ => .stop Ev.CORE_ILLEGAL 0
    | some rm, some src, some dst =>
      let x := s.core c
      let e0 := x.s (fB i)
      let t := x.s (fC i)
      let j := bits t 31 16
      let k := if sr = 0 then 0 else sr + 2
      let copy := decide (sr = 0) || decide (src = dst)
      let put (us : List (List Nat)) (s : Dev) : Act :=
        let y := s.core c
        let r := vcvtAll src dst rm k g (y.operand (decide (src = .fp64)) (fA i)) us
        .done ((s.setCore c (y.setOperand (decide (dst = .fp64)) (fD i) g r.1)).orFlags c r.2)
      if copy then put [] s
      else if drawsReach keyed j 1 then .stop Ev.RNG_INDEX 0
      else if s.drawHeld c keyed then .hold .CORE_PC_STALL_DRAW
      else let d := s.vecDraws c keyed g e0 (t % 65536) j 1; put d.1 d.2
    | _, _, _ => .stop Ev.FMT_ILLEGAL 0)

/-! ### VRAND and VGUMBEL (R212 to R215, R257, R258) -/

/-- Draws a distribution takes (R212). -/
def distDraws (k : Nat) : Nat :=
  match k with
  | 2 | 6 => 2
  | 4 => 3
  | _ => 1

/-- A distribution's result (R212, R213); `cdf` is the core's table. -/
def distValue (k : Nat) (cdf : Nat → Nat) (t : Nat) (u : List Nat) : Nat :=
  let u0 := u.getD 0 0
  let u1 := u.getD 1 0
  match k with
  | 0 => u0
  | 1 => unif16 u0
  | 2 => unif23 u0 u1
  | 3 => b2n (decide (u0 < t))
  | 4 => normBmValue u0 u1 (u.getD 2 0)
  | 5 => normCdf cdf u0
  | _ => gumbelValue u0 u1

/-- Entry `i` of a core's table t (R225). -/
def Dev.cdfTable (s : Dev) (c i : Nat) : Nat :=
  let r := s.reg .RNG_CDF (128 * c + i / 2)
  if i % 2 = 0 then r % 2 ^ 32 else r / 2 ^ 32

/-- VRAND (R257). -/
def Dev.iVrand (s : Dev) (c : Nat) (w : BitVec 56) : Dev :=
  let i := insn 0xC6 w
  let k := fF i % 8
  let keyed := (fF i).testBit 3
  s.issueS c i { d := .v, a := .s, b := .s, c := if k = 3 then .s else .unused, f := 0xF } (decide (k ≠ 7)) (fun g =>
    let x := s.core c
    let t := x.s (fB i)
    let j := bits t 31 16
    if drawsReach keyed j (distDraws k) then .stop Ev.RNG_INDEX 0
    else if s.drawHeld c keyed then .hold .CORE_PC_STALL_DRAW
    else
      let d := s.vecDraws c keyed g (x.s (fA i)) (t % 65536) j (distDraws k)
      let vals := d.1.map (distValue k (s.cdfTable c) (x.s (fC i) % 65536))
      .done (d.2.setCore c ((d.2.core c).setV (fD i) g vals)))

/-- VGUMBEL (R215, R258). -/
def Dev.iVgumbel (s : Dev) (c : Nat) (w : BitVec 56) : Dev :=
  let i := insn 0xC7 w
  let keyed := (fF i).testBit 3
  s.issueS c i { d := .v, a := .v, b := .s, c := .s, x := .s, f := 8 } true (fun g =>
    let x := s.core c
    let t := x.s (fB i)
    let j := bits t 31 16
    if drawsReach keyed j 2 then .stop Ev.RNG_INDEX 0
    else if s.drawHeld c keyed then .hold .CORE_PC_STALL_DRAW
    else
      let d := s.vecDraws c keyed g (x.s (fX i)) (t % 65536) j 2
      let gs := d.1.map (distValue 6 (fun _ => 0) 0)
      let y := d.2.core c
      let temp := x.s (fC i) % 2 ^ 32
      let r := laneMap g (fun a b _ => shapeFP32.fma .rne false false temp b a) (y.v (fA i)) gs gs
      .done ((d.2.setCore c (y.setV (fD i) g r.1)).orFlags c r.2))

/-! ### VOPT (R259, R260) -/

/-- What VOPT gives one lane: the weight, the moments, and the flags. -/
structure OptRes where
  w : Nat
  m : Nat
  v : Nat
  flags : FpFlags

/-- One lane of VOPT (R260): parameters `p`, BF16 weight, gradient and moments. -/
def voptLane (p : Nat → Nat) (rm : Rm) (w g m v : Nat) : OptRes :=
  let f := shapeFP32
  let one := 0x3F800000
  let g1 := f.mul .rne g (p 7)
  let q1 := f.sub .rne one (p 1)
  let h1 := f.mul .rne q1.code g1.code
  let m1 := f.fma .rne false false (p 1) m h1.code
  let q2 := f.sub .rne one (p 2)
  let gg := f.mul .rne g1.code g1.code
  let h2 := f.mul .rne q2.code gg.code
  let v1 := f.fma .rne false false (p 2) v h2.code
  let un := f.mul .rne m1.code (p 5)
  let vs := f.mul .rne v1.code (p 6)
  let sq := f.sqrt .rne vs.code
  let ud := f.add .rne sq.code (p 3)
  let u := f.div .rne un.code ud.code
  let w0 := w % 65536 * 65536
  let dec := f.fma .rne false false (p 4) w0 u.code
  let w1 := f.fma .rne false false (f.negate (p 0)) dec.code w0
  let wb := f.convert shapeBF16 rm w1.code
  ⟨wb.code, m1.code, v1.code,
    unionFlags ([g1, q1, h1, m1, q2, gg, h2, v1, un, vs, sq, ud, u, dec, w1, wb].map (fun r => r.flags))⟩

/-- The form of a VOPT word: to nearest it draws nothing, and uses neither G nor the register of E0 (R234, R259). -/
def formVopt (i : Nat) : Form :=
  let draws := decide (fF i % 4 ≠ 0)
  { d := .v, a := .v, b := .v, c := .v, x := .v, f := if draws then 7 else 3, imm := if draws then 0x3F else 0 }

/-- VOPT (R259, R260). Its results are written to D, then B, then C, so the last stays where they name one register (DESIGN CHOICE,
assumption 83). -/
def Dev.iVopt (s : Dev) (c : Nat) (w : BitVec 56) : Dev :=
  let i := insn 0xA7 w
  let m := formVopt i
  let rnd := fF i % 4
  let keyed := (fF i).testBit 2
  s.issue c i (m.ok i && decide (rnd ≠ 3) && decide (imm16 i < 32)) [imm16 i] (fun g =>
    let x := s.core c
    let pv := x.v (fX i)
    let p (n : Nat) : Nat := pv.getD n 0
    let j := p 9 % 65536
    let k := rnd + 2
    if rnd ≠ 0 && drawsReach keyed j 1 then .stop Ev.RNG_INDEX 0
    else if rnd ≠ 0 && s.drawHeld c keyed then .hold .CORE_PC_STALL_DRAW
    else
      let d := if rnd = 0 then ([], s) else s.vecDraws c keyed g (x.s (imm16 i)) (p 8 % 65536) j 1
      let ws := x.v (fD i)
      let gs := x.v (fA i)
      let ms := x.v (fB i)
      let vs := x.v (fC i)
      let rs := (List.range 32).map (fun l =>
        voptLane p (if rnd = 0 then .rne else .stoch k ((d.1.getD l []).getD 0 0 % 2 ^ k)) (ws.getD l 0) (gs.getD l 0) (ms.getD l 0) (vs.getD l 0))
      let y := (((d.2.core c).setV (fD i) g (rs.map (fun r => r.w))).setV (fB i) g (rs.map (fun r => r.m))).setV (fC i) g (rs.map (fun r => r.v))
      let fl := unionFlags ((active g).map (fun l => (rs.getD l ⟨0, 0, 0, {}⟩).flags))
      .done ((d.2.setCore c y).orFlags c fl))

end Sys2Proof.Machine
end

