-- ==== Sys2Proof/Machine/Arrays.lean ====
section
/-!
DEFINITION. WLOAD and AMUL (R71, R72, R82 to R93, R106 to R109, R245, R268, R269): what they check at issue, their dispatch, the bank
load, and each partial-sum vector at the accumulator row, with what the check datapath forms of it (R450).
-/
namespace Sys2Proof.Machine

/-! ### Operands in the staging area (R54 to R56, R245) -/

/-- Size of the staging area (R137). -/
def stagingSize : Nat := 0x1A000

/-- Format code, block-size bit, bank, and count of vectors of a WLOAD or AMUL word (R245). -/
def arrFmt (w : Nat) : Nat := bits (imm16 w) 6 3
def arrBs16 (w : Nat) : Bool := (imm16 w).testBit 2
def arrBank (w : Nat) : Nat := fF w % 2
def arrVectors (w : Nat) : Nat := if isAmul w then bits (imm16 w) 11 7 + 1 else 32
def arrMask (w : Nat) : Nat := bits (imm16 w) 15 12
def arrCol (w : Nat) : Bool := (fF w).testBit 1
def arrStart (w : Nat) : Bool := (fF w).testBit 5

/-- Blocks of one vector of 32 elements. -/
def vecBlocks (bs16 : Bool) : Nat := if bs16 then 2 else 1

/-- Where block `i` of an operand that begins at `a` lies: the blocks follow one another up to the padding of their staging tile, and go on at
byte 0 of the next one (R55, R56, R137; DEDUCED, assumption 83). Offsets from the start of the edge buffers. -/
def stageBlock (f : Fmt) (bs16 : Bool) (a i : Nat) : Nat :=
  let z := f.packedBytes (blockElems bs16)
  let per := f.blocksPerTile bs16
  let fit := (per * z - a % tileSize) / z
  if per * z = tileSize ∨ i < fit then a + i * z else tileSize * (a / tileSize + 1 + (i - fit) / per) + (i - fit) % per * z

/-- The staging bytes that `n` vectors take, at least one: 64 bytes each for a wide format; else from their first packed block to their last, and
one scale byte for each block. -/
def stageReads (f : Fmt) (bs16 : Bool) (a b n : Nat) : List (Nat × Nat) :=
  let m := n * vecBlocks bs16
  if f.narrow then [(a, stageBlock f bs16 a (m - 1) + f.packedBytes (blockElems bs16)), (b, b + m)] else [(a, a + n * f.packedBytes 32)]

/-- The first address fault of a staging operand, as an offset from the start of the edge buffers (R245). -/
def stageFault (f : Fmt) (bs16 : Bool) (a b n : Nat) : Option Nat :=
  if a % 16 ≠ 0 then some a
  else ((stageReads f bs16 a b n).find? (fun r => decide (stagingSize < r.2))).map (fun r => max r.1 stagingSize)

/-- The operand vectors in a core's staging area. -/
def Dev.stage (s : Dev) (c : Nat) (f : Fmt) (bs16 : Bool) (a b n : Nat) : List OpVec :=
  let base := strideAddr c 0x100000
  let win := SMap.window s.mem base (base + 0x20000)
  let rd (off z : Nat) : Nat := leNat (Memory.bytesFrom win (base + off) z)
  let z := f.packedBytes (blockElems bs16)
  let block (i : Nat) : Nat := rd (stageBlock f bs16 a i) z
  (List.range n).map (fun k =>
    if f.narrow then
      if bs16 then
        ⟨block (2 * k) + 2 ^ (8 * z) * block (2 * k + 1), Memory.byte win (base + b + 2 * k), Memory.byte win (base + b + 2 * k + 1)⟩
      else let sc := Memory.byte win (base + b + k); ⟨block k, sc, sc⟩
    else ⟨rd (a + k * f.packedBytes 32) (f.packedBytes 32), 127, 127⟩)

/-- Whether a format and block size keep the rule for wide formats: BS16 is 0 and the B field names s0 (R245). -/
def wideRule (w : Nat) : Bool :=
  match Fmt.ofCode (arrFmt w) with
  | some f => f.narrow || (!arrBs16 w && decide (fB w = 0))
  | none => true

/-- A format the arrays accept (R71). -/
def arrayFmt (n : Nat) : Option Fmt :=
  match Fmt.ofCode n with
  | some .fp32 => none
  | some .fp64 => none
  | x => x

/-! ### Issue -/

/-- Appends an entry to the span log of a panel, which keeps the last 256 (R460). -/
def Core.logSpan (x : Core) (n : Nat) (e : SpanEntry) : Core :=
  let es := SMap.read [] x.spans n ++ [e]
  { x with spans := SMap.write [] x.spans n (es.drop (es.length - 256)) }

/-- Hands an instruction to the array queue, its reads noted in the span logs: a WLOAD's in every panel's, an AMUL's in its panel's,
which START begins afresh (R236, R460). -/
def Core.queueArray (x : Core) (w a b : Nat) (f : Fmt) : Core :=
  let e : SpanEntry := ⟨w, a, b, (stageReads f (arrBs16 w) a b (arrVectors w)).map (fun r => (0x100000 + r.1, 0x100000 + r.2))⟩
  let y : Core := { x with order := x.order + 1, arrayQ := x.arrayQ ++ [⟨x.order, x.pc.toNat % 2 ^ 20, w, a, b⟩] }
  if isAmul w then
    let n := panelOf w
    (if arrStart w then { y with spans := SMap.write [] y.spans n [] } else y).logSpan n e
  else (List.range 8).foldl (fun y n => y.logSpan n e) y

/-- The format and block size that bank `b` of array `a` has once what is handed over has loaded it: those of its last load queued or in
progress, else its own. -/
def Dev.bankNext (s : Dev) (c a b : Nat) : Bank :=
  let x := s.core c
  let own := s.ownArray c a
  let queued := x.arrayQ.filter (fun q => !isAmul q.word && decide (bits (imm16 q.word) 13 12 = a) && decide (arrBank q.word = b))
  match queued.getLast?, x.loads.find? (fun l => decide (l.array = own) && decide (l.bank = b)) with
  | some q, _ => { fmt := arrayFmt (arrFmt q.word), bs16 := arrBs16 q.word }
  | none, some l => { fmt := some l.fmt, bs16 := l.bs16 }
  | none, none => x.bank (2 * own + b)

/-- What an AMUL meets in the banks it names: EV_FMT_ILLEGAL for an empty one, else EV_FMT_MISMATCH (R72, R85). -/
def Dev.bankFault (s : Dev) (c w : Nat) (f : Fmt) : Option Nat :=
  let bs := (maskArrays (arrMask w)).map (fun a => s.bankNext c a (arrBank w))
  if bs.any (fun b => b.fmt.isNone) then some Ev.FMT_ILLEGAL
  else if bs.any (fun b => decide (b.fmt ≠ some f) || (f.narrow && b.bs16 != arrBs16 w)) then some Ev.FMT_MISMATCH
  else none

/-- Issues a WLOAD or AMUL: formats, banks and staging checked, then queued (R72, R245, R267, R273). -/
def Dev.queueArrayAct (s : Dev) (c i : Nat) : Act :=
  let x := s.core c
  let a := x.s (fA i)
  let b := x.s (fB i)
  match arrayFmt (arrFmt i) with
  | none => .stop Ev.FMT_ILLEGAL 0
  | some f =>
    match (if isAmul i then s.bankFault c i f else none) with
    | some code => .stop code 0
    | none =>
      match stageFault f (arrBs16 i) a b (arrVectors i) with
      | some off => .stop Ev.CORE_ADDR (strideAddr c (0x100000 + off))
      | none => if 4 ≤ x.arrayQ.length then .hold .CORE_PC_STALL_UNIT else .done (s.setCore c (x.queueArray i a b f))

/-- WLOAD (R245). -/
def Dev.iWload (s : Dev) (c : Nat) (w : BitVec 56) : Dev :=
  let i := insn 0x60 w
  s.issueS c i { a := .s, b := .s, f := 1, imm := 0x307C } (wideRule i) (fun _ => s.queueArrayAct c i)

/-- AMUL (R91, R245). -/
def Dev.iAmul (s : Dev) (c : Nat) (w : BitVec 56) : Dev :=
  let i := insn 0x61 w
  s.issueS c i { a := .s, b := .s, f := 0x3F, imm := 0xFFFC } (wideRule i && decide (arrMask i ≠ 0)) (fun _ => s.queueArrayAct c i)

/-! ### Dispatch (R84, R109, R268, R269) -/

/-- Whether a flight uses a bank. -/
def AmulFlight.usesBank (f : AmulFlight) (a b : Nat) : Bool := f.data.mask.toNat.testBit a && decide (f.bank = b)

/-- Bus cycles of one activation vector (R90). -/
def Fmt.busCycles (f : Fmt) : Nat :=
  match f with
  | .fp4 => 1
  | .e2m3 | .e3m2 | .e4m3 | .e5m2 => 2
  | _ => 4

/-- An emptied panel that takes ACC_CTL (R106), with its checksums reset (R450). -/
def Panel.started (p : Panel) (ctl : Nat) : Panel :=
  { p.emptied with promote := BitVec.ofNat 7 ctl, pair := ctl.testBit 8, check := {} }

/-- An AMUL put on the bus: its operands read, and its panel emptied when it carries START and nothing is ahead of it there. All its vectors
are read from staging, gated by ZGATE and counted as they stand at its dispatch (DESIGN CHOICE, assumption 78: R92 spreads them over
cycles, which the model does not count). -/
def Dev.startAmul (s : Dev) (c : Nat) (q : ArrayOp) (f : Fmt) : Dev :=
  let x := s.core c
  let n := panelOf q.word
  let m := arrVectors q.word
  let ctl := s.reg .ACC_CTL c
  let data : AmulRec :=
    { mask := BitVec.ofNat 4 (arrMask q.word), col := arrCol q.word, fmt := f, bs16 := arrBs16 q.word
      acts := s.stage c f (arrBs16 q.word) q.a q.b m
      banks := (List.range 4).map (fun a => if (arrMask q.word).testBit a then x.bank (2 * s.ownArray c a + arrBank q.word) else {}) }
  let wait := x.flights.any (fun f => f.panel == n)
  let fl : AmulFlight :=
    { panel := n, bank := arrBank q.word, order := q.order, next := 0, start := arrStart q.word && wait, ctl := ctl
      gate := s.flag Fld.ARR_CTL_ZGATE c, data := data }
  let y : Core := { x with arrayQ := x.arrayQ.drop 1, flights := x.flights ++ [fl] }
  let y := if arrStart q.word && !wait then y.setPanel n ((y.panel n).started ctl) else y
  (s.setCore c y).perfCore .ARR_PC_ISSUE c (m * f.busCycles)

/-- ARRAY_QUEUE_DISPATCH (R268): the head of the array queue dispatches, or is held, or stops the core. -/
def Dev.arrayDispatch (s : Dev) (c : Nat) : Dev :=
  let x := s.core c
  match x.arrayQ with
  | [] => s
  | q :: qs =>
    match arrayFmt (arrFmt q.word) with
    | none => s
    | some f =>
      let b := arrBank q.word
      if isAmul q.word then
        let heldB := (maskArrays (arrMask q.word)).any (fun a => x.loads.any (fun l => decide (l.array = s.ownArray c a) && decide (l.bank = b)))
        let heldP := x.edgeBefore (panelOf q.word) q.order
        if heldB && heldP then s
        else if heldB then s.perfCore .CORE_PC_HOLD_BANK c 1
        else if heldP then s.perfCore .CORE_PC_HOLD_PANEL c 1
        else
          match (s.setCore c { x with arrayQ := [] }).bankFault c q.word f with
          | some code => (s.setCore c { x with arrayQ := qs }).stopCore c code q.pc 0
          | none => s.startAmul c q f
      else
        let a := bits (imm16 q.word) 13 12
        let own := s.ownArray c a
        if x.flights.any (fun g => g.usesBank a b) || x.loads.any (fun l => decide (l.array = own) && decide (l.bank = b)) then
          s.perfCore .CORE_PC_HOLD_BANK c 1
        else s.setCore c { x with arrayQ := qs, loads := x.loads ++ [⟨own, b, f, arrBs16 q.word, q.a, q.b⟩] }

/-- ARRAY_QUEUE_DISPATCH (R268). -/
def execArrayQueueDispatch (core : CoreId) (s : State) : Host.Outcome State Fault Refusal := ok s (s.dev.arrayDispatch core.toNat)

/-- A bank load's last row is written: the bank of the core's own array is valid (R83, R101, R455). -/
def Dev.bankLoaded (s : Dev) (c a b : Nat) : Dev :=
  let x := s.core c
  match x.loads.find? (fun l => decide (l.array = a) && decide (l.bank = b)) with
  | none => s
  | some l =>
    let bank : Bank := { fmt := some l.fmt, bs16 := l.bs16, rows := s.stage c l.fmt l.bs16 l.srcA l.srcB 32 }
    (s.setCore c { x with loads := x.loads.erase l, banks := SMap.write {} x.banks (2 * a + b) bank }).settle (s.corePart c)

/-- BANK_LOAD_COMPLETE (R83). -/
def execBankLoadComplete (core : CoreId) (array : BitVec 2) (bank : Bool) (s : State) : Host.Outcome State Fault Refusal :=
  ok s (s.dev.bankLoaded core.toNat array.toNat (b2n bank))

/-! ### Block sums (R74 to R89) -/

/-- The scale code of position `i` of an operand vector. -/
def OpVec.scale (v : OpVec) (i : Nat) : Nat := if i < 16 then v.sc0.toNat else v.sc1.toNat

/-- The element code at position `i`. -/
def OpVec.elem (v : OpVec) (f : Fmt) (i : Nat) : Nat := elemAt f.bits v.elems i

/-- The value of position `i`, scaled (R52, R53, R58). -/
def OpVec.val (v : OpVec) (f : Fmt) (i : Nat) : FVal := f.scaled (v.scale i) (v.elem f i)

/-- The 32 values of an operand vector. -/
def OpVec.vals (v : OpVec) (f : Fmt) : List FVal := (List.range 32).map (v.val f)

/-- The weights that output column `j` of an array dots with: row `j` of the bank, or column `j` with the scales of its rows (R87,
R88). -/
def Bank.weights (b : Bank) (f : Fmt) (col : Bool) (j : Nat) : List FVal :=
  if col then b.rows.map (fun r => r.val f j) else (b.rows.getD j ⟨0, 0, 0⟩).vals f

/-- The block sums of one lane for one vector: one, or two halves in order (R89). -/
def laneBlocks (bs16 : Bool) (as ws : List FVal) : List BlockRes :=
  let ps := (as.zip ws).map (fun t => laneProd t.1 t.2)
  if bs16 then [blockSum (ps.take 16), blockSum (ps.drop 16)] else [blockSum ps]

/-! ### The check datapath (R450) -/

/-- Adds an FP32 value into a sum-and-compensation pair, as R119 in pair mode. -/
def pairAdd (p : BitVec 32 × BitVec 32) (v : Nat) : BitVec 32 × BitVec 32 :=
  let r := (({ f := p.1, c := p.2, empty := false } : Cell).add true v).cell
  (r.f, r.c)

/-- The sum of 32 FP32 values by the fixed tree of adjacent pairs. -/
def tree32 (xs : List Nat) : Nat := (treeSum shapeFP32 .rne 5 xs {}).1

/-- The effective value of a position of an operand vector, as an FP32 code (R61, R450). -/
def OpVec.eff (v : OpVec) (f : Fmt) (i : Nat) : Nat := (shapeFP32.encode .rne (v.val f i)).code

/-- v(r) of a bank in an orientation: its weights at reduction position r, over the outputs that position feeds. -/
def Bank.checkSum (b : Bank) (f : Fmt) (col : Bool) (r : Nat) : Nat :=
  tree32 ((List.range 32).map (fun j => if col then (b.rows.getD r ⟨0, 0, 0⟩).eff f j else (b.rows.getD j ⟨0, 0, 0⟩).eff f r))

/-- V(r) over the arrays that an AMUL enables, ascending, for the 32 reduction positions. -/
def AmulRec.sums (d : AmulRec) : List Nat :=
  (List.range 32).map (fun r => ((maskArrays d.mask.toNat).map (fun a => (d.banks.getD a {}).checkSum d.fmt d.col r)).foldl addF32 0)

/-- What row `k` of an AMUL adds to the row checksum of a panel, and, after the last row, what the AMUL adds to the total. -/
def Check.addRow (h : Check) (d : AmulRec) (k : Nat) : Check :=
  let vs := d.sums
  let dot (xs : List Nat) : Nat := tree32 ((xs.zip vs).map (fun t => mulF32 t.1 t.2))
  let row (v : OpVec) : List Nat := (List.range 32).map (v.eff d.fmt)
  let rho := SMap.write (0, 0) h.rho k (pairAdd (SMap.read (0, 0) h.rho k) (dot (row (d.acts.getD k ⟨0, 0, 0⟩))))
  let cols := d.acts.foldl (fun acc v => (acc.zip (row v)).map (fun t => addF32 t.1 t.2)) (List.replicate 32 0)
  { h with rho := rho, tau := if k + 1 = d.acts.length then pairAdd h.tau (dot cols) else h.tau }

/-- What the block sums and the accumulator row give a panel's bounds: E, n, and the additions and largest |F| of row `k`. -/
def Check.bounds (h : Check) (k : Nat) (bs : List BlockOut) (blocks adds peak : Nat) : Check :=
  let e := bs.foldl (fun m b => match b, m with
    | .fin _ eb, none => some eb
    | .fin _ eb, some x => some (max eb x)
    | _, m => m) h.maxE
  { h with
    maxE := e, blocks := SMap.write 0 h.blocks k (SMap.read 0 h.blocks k + blocks), adds := SMap.write 0 h.adds k (SMap.read 0 h.adds k + adds)
    peak := max h.peak peak }

/-! ### The accumulator row (R92, R108, R113, R117) -/

/-- What one vector does at one array's 32 cells of row `k`: the cells by key, the blocks, and the counts of each cell. -/
structure RowRes where
  cells : List (Nat × Cell × AccCounts)
  blocks : List BlockRes

/-- Row `k` of an AMUL at array `a`. -/
def Panel.rowAt (p : Panel) (d : AmulRec) (k a : Nat) : RowRes :=
  let as := (d.acts.getD k ⟨0, 0, 0⟩).vals d.fmt
  let bank := d.banks.getD a {}
  let pe := effPromote p.promote.toNat d.bs16
  let bs := (List.range 32).map (fun j => laneBlocks d.bs16 as (bank.weights d.fmt d.col j))
  ⟨bs.zipIdx.map (fun t => let key := cellKey a k t.2; (key, Cell.vector pe p.pair (t.1.map (fun b => b.out)) (p.cell key))), bs.flatten⟩

/-- A bit upset of a run accumulator, or of F where the run is reset (R458): the sites the checks guard. -/
def Panel.upset (p : Panel) (key mask : Nat) : Panel :=
  let c := p.cell key
  if c.run.cnt ≠ 0 then p.setCell key { c with run := { c.run with a := c.run.a ^^^ BitVec.ofNat 32 mask } }
  else p.setCell key { c with f := c.f ^^^ BitVec.ofNat 32 mask }

/-- Counts the block sums of a vector (R102). -/
def Dev.blockCount (s : Dev) (c : Nat) (col gate : Bool) (bs : List BlockRes) : Dev :=
  let s := s.perfCore .ARR_PC_BLOCKS c bs.length
  let t := (bs.filter (fun b => b.trunc)).length
  let s := s.perfCore (if col then .ARR_PC_TRUNC_COL else .ARR_PC_TRUNC_ROW) c t
  if gate then s.perfCore .ARR_PC_GATED c (bs.foldl (fun n b => n + b.zeros) 0) else s

/-- The panel of a flight as its first vector finds it (R106), with the AMUL noted for the gill products. -/
def AmulFlight.enter (f : AmulFlight) (p : Panel) : Panel :=
  if f.next ≠ 0 then p
  else
    let p := if f.start then p.started f.ctl else p
    { p with hist := p.hist ++ [f.data] }

/-- The next vector of the oldest AMUL in flight reaches the accumulator row (R92, R108). -/
def Dev.rowWriteback (s : Dev) (c : Nat) (upset : Option (Nat × Nat)) : Dev :=
  let x := s.core c
  match x.flights with
  | [] => s
  | f :: fs =>
    let d := f.data
    let k := f.next
    let p := f.enter (x.panel f.panel)
    let arrs := maskArrays d.mask.toNat
    let rs := arrs.map (p.rowAt d k)
    let cells := rs.flatMap (fun r => r.cells)
    let blocks := rs.flatMap (fun r => r.blocks)
    let n := cells.foldl (fun n t => n.plus t.2.2) ({} : AccCounts)
    let adds := cells.foldl (fun m t => max m (t.2.2.promotes + t.2.2.bypass)) 0
    let p1 := cells.foldl (fun (p : Panel) t => p.setCell t.1 t.2.1) p
    let p2 := if s.abft c then { p1 with check := (p1.check.addRow d k).bounds k (blocks.map (fun b => b.out)) (if d.bs16 then 2 else 1) adds n.peak } else p1
    let p3 := match upset with
      | some (key, mask) => if key / 32 % 32 = k ∧ arrs.contains (key / 1024) then p2.upset key mask else p2
      | none => p2
    let fl := if k + 1 < d.acts.length then { f with next := k + 1, start := false } :: fs else fs
    let s := s.setCore c { x.setPanel f.panel p3 with flights := fl }
    ((s.blockCount c d.col f.gate blocks).accCount c n).settle (s.corePart c)

/-- ACCUMULATOR_ROW_WRITEBACK (R108). -/
def execAccumulatorRowWriteback (core : CoreId) (upset : Option (BitVec 12 × BitVec 32)) (s : State) : Host.Outcome State Fault Refusal :=
  ok s (s.dev.rowWriteback core.toNat (upset.map (fun u => (u.1.toNat, u.2.toNat))))

end Sys2Proof.Machine
end

