-- ==== Sys2Proof/Machine/HostQueues.lean ====
section
/-!
DEFINITION. The copy queues (R427 to R431): doorbells, fetching, starting, the reads of host memory and completion records.
-/
namespace Sys2Proof.Machine

/-! ### The state of a queue -/

/-- Queue `n` of a partition. -/
def Dev.queue (s : Dev) (p n : Nat) : Queue := SMap.read {} (s.part p).queues n
def Dev.setQueue (s : Dev) (p n : Nat) (q : Queue) : Dev :=
  s.setPart p { s.part p with queues := SMap.write {} (s.part p).queues n q }

/-- The instance of a queue's registers. -/
def qIdx (p n : Nat) : Nat := 16 * p + n

/-- The ring size N, the fetching port, and the next entry to fetch. -/
def Dev.qSize (s : Dev) (p n : Nat) : Nat := 2 ^ s.fld Fld.HLK_Q_CFG_LOG2 (qIdx p n)
def Dev.qPort (s : Dev) (p n : Nat) : Nat := s.fld Fld.HLK_Q_CFG_PORT (qIdx p n)
def Dev.qHead (s : Dev) (p n : Nat) : Nat := s.fld Fld.HLK_Q_STAT_HEAD (qIdx p n)

/-- Whether a port may fetch for a partition: a PRIMARY or AUX port of it (R427). -/
def Dev.portServes (s : Dev) (p port : Nat) : Bool :=
  decide (port < 6) && s.partOf port == p && (s.fld Fld.HLK_PSTAT_ROLE port == 1 || s.fld Fld.HLK_PSTAT_ROLE port == 2)

/-- Sets BUSY of a queue that no longer runs: entries are left whose records are not written (R430). -/
def Dev.setBusy (s : Dev) (p n : Nat) : Dev :=
  let q := s.queue p n
  let left := !s.flag Fld.HLK_Q_CFG_EN (qIdx p n) && !(q.started.isEmpty && q.fetched.isEmpty)
  s.setFld Fld.HLK_Q_STAT_BUSY (qIdx p n) (b2n left)

/-! ### Reads of host memory -/

/-- Sends a read of `len` bytes of host memory with a fresh tag. -/
def Dev.sendRead (s : Dev) (port p n entry : Nat) (tile : Option Nat) (addr len : Nat) : Dev :=
  let h := s.hostPort port
  let r : HRead := ⟨h.nextTag, p, n, entry, tile⟩
  (s.setHost port { h with reads := h.reads ++ [r], nextTag := (h.nextTag + 1) % 4096 }).hostSend port
    { op := 1, tag := r.tag, len := len, addr := addr }

/-- Drops the reads of a queue that are of a kind. -/
def Dev.dropReads (s : Dev) (p n : Nat) (kind : HRead → Bool) : Dev :=
  s.each (List.range 6) (fun port s =>
    let h := s.hostPort port
    if h.reads.any (fun r => r.part == p && r.queue == n && kind r) then
      s.setHost port { h with reads := h.reads.filter (fun r => !(r.part == p && r.queue == n && kind r)) }
    else s)

/-- Whether the copy queues run: in RUN and IDLE, and while no entry into a lower state is under way, so that none of their entries is in flight in
SLEEP (R529, R531; DESIGN CHOICE, assumption 64). -/
def Dev.queuesRun (s : Dev) : Bool := decide (s.power ≤ pwrIdle) && !(s.flag Fld.PWR_STAT_BUSY 0 && decide (pwrSleep ≤ s.sby.target))

/-- Asks for the next entry, one at a time, while the queue runs and entries await fetch (R427, R532). -/
def Dev.pumpQueue (s : Dev) (p n : Nat) : Dev :=
  let i := qIdx p n
  let port := s.qPort p n
  let asking := (s.hostPort port).reads.any (fun r => r.part == p && r.queue == n && r.tile.isNone)
  if s.flag Fld.HLK_Q_CFG_EN i && s.portServes p port && decide (s.fld Fld.HLK_PSTAT_LINK port = 2) && s.queuesRun
      && decide (s.qHead p n ≠ (s.queue p n).tail) && !asking then
    s.sendRead port p n (s.qHead p n) none (s.reg .HLK_Q_BASE i / 4096 * 4096 + 64 * s.qHead p n) 64
  else s

/-- Lets every queue of every partition fetch again. -/
def Dev.pumpAll (s : Dev) : Dev := s.each s.partitions (fun p s => s.each (List.range 16) (fun n s => s.pumpQueue p n))

/-! ### Stops (R428 to R430, R435) -/

/-- A queue stops fetching. -/
def Dev.haltQueue (s : Dev) (p n : Nat) : Dev :=
  ((s.setFld Fld.HLK_Q_CFG_EN (qIdx p n) 0).dropReads p n (fun r => r.tile.isNone)).setBusy p n

/-- A queue stops by itself: EN falls, STOP and ERR say so, and its entries are handled as at a write of EN = 0. -/
def Dev.stopQueue (s : Dev) (p n err : Nat) : Dev :=
  let s := (s.setFld Fld.HLK_Q_STAT_STOP (qIdx p n) 1).setFld Fld.HLK_Q_STAT_ERR (qIdx p n) err
  (s.haltQueue p n).raise (s.qPort p n) Ev.HLK_QUEUE

/-- A queue stops and its entries in flight complete with ABORTED (R435). -/
def Dev.abortQueue (s : Dev) (p n err : Nat) : Dev :=
  let q := s.queue p n
  let ended := q.started.map (fun e => if e.ended.isSome then e else { e with ended := some (3, err) })
  let s := (s.setQueue p n { q with started := ended }).dropReads p n (fun _ => true)
  if s.flag Fld.HLK_Q_CFG_EN (qIdx p n) then s.stopQueue p n err else s.setBusy p n

/-- The queues that a port fetches: its partition's, enabled or with entries left. -/
def Dev.queuesOf (s : Dev) (port : Nat) : List Nat :=
  let p := s.partOf port
  (List.range 16).filter (fun n => s.qPort p n == port && (s.flag Fld.HLK_Q_CFG_EN (qIdx p n) || s.flag Fld.HLK_Q_STAT_BUSY (qIdx p n)))

/-- A read outstanding on a port that goes DOWN, of a queue that another port fetches since, completes ABORTED: its COPY_IN ends so, and an
entry not yet fetched is asked for again (R435, R440). -/
def Dev.abortRead (s : Dev) (port : Nat) (r : HRead) : Dev :=
  let h := s.hostPort port
  let s := s.setHost port { h with reads := h.reads.erase r }
  let q := s.queue r.part r.queue
  match r.tile with
  | none => s.pumpQueue r.part r.queue
  | some _ => s.setQueue r.part r.queue { q with started := q.started.map (fun e =>
      if e.idx = r.entry ∧ e.ended.isNone then { e with ended := some (3, Ev.HLK_LINK_DOWN) } else e) }

/-- The interrupts of a queue's entries in flight that ask for one, as they complete inside the device: to the partition's PRIMARY port (R417,
R429, R432, R435). -/
def Dev.flightIntrs (s : Dev) (p n : Nat) : Dev :=
  match s.primary p with
  | some q => s.each ((s.queue p n).started.filter (fun e => e.irq)) (fun _ s => s.hostSend q { op := 5, vector := n })
  | none => s

/-- A fetching port has gone DOWN: its queues stop, their entries in flight complete ABORTED, and no record can be sent; what it still read for other
queues is aborted (R435). -/
def Dev.portDownQueues (s : Dev) (port : Nat) : Dev :=
  let p := s.partOf port
  let s := s.each (s.queuesOf port) (fun n s =>
    let s := (s.abortQueue p n Ev.HLK_LINK_DOWN).flightIntrs p n
    (s.setQueue p n { s.queue p n with started := [], fetched := [] }).setBusy p n)
  s.each (s.hostPort port).reads (fun r s => s.abortRead port r)

/-! ### Registers -/

/-- A doorbell (R428). -/
def Dev.doorbell (s : Dev) (p n d : Nat) : Dev :=
  let q := s.queue p n
  let m := s.qSize p n
  let h := s.qHead p n
  if !s.flag Fld.HLK_Q_CFG_EN (qIdx p n) ∨ d = q.tail then s
  else if m ≤ d ∨ (d + m - h) % m < (q.tail + m - h) % m then s.stopQueue p n Ev.HLK_QUEUE
  else (s.setQueue p n { q with tail := d }).pumpQueue p n

/-- A write of HLK_Qn_CFG (R427, R430, R440). -/
def Dev.queueCfg (s : Dev) (p n v : Nat) : Dev :=
  let i := qIdx p n
  let log := bits v 4 1
  let port := bits v 7 5
  let was := s.flag Fld.HLK_Q_CFG_EN i
  let s := if 4 ≤ log then s.setFld Fld.HLK_Q_CFG_LOG2 i log else s
  let s := if s.portServes p port then s.setFld Fld.HLK_Q_CFG_PORT i port else s
  if v.testBit 0 then
    if was ∨ s.flag Fld.HLK_Q_STAT_BUSY i then s
    else
      let s := ((s.setFld Fld.HLK_Q_CFG_EN i 1).setReg .HLK_Q_STAT i 0).setQueue p n {}
      s.pumpQueue p n
  else if was then s.haltQueue p n
  else s

/-! ### Entries (R428, R429) -/

/-- A submission entry of 64 bytes at a ring index; `bad` says that it breaks R428. -/
def parseEntry (idx : Nat) (b : List Byte) : QEntry :=
  let rd (o n : Nat) : Nat := leNat ((b.drop o).take n)
  let op := rd 0 1 % 16
  let copy := op == 1 || op == 2
  { idx := idx, op := op, irq := (rd 0 1).testBit 4, order := (rd 0 1).testBit 5, haddr := rd 8 8, daddr := rd 16 8 % 2 ^ 52, tiles := rd 24 4
    user := rd 32 8
    bad := decide (op = 0) || decide (3 < op) || decide (64 ≤ rd 0 1) || decide (rd 1 7 ≠ 0) || decide (2 ^ 52 ≤ rd 16 8) || decide (rd 28 4 ≠ 0)
      || (b.drop 40).any (fun x => x != 0)
      || (copy && (decide (rd 8 8 % tileSize ≠ 0) || decide (rd 16 8 % tileSize ≠ 0) || decide (rd 24 4 = 0) || decide (1048576 < rd 24 4))) }

/-- The tiles an entry moves. -/
def QEntry.tileAddrs (e : QEntry) : List Nat := if e.op = 3 then [] else (List.range e.tiles).map (fun i => e.daddr + i * tileSize)

/-- Whether an address lies in a partition's window, memory behind a down bridge apart (R24, R35; DESIGN CHOICE, assumption 74). -/
def Dev.entryMapped (s : Dev) (p port a : Nat) : Bool :=
  if isCtl a then decide (devBase ≤ a) || s.partOf ((a - ctlBase) / ctlSize) == p else s.inMemWindow p a && s.reaches port (addrDie a)

/-- How an entry that moves no tile fails: MALFORMED where it breaks R428, among it a device address within the window that is no payload,
UNMAPPED where a tile lies outside the window (R429); none when it may go. -/
def Dev.entryFault (s : Dev) (p port : Nat) (e : QEntry) : Option (Nat × Nat) :=
  if e.bad then some (2, Ev.HLK_MALFORMED)
  else if e.tileAddrs.any (fun a => !s.entryMapped p port a) then some (1, Ev.HLK_UNMAPPED)
  else if e.tileAddrs.any (fun a => !s.payloadTile p a) then some (2, Ev.HLK_MALFORMED)
  else none

/-- Puts an entry in flight in place of the one with its index. -/
def Queue.putEntry (q : Queue) (e : QEntry) : Queue := { q with started := q.started.map (fun x => if x.idx = e.idx then e else x) }

/-- Asks for the next tile of a COPY_IN. -/
def Dev.askTile (s : Dev) (p n : Nat) (e : QEntry) : Dev :=
  s.sendRead (s.qPort p n) p n e.idx (some e.moved) (e.haddr + e.moved * tileSize) tileSize

/-- The next fetched entry starts: fewer than four in flight, and with ORDER every earlier one completed (R429). An entry that moves
nothing for its form or its window ends at once. -/
def Dev.startEntry (s : Dev) (p n : Nat) : Dev :=
  let q := s.queue p n
  match q.fetched with
  | [] => s
  | e :: es =>
    if !s.flag Fld.HLK_Q_CFG_EN (qIdx p n) ∨ 4 ≤ q.started.length ∨ !s.queuesRun ∨ (e.order ∧ q.started.any (fun x => x.ended.isNone)) then s
    else
      let put (e : QEntry) (s : Dev) : Dev := s.setQueue p n { q with fetched := es, started := q.started ++ [e] }
      match s.entryFault p (s.qPort p n) e with
      | some (status, event) => (put { e with ended := some (status, event) } s).raise (s.qPort p n) event
      | none => if e.op = 1 then (put e s).askTile p n e else put e s

/-- A completion record on the fetching port, and the interrupt on the partition's PRIMARY port if the entry asks for one (R417, R429,
R432). -/
def Dev.writeRecord (s : Dev) (p n : Nat) (e : QEntry) (status event : Nat) : Dev :=
  let q := s.queue p n
  let port := s.qPort p n
  let rec16 := leBytes 8 e.user ++ leBytes 2 e.idx ++ leBytes 1 n ++ leBytes 1 (b2n q.phase + 2 * status) ++ leBytes 2 event ++ leBytes 2 0
  let s := s.hostSend port { op := 2, len := 16, addr := s.reg .HLK_Q_CBASE (qIdx p n) / 4096 * 4096 + 16 * e.idx, data := rec16 }
  let s := match (if e.irq then s.primary p else none) with
    | some q => s.hostSend q { op := 5, vector := n }
    | none => s
  s.setQueue p n { q with phase := if e.idx + 1 = s.qSize p n then !q.phase else q.phase }

/-- The tiles of a COPY_OUT leave, each with its sideband scruple, or the poison scruple where its read met an uncorrectable error
(R426, R448). -/
def Dev.copyOut (s : Dev) (p n : Nat) (e : QEntry) : Dev :=
  let s := s.hbmErrors e.tileAddrs
  s.each (List.range e.tiles) (fun i s =>
    let a := e.daddr + i * tileSize
    s.hostSend (s.qPort p n) { op := 2, len := tileSize, addr := e.haddr + i * tileSize, sv := true, data := s.tile a
                               scruple := s.scrupleOf a })

/-- The first entry in flight completes if it can (a COPY_OUT whose tiles a down bridge cuts off does not, R24; assumption 74), and its record is
written; after the last of a queue that no longer runs, the
entries that never started are recorded ABORTED, one at a time (R429, R430). -/
def Dev.completeEntry (s : Dev) (p n : Nat) : Dev :=
  if pwrIdle < s.power then s else
  let q := s.queue p n
  match q.started with
  | e :: es =>
    let fin (st ev : Nat) (s : Dev) : Dev := ((s.setQueue p n { s.queue p n with started := es }).writeRecord p n e st ev).setBusy p n
    match e.ended with
    | some (st, ev) => fin st ev s
    | none =>
      match e.op with
      | 2 => if e.tileAddrs.any (fun a => !s.reaches (s.qPort p n) (addrDie a)) then s else fin 0 0 (s.copyOut p n e)
      | 3 => fin 0 0 s
      | _ => s
  | [] =>
    match q.fetched with
    | e :: es =>
      if s.flag Fld.HLK_Q_CFG_EN (qIdx p n) then s
      else ((s.setQueue p n { q with fetched := es }).writeRecord p n e 3 0).setBusy p n
    | [] => s

/-! ### Completions of TX4 reads (R426, R429) -/

/-- An entry arrives. -/
def Dev.entryFetched (s : Dev) (p n idx : Nat) (data : List Byte) : Dev :=
  let q := s.queue p n
  let s := s.setQueue p n { q with fetched := q.fetched ++ [parseEntry idx ((data ++ zeros 64).take 64)] }
  (s.setFld Fld.HLK_Q_STAT_HEAD (qIdx p n) ((idx + 1) % s.qSize p n)).pumpQueue p n

/-- A tile of a COPY_IN arrives; one without its scruple is written with a recomputed one. Where its way crosses a bridge that has gone down
since, the entry ends as one outside the window (R24; DESIGN CHOICE, assumption 74). -/
def Dev.tileArrived (s : Dev) (port p n : Nat) (e : QEntry) (sv : Bool) (scr : Nat) (data : List Byte) : Dev :=
  if !s.reaches port (addrDie (e.daddr + e.moved * tileSize)) then
    (s.setQueue p n ((s.queue p n).putEntry { e with ended := some (1, Ev.HLK_UNMAPPED) })).raise port Ev.HLK_UNMAPPED
  else
  let bs := (data ++ zeros tileSize).take tileSize
  let s := s.writeTile (e.daddr + e.moved * tileSize) bs (if sv then scr else tileScruple bs)
  let s := if sv then s else s.raise port Ev.HLK_MALFORMED
  let e := { e with moved := e.moved + 1 }
  if e.moved < e.tiles then (s.setQueue p n ((s.queue p n).putEntry e)).askTile p n e
  else s.setQueue p n ((s.queue p n).putEntry { e with ended := some (0, 0) })

/-- A completion of a TX4 read; one whose tag is not outstanding is ignored, and every one in SLEEP, where the copy queues are stopped (R529). -/
def Dev.completion (s : Dev) (port tag status : Nat) (sv : Bool) (scr : Nat) (data : List Byte) : Dev :=
  if pwrIdle < s.power then s else
  let h := s.hostPort port
  match h.reads.find? (fun r => r.tag == tag) with
  | none => s
  | some r =>
    let s := s.setHost port { h with reads := h.reads.erase r }
    match r.tile with
    | none => if status = 0 then s.entryFetched r.part r.queue r.entry data else s.stopQueue r.part r.queue Ev.HLK_QUEUE
    | some k =>
      match (s.queue r.part r.queue).started.find? (fun e => e.idx == r.entry && e.moved == k && e.ended.isNone) with
      | none => s
      | some e =>
        if status = 0 then s.tileArrived port r.part r.queue e sv scr data
        else
          let s := s.setQueue r.part r.queue ((s.queue r.part r.queue).putEntry { e with ended := some (4, Ev.HLK_QUEUE) })
          if s.flag Fld.HLK_Q_CFG_EN (qIdx r.part r.queue) then s.stopQueue r.part r.queue Ev.HLK_QUEUE else s

/-- A TX4 read has no completion after 10 ms (R435). -/
def Dev.readTimeout (s : Dev) (port tag : Nat) : Dev :=
  match (s.hostPort port).reads.find? (fun r => r.tag == tag) with
  | none => s
  | some r => (s.raise port Ev.HLK_TIMEOUT).abortQueue r.part r.queue Ev.HLK_TIMEOUT

end Sys2Proof.Machine
end

