-- ==== Sys2Proof/Machine/HostPort.lean ====
section
/-!
DEFINITION. Host ports: the owner credential (R433, R434), going DOWN and coming up (R418, R435, R515), and the link layer (R418 to
R420): retry, credits, identity.
-/
namespace Sys2Proof.Machine

/-! ### The owner credential (R433, R434) -/

/-- Sets the HOLD bits with OWNER and NONE. A change of the owner port is counted, and told to the new owner port, or to every PRIMARY port that
is UP where none holds the credential (R432, R434). -/
def Dev.setHold (s : Dev) (hold : Nat) : Dev :=
  let old := s.owner
  let s := s.setFld Fld.HLK_OWNSTAT_HOLD 0 hold
  let s := (s.setFld Fld.HLK_OWNSTAT_OWNER 0 (s.owner.getD 0)).setFld Fld.HLK_OWNSTAT_NONE 0 (b2n s.owner.isNone)
  if s.owner = old then s else s.raiseDev Ev.HLK_OWNER

/-- A port loses HOLD. -/
def Dev.dropHold (s : Dev) (port : Nat) : Dev :=
  let h := s.fld Fld.HLK_OWNSTAT_HOLD 0
  if h.testBit port then s.setHold (h - 2 ^ port) else s

/-! ### Down and up (R418, R435, R502, R515) -/

/-- What a port loses with its link: what waits and is being received, its reads, and what its SPDM requests negotiated (R435, R567). -/
def Dev.clearPort (s : Dev) (port : Nat) : Dev :=
  let h := s.hostPort port
  let s := s.setHost port { link := {}, nextTag := h.nextTag, intrs := h.intrs }
  s.setReg .SEC_SPDM port 0

/-- The drains that use a port are abandoned (R333). -/
def Dev.abandonDrains (s : Dev) (port : Nat) : Dev :=
  s.each s.partitions (fun p s =>
    match (s.part p).drain with
    | some d => if d.ports.contains port then s.abandonDrain p else s
    | none => s)

/-- An UP port goes DOWN (R435). -/
def Dev.hostDown (s : Dev) (port : Nat) : Dev :=
  if s.fld Fld.HLK_PSTAT_LINK port ≠ 2 then s
  else
    let s := s.setFld Fld.HLK_PSTAT_LINK port 3
    let s := (s.portDownQueues port).clearPort port
    (((s.abandonDrains port).dropHold port).raise port Ev.HLK_LINK_DOWN)

/-- Whether a die's host port may train: the dies are powered, its own is not fenced, and the power state keeps host ports UP. -/
def Dev.hostPowered (s : Dev) (port : Nat) : Bool := s.alive && !s.fenced port && decide (s.power ≤ pwrSleep)

/-- HLK_LANE_SIGNAL_LOSS (R418, R435). -/
def execHlkLaneSignalLoss (port : HostPort) (s : State) : Host.Outcome State Fault Refusal := ok s (s.dev.hostDown port)

/-- HLK_RETRAIN_TIMER (R418): a DOWN port returns to training by itself. -/
def execHlkRetrainTimer (port : HostPort) (s : State) : Host.Outcome State Fault Refusal :=
  let d := s.dev
  ok s (if d.fld Fld.HLK_PSTAT_LINK port = 3 ∧ d.hostPowered port then d.setFld Fld.HLK_PSTAT_LINK port 1 else d)

/-- Sends IDENT (R419). -/
def Dev.sendIdent (s : Dev) (port : Nat) : Dev := s.emit (.hostIdent port Config.serial.toNat (s.hostPort port).link.lastSeq)

/-- A port ends its training (R515). -/
def Dev.hostUp (s : Dev) (port : Nat) : Dev :=
  if s.fld Fld.HLK_PSTAT_LINK port = 1 ∧ s.hostPowered port then
    let h := s.hostPort port
    let s := (s.setHost port { h with link := {}, opened := [], whole := [] }).setFld Fld.HLK_PSTAT_LINK port 2
    (s.sendIdent port).pumpAll
  else s

/-- HLK_LINK_UP (R515). -/
def execHlkLinkUp (port : HostPort) (s : State) : Host.Outcome State Fault Refusal := ok s (s.dev.hostUp port)

/-- HLK_IDENT_TIMER (R419): IDENT on a trained port. -/
def execHlkIdentTimer (port : HostPort) (s : State) : Host.Outcome State Fault Refusal :=
  ok s (if s.dev.fld Fld.HLK_PSTAT_LINK port = 2 then s.dev.sendIdent port else s.dev)

/-- The adapter's identity and port arrive, in training or later (R419). -/
def Dev.identArrives (s : Dev) (port serial sender : Nat) : Dev :=
  let l := s.fld Fld.HLK_PSTAT_LINK port
  if l = 1 ∨ l = 2 then s.setHost port { s.hostPort port with adapter := some (serial, sender) } else s

/-- HLK_IDENT_FLIT (R419). -/
def execHlkIdentFlit (port : HostPort) (serial : Word) (sender : BitVec 3) (s : State) : Host.Outcome State Fault Refusal :=
  ok s (s.dev.identArrives port serial.toNat sender.toNat)

/-! ### Retry and credits (R355, R356, R360, R418 to R420) -/

/-- Sends a LINK flit with the credits owed, a NAK and the last accepted SEQ. -/
def Dev.hostLinkFlit (s : Dev) (port : Nat) (nak : Bool) : Dev :=
  let h := s.hostPort port
  let cr := (List.range 4).map (fun v => SMap.read 0 h.link.owed v)
  (s.setHost port { h with link := { h.link with owed := [] } }).emit (.hostLink port cr nak h.link.lastSeq)

/-- Owes back the buffer of a received packet; a LINK flit goes once 256 flits are owed on a VC (R360). -/
def Dev.oweHost (s : Dev) (port vc flits : Nat) : Dev :=
  let h := s.hostPort port
  let n := SMap.read 0 h.link.owed vc + flits
  let s := s.setHost port { h with link := { h.link with owed := SMap.write 0 h.link.owed vc n } }
  if 256 ≤ n then s.hostLinkFlit port false else s

/-- A link error (R354, R355). -/
def Dev.hostError (s : Dev) (port : Nat) : Dev :=
  let h := s.hostPort port
  let l := h.link
  let s := s.countLink Fld.HLK_PERR_LERR Fld.HLK_PERR_LERR_OVF port 1
  if l.discarding && l.nakHeld then s
  else
    let s := s.setHost port { h with opened := [], whole := [], link := { l with discarding := true, nakHeld := true, nextHead := l.expected } }
    s.hostLinkFlit port true

/-- What a packet of the replay buffer sends again: its HEAD and data, of an MWS the tiles sent and not accepted (R356, R422). -/
def SentPkt.outs (x : SentPkt HPkt) (port : Nat) (ack : Option Nat) : List Out :=
  if x.pkt.op = 3 then
    .host port x.seq ack { x.pkt with data := [] } :: (chunks tileSize (x.pkt.data.length / tileSize) x.pkt.data).map (fun t => .hostTile port t)
  else [.host port x.seq ack x.pkt]

/-- The link as it resends: a write stream whose HEAD was accepted goes on under a new MWS HEAD, with the next SEQ, that covers the tiles not
yet accepted (R422); it comes after what else is resent, so that SEQs stay in order. -/
def Link.renewed (l : Link HPkt) : Link HPkt :=
  let new := (l.replay.filter (fun x => x.opened)).zipIdx.map (fun x =>
    (⟨(l.nextSeq + x.2) % 4096, { x.1.pkt with addr := x.1.pkt.addr + x.1.acc * tileSize, len := x.1.pkt.len - x.1.acc }, 0, false⟩ : SentPkt HPkt))
  { l with replay := l.replay.filter (fun x => !x.opened) ++ new, nextSeq := (l.nextSeq + new.length) % 4096, resends := l.resends + 1 }

/-- Resends everything unreleased; the ninth resend of one HEAD brings the port DOWN (R356, R357). -/
def Dev.hostResend (s : Dev) (port : Nat) : Dev :=
  let h := s.hostPort port
  let l := h.link
  if l.replay.isEmpty then s
  else if 8 ≤ l.resends then s.hostDown port
  else
    let s := s.setHost port { h with link := l.renewed }
    let s := s.countLink Fld.HLK_PERR_RETRY Fld.HLK_PERR_RETRY_OVF port l.replay.length
    s.each l.renewed.replay (fun x s => s.each (x.outs port l.lastSeq) (fun o s => s.emit o))

/-- HLK_REPLAY_TIMEOUT (R356, R418). -/
def execHlkReplayTimeout (port : HostPort) (s : State) : Host.Outcome State Fault Refusal :=
  ok s (if s.dev.fld Fld.HLK_PSTAT_LINK port = 2 then s.dev.hostResend port else s.dev)

/-- HLK_NAK_HOLDOFF_EXPIRY (R355, R418): a further NAK may be sent. -/
def execHlkNakHoldoffExpiry (port : HostPort) (s : State) : Host.Outcome State Fault Refusal :=
  let h := s.dev.hostPort port
  ok s (s.dev.setHost port { h with link := { h.link with nakHeld := false } })

/-- Credits return on a host VC. -/
def Dev.hostCredit (s : Dev) (port vc n : Nat) : Dev :=
  let h := s.hostPort port
  s.setHost port { h with link := { h.link with credits := SMap.write hostCredits h.link.credits vc (h.credit vc + n) } }

/-- Releases the replay buffer up to an acknowledged SEQ (R356). The HEAD of an MWS is accepted before its tiles, which stay until they are
accepted too, or until a later packet of its VC is (R352, R422). -/
def Link.hostAcked (l : Link HPkt) (n : Nat) : Link HPkt :=
  match l.replay.findIdx? (fun x => x.seq == n) with
  | none => l
  | some i =>
    let gone := l.replay.take (i + 1)
    let streams := gone.zipIdx.filterMap (fun x =>
      if x.1.pkt.op = 3 ∧ x.1.acc < x.1.pkt.len ∧ (gone.drop (x.2 + 1)).all (fun y => y.pkt.vc ≠ 0) then some { x.1 with opened := true } else none)
    { l with replay := streams ++ l.replay.drop (i + 1), resends := 0 }

/-- STILES: the tiles of the open write stream accepted so far leave the replay buffer, and the stream with its last one (R422). -/
def Link.tilesAccepted (l : Link HPkt) (n : Nat) : Link HPkt :=
  match l.replay.find? (fun x => x.opened) with
  | none => l
  | some x =>
    let a := max x.acc (min n (x.acc + x.pkt.data.length / tileSize))
    let y := { x with acc := a, pkt := { x.pkt with data := x.pkt.data.drop ((a - x.acc) * tileSize) } }
    { l with replay := if a = x.pkt.len then l.replay.erase x else l.replay.set (l.replay.idxOf x) y, resends := if a = x.acc then l.resends else 0 }

/-- The acknowledgement that a control flit carries, unless the flit is discarded (R355). -/
def Dev.hostAck (s : Dev) (port : Nat) (fl : Flit) : Dev :=
  let w := flitNum fl 4 2
  if w.testBit 15 then
    let h := s.hostPort port
    s.setHost port { h with link := h.link.hostAcked (w % 4096) }
  else s

/-- A LINK flit: credits and the tiles accepted, then a resend on NAK. -/
def Dev.hostLinkIn (s : Dev) (port : Nat) (fl : Flit) : Dev :=
  let s := s.each (List.range 4) (fun v s => s.hostCredit port v (flitNum fl (8 + 2 * v) 2))
  let h := s.hostPort port
  let s := s.setHost port { h with link := h.link.tilesAccepted (flitNum fl 18 4) }
  let s := if (flitNum fl 16 1).testBit 0 then s.hostResend port else s
  s.hostPump port

/-! ### Claims (R434) -/

/-- A port's copy of a claim register. -/
def claimIdx (port j : Nat) : Nat := 16 * port + j

/-- OWNER_CLAIM: a claim of a port is submitted, unless one is being decided (R434, R441). -/
def Dev.claim (s : Dev) (port : Nat) : Dev :=
  if s.flag Fld.HLK_OWNSTAT_CLBUSY 0 then s
  else ({ s with sec := { s.sec with claim := some port } } : Dev).setFld Fld.HLK_OWNSTAT_CLBUSY 0 1

/-- RELEASE, ignored while a claim is being decided (R434, R441). -/
def Dev.release (s : Dev) (port : Nat) : Dev := if s.flag Fld.HLK_OWNSTAT_CLBUSY 0 then s else s.dropHold port

/-- Whether the claim in a port's registers verifies: every claim while no owner key is in the table; else its KEYID names one, its
last bytes are zero and its signature holds (R434). -/
def Dev.claimOk (s : Dev) (f : Flash) (port : Nat) : Bool :=
  let claim := (List.range 16).flatMap (fun j => leBytes 8 (s.reg .HLK_CLAIM (claimIdx port j)))
  let msg := leBytes 8 Config.serial.toNat ++ leBytes 8 (s.reg .HLK_OWNNONCE 0) ++ leBytes 1 port
  (f.keys 1).isEmpty
    || ((claim.drop 122).all (fun b => b == 0)
      && (f.keys 1).any (fun k => keyId k == leNat (claim.take 8) && Ed448.verify k "FENRAM-TX4-OWNR" msg ((claim.drop 8).take 114)))

/-- A claim is decided; either way the nonce changes. A port that is no longer UP or has become OFF gains nothing. -/
def Dev.decideClaim (s : Dev) (f : Flash) : Dev :=
  match s.sec.claim with
  | none => s
  | some port =>
    let s := ({ s with sec := { s.sec with claim := none } } : Dev).setFld Fld.HLK_OWNSTAT_CLBUSY 0 0
    let good := s.claimOk f port
    let r := s.nonce
    let s := r.2.setReg .HLK_OWNNONCE 0 r.1
    if !good then s.raise port Ev.HLK_CLAIM_BAD
    else if s.fld Fld.HLK_PSTAT_LINK port = 2 ∧ s.fld Fld.HLK_PSTAT_ROLE port ≠ 0 then
      s.setHold (s.fld Fld.HLK_OWNSTAT_HOLD 0 ||| 2 ^ port)
    else s

/-- OWNER_CLAIM (R434), in READY and RECOVERY (R560). -/
def execOwnerClaim (port : HostPort) (s : State) : Host.Outcome State Fault Refusal :=
  ok s (s.dev.hostGateIn [6, 7] port (fun d => d.claim port))

/-- OWNER_CLAIM_DECIDE (R434). -/
def execOwnerClaimDecide (s : State) : Host.Outcome State Fault Refusal := ok s (s.dev.decideClaim s.flash)

/-- OWNER_RELEASE (R434). -/
def execOwnerRelease (port : HostPort) (s : State) : Host.Outcome State Fault Refusal :=
  ok s (s.dev.hostGateIn [6, 7] port (fun d => d.release port))

/-! ### Copy queues -/

/-- HLK_DOORBELL (R428). -/
def execHlkDoorbell (port : HostPort) (queue : BitVec 4) (value : Word) (s : State) : Host.Outcome State Fault Refusal :=
  ok s (s.dev.partGate port (fun d => d.doorbell (d.partOf port) queue.toNat (bits value.toNat 15 0)))

/-- QUEUE_ENABLE (R440): a write of HLK_Qn_CFG with EN = 1. -/
def execQueueEnable (port : HostPort) (queue : BitVec 4) (value : Word) (s : State) : Host.Outcome State Fault Refusal :=
  ok s (s.dev.partGate port (fun d => d.queueCfg (d.partOf port) queue.toNat (putBits value.toNat 0 1 1)))

/-- QUEUE_DISABLE (R430): a write of HLK_Qn_CFG with EN = 0. -/
def execQueueDisable (port : HostPort) (queue : BitVec 4) (value : Word) (s : State) : Host.Outcome State Fault Refusal :=
  ok s (s.dev.partGate port (fun d => d.queueCfg (d.partOf port) queue.toNat (putBits value.toNat 0 1 0)))

/-- QUEUE_ENTRY_START (R429). -/
def execQueueEntryStart (part : DieId) (queue : BitVec 4) (s : State) : Host.Outcome State Fault Refusal :=
  ok s (s.dev.startEntry part queue.toNat)

/-- QUEUE_ENTRY_COMPLETE (R429, R430). -/
def execQueueEntryComplete (part : DieId) (queue : BitVec 4) (ue : List (BitVec 52)) (s : State) : Host.Outcome State Fault Refusal :=
  ok s (s.dev.withUe (ue.map (fun a => a.toNat)) (fun d => d.completeEntry part queue.toNat))

/-- HLK_READ_TIMEOUT (R435). -/
def execHlkReadTimeout (port : HostPort) (tag : BitVec 12) (s : State) : Host.Outcome State Fault Refusal :=
  ok s (s.dev.readTimeout port tag.toNat)

/-! ### Partitions (R34, R437, R441) -/

/-- The role that a HLK_PARTCMD value gives a port. -/
def cmdRole (v p : Nat) : Nat := bits v (2 * p + 5) (2 * p + 4)

/-- Whether a HLK_PARTCMD value names a layout and gives each of its partitions exactly one PRIMARY port (R417, R441). -/
def layoutOk (v : Nat) : Bool :=
  let parts := v % 16
  [1, 2, 3, 6].contains parts && (List.range 6).all (fun p => cmdRole v p != 3)
    && (List.range 6).all (fun d => ((List.range 6).filter (fun e => layoutPart parts e == layoutPart parts d && cmdRole v e == 1)).length == 1)

/-- Whether the TX4 may change the layout now. -/
def Dev.layoutFree (s : Dev) : Bool :=
  s.running && s.partitions.all (fun p => s.planState p == 0 && s.fld Fld.CTX_STAT_STATE p != 1 && s.fld Fld.CTX_DSTAT_STATE p != 1)
    && s.partitions.all (fun p => (List.range 16).all (fun n => !s.flag Fld.HLK_Q_CFG_EN (qIdx p n)))

/-- Whether the ports whose roles a value changes are free: in no drain, and fetching no enabled queue. -/
def Dev.rolesFree (s : Dev) (v : Nat) : Bool :=
  (List.range 6).all (fun q => cmdRole v q == s.fld Fld.HLK_PSTAT_ROLE q
    || (s.partitions.all (fun p => match (s.part p).drain with
          | some d => !d.ports.contains q
          | none => true)
        && (List.range 16).all (fun n => !(s.qPort (s.partOf q) n == q && s.flag Fld.HLK_Q_CFG_EN (qIdx (s.partOf q) n)))))

/-- The roles and partitions of the ports; an OFF port loses HOLD. -/
def Dev.setRoles (s : Dev) (v : Nat) : Dev :=
  let s := s.each (List.range 6) (fun p s =>
    ((s.setFld Fld.HLK_PSTAT_ROLE p (cmdRole v p)).setFld Fld.HLK_PSTAT_PART p (s.partOf p)).setFld ⟨.HLK_PARTCFG, 2 * p + 4, 2⟩ 0 (cmdRole v p))
  s.setHold (ofBits ((setBits 6 (s.fld Fld.HLK_OWNSTAT_HOLD 0)).filter (fun p => cmdRole v p != 0)))

/-- A new layout: the dies whose sets change are scrubbed, a fenced die apart (R523), and with them an uncertain state ends (R325); the
queues, masks and slices are reset. -/
def Dev.setLayout (s : Dev) (parts : Nat) : Dev :=
  let set (n d : Nat) : List Nat := (List.range 6).filter (fun e => layoutPart n e == layoutPart n d)
  let changed := (List.range 6).filter (fun d => set s.nparts d != set parts d)
  let s := s.each changed (fun d s => (if s.fenced d then s else s.zeroDie d).setFld Fld.STEP_STAT_UNCERT d 0)
  let s := s.each (List.range 6) (fun d s =>
    let s := (s.clearReg .HLK_IMASK d).clearReg .FAB_PARTSLICE d
    let s := s.each (List.range 16) (fun n s =>
      let i := qIdx d n
      ((((s.clearReg .HLK_Q_BASE i).clearReg .HLK_Q_CBASE i).clearReg .HLK_Q_CFG i).clearReg .HLK_Q_DB i).clearReg .HLK_Q_STAT i)
    (s.setPart d { s.part d with queues := [] }).setHost d { s.hostPort d with reads := [] })
  s.setFld Fld.HLK_PARTCFG_PARTS 0 parts

/-- A write of HLK_PARTCMD by the owner port. -/
def Dev.partCmd (s : Dev) (v : Nat) : Dev :=
  let parts := v % 16
  let change := parts != s.nparts
  if !layoutOk v || s.flag Fld.HLK_PARTCFG_BUSY 0 || (change && !s.layoutFree) || (!change && !s.rolesFree v) then s.raiseDev Ev.HLK_REFUSED
  else
    let s := s.setFld Fld.HLK_PARTCFG_BUSY 0 1
    let s := if change then s.setLayout parts else s
    s.setRoles v

/-- PARTITION_LAYOUT_CHANGE (R437). -/
def execPartitionLayoutChange (port : HostPort) (value : Word) (s : State) : Host.Outcome State Fault Refusal :=
  ok s (s.dev.ownerGate port (fun d => d.partCmd value.toNat))

/-- PARTITION_ROLE_CHANGE (R437). -/
def execPartitionRoleChange (port : HostPort) (value : Word) (s : State) : Host.Outcome State Fault Refusal :=
  ok s (s.dev.ownerGate port (fun d => d.partCmd value.toNat))

/-- PARTITION_COMMAND_COMPLETE (R437). -/
def execPartitionCommandComplete (s : State) : Host.Outcome State Fault Refusal := ok s (s.dev.setFld Fld.HLK_PARTCFG_BUSY 0 0)

end Sys2Proof.Machine
end

