-- ==== Sys2Proof/Machine/Controllers.lean ====
section
/-!
DEFINITION. The die controllers after the election: roles, heartbeats and takeover, resets and fences, the journal's acknowledgements,
and the bridges (R22 to R25, R492 to R502).
-/
namespace Sys2Proof.Machine

/-! ### Roles (R494, R496, R507) -/

/-- The roles of CTL_CSTAT. -/
def rlFollower : Nat := 0
def rlLead : Nat := 1
def rlNext : Nat := 2
def rlDown : Nat := 3

def Dev.role (s : Dev) (d : Nat) : Nat := s.fld Fld.CTL_CSTAT_ROLE d
def Dev.setRole (s : Dev) (d r : Nat) : Dev := s.setFld Fld.CTL_CSTAT_ROLE d r
def Dev.leadDie (s : Dev) : Nat := s.fld Fld.CTL_ELECT_LEAD 0
def Dev.term (s : Dev) : Nat := s.fld Fld.CTL_ELECT_TERM 0

/-- The die whose controller is next in line. -/
def Dev.nextDie (s : Dev) : Option Nat := if s.flag Fld.CTL_ELECT_NEXTV 0 then some (s.fld Fld.CTL_ELECT_NEXT 0) else none

/-- The open records are sent to a new NEXT, and wait for its acknowledgement; of the closed ones it has no copy to replay (R496). -/
def Dev.remirror (s : Dev) : Dev :=
  ({ s with ctl := { s.ctl with journal := s.ctl.journal.map (fun r =>
      if r.isOpen then { r with openAck := false } else { r with closedAck := true }) } } : Dev).mirror (s.ctl.journal.filter (fun r => r.isOpen))

/-- A die's controller becomes NEXT. -/
def Dev.makeNext (s : Dev) (d : Nat) : Dev :=
  let s := ((s.setRole d rlNext).setFld Fld.CTL_ELECT_NEXT 0 d).setFld Fld.CTL_ELECT_NEXTV 0 1
  (s.setFld Fld.CTL_JSTAT_SOLO 0 0).remirror

/-- The lead acts unmirrored: no record waits (R496). -/
def Dev.actSolo (s : Dev) : Dev :=
  let s := (s.setFld Fld.CTL_ELECT_NEXTV 0 0).setFld Fld.CTL_JSTAT_SOLO 0 1
  { s with ctl := { s.ctl with journal := s.ctl.journal.map (fun r => if r.isOpen then { r with openAck := true } else { r with closedAck := true }) } }

/-- The lead appoints the lowest FOLLOWER as NEXT, or acts unmirrored when there is none (R496). -/
def Dev.appointNext (s : Dev) : Dev :=
  match s.liveDies.find? (fun d => s.role d == rlFollower) with
  | some d => s.makeNext d
  | none => s.actSolo

/-- A controller is reset: it is DOWN until it joins again (R494, R501). -/
def Dev.resetController (s : Dev) (d : Nat) : Dev :=
  if s.fenced d ∨ s.role d = rlDown then s
  else
    let s := (s.setRole d rlDown).setFld Fld.CTL_CSTAT_MISSED d 0
    let s := if s.booting then s.setFld Fld.CTL_DBOOT_CRESET d 1 else s
    ({ s with ctl := { s.ctl with rejoin := s.ctl.rejoin ++ [d] } } : Dev).raiseDev Ev.CTL_RESET

/-! ### Fences (R37, R488, R502, R565) -/

/-- What a fenced die's ports do: they go DOWN (R357, R435, R502). -/
def Dev.fencePorts (s : Dev) (d : Nat) : Dev :=
  let s := (s.hostDown d).setFld Fld.HLK_PSTAT_LINK d 3
  s.each ((List.range 6).map (fun i => 6 * d + i)) (fun q s =>
    if s.fabAwake q then s.fabDown q else (s.dropLink q).setFld Fld.FAB_PORT_STAT_LINK q 3)

/-- Fills and rolling tests of a fenced die end without event: FILL and SWAP fall as one change of each cluster, and their records are
given up (R15, R488). -/
def Dev.fenceSparing (s : Dev) (d : Nat) : Dev :=
  s.each ((List.range 272).filter (fun k => (s.fillOf d k).isSome || (s.swapOf d k).isSome)) (fun k s =>
    let i := clIdx d k
    let s := match s.fillOf d k with
      | some f => (s.dropFill d k).closeRecord 2 (slotId d k f.slot) true
      | none => s
    let s := s.dropSwap d k
    if s.flag Fld.SPR_CLSTAT_FILL i || s.flag Fld.SPR_CLSTAT_SWAP i then
      ((s.setFld Fld.SPR_CLSTAT_FILL i 0).setFld Fld.SPR_CLSTAT_SWAP i 0).bumpGen d k
    else s)

/-- The identity is lost with die 0 (R565). -/
def Dev.identityLost (s : Dev) : Dev :=
  ((s.setFld Fld.SEC_STAT_IDOK 0 0).raiseDev Ev.SEC_ID_FAIL).logRecord 0 (LogRec.security 0x84 Ev.SEC_ID_FAIL 0)

/-- The partition that contains a fenced die stops: its step aborts at once, what it was loading, draining or restoring ends, and it
does not run again before its plan is unloaded (R37, R502). -/
def Dev.fencePartition (s : Dev) (p : Nat) : Dev :=
  let s := s.setPart p { s.part p with noRun := true }
  let s := if (s.part p).drain.isSome then s.abandonDrain p else s
  let s := if (s.part p).loading.isSome then s.undoLoad p Ev.PLAN_STATE [] else s
  let s := if s.fld Fld.CTX_STAT_STATE p = 1 then s.setFld Fld.CTX_STAT_STATE p 3 else s
  s.stopAtOnce p false

/-- The clocks of a die held in reset: no PLL, no low-power regulator mode (R502, R529, R543); a wake from SLEEP that waited for its switch alone is
over (R539). -/
def Dev.fenceClocks (s : Dev) (d : Nat) : Dev :=
  let waited := s.sby.switching.contains d
  let s := s.clearReg .PWR_DSTAT d
  let s := { s with sby := { s.sby with switching := s.sby.switching.erase d, stretched := s.sby.stretched.filter (fun c => c / 272 != d) } }
  if waited && s.sby.switching.isEmpty then s.startMaster else s

/-- No controller leads any more. -/
def Dev.noLead (s : Dev) : Dev := s.setFld Fld.CTL_ELECT_NONE 0 1

/-- Fences a die (R502), its record acknowledged. A lead that nothing can take over from ends with its die (R499; assumption 44). -/
def Dev.fence (s : Dev) (d : Nat) : Dev :=
  if s.fenced d then s
  else
    let s := (s.setFld Fld.CTL_DIECFG_FENCED d 1).setFld Fld.CTL_DBOOT_STAGE d stFailed
    let wasNext := decide (s.nextDie = some d)
    let wasLead := decide (s.leadDie = d)
    let s := (s.setRole d rlDown).setFld Fld.CTL_CSTAT_MISSED d 0
    let s := { s with
      cores := SMap.clear s.cores (8192 * d) (8192 * (d + 1))
      ctl := { s.ctl with rejoin := s.ctl.rejoin.erase d, verified := s.ctl.verified.erase d, announced := s.ctl.announced.erase d
                          fences := s.ctl.fences.erase d } }
    let s := s.fenceClocks d
    let s := if wasNext then s.appointNext else s
    let s := ((s.fenceSparing d).fencePorts d).fencePartition (s.partOf d)
    let s := (s.raiseDev Ev.DIE_LOSS).closeRecord 6 d false
    let s := if wasLead then s.noLead else s
    let s := if d = 0 then s.identityLost else s
    s.updateStage

/-- A die is to be fenced. -/
def Dev.wantFence (s : Dev) (d : Nat) : Dev :=
  if s.fenced d || s.ctl.fences.contains d then s else { s with ctl := { s.ctl with fences := s.ctl.fences ++ [d] } }

/-! ### What the lead carries out (R480, R492, R496) -/

/-- Carries out what an acknowledged open record says, where it may be now; fills and the switch into a test go on by their own
commands. -/
def Dev.carryRecord (r : Dev × Flash) (x : JRec) : Dev × Flash :=
  let s := r.1
  if !s.mayAct x.type x.target then r
  else match x.type with
    | 1 => (s.carryRetire r.2 x.target, r.2)
    | 3 => (s.carryRetire r.2 x.target, r.2)
    | 5 => match s.swapOf (slotDie x.target) (slotCluster x.target) with
      | some t => if t.phase = 5 ∧ s.planState (s.partOf t.die) ≠ 3 then (s.swapBack t, r.2) else r
      | none => r
    | 6 => (s.fence x.target, r.2)
    | 7 => (s.carryPolicy, r.2)
    | _ => r

/-! ### Takeover (R498, R499) -/

/-- The journal as NEXT's mirror holds it: the records it has acknowledged, in the form it acknowledged. -/
def mirrorOf (js : List JRec) : List JRec :=
  (js.filter (fun r => r.openAck || r.closedAck)).map (fun r => if r.isOpen || r.closedAck then r else { r with done := false, aborted := false })

/-- The instance of the remap registers of a record's cluster. -/
def JRec.cluster (r : JRec) : Nat := clIdx (slotDie r.target) (slotCluster r.target)

/-- Whether a later record of the same cluster is done, so that the registers have moved on from what this one wrote. -/
def Dev.superseded (s : Dev) (r : JRec) : Bool :=
  s.ctl.journal.any (fun x => decide (r.seq < x.seq) && x.done && decide (x.type ≤ 5) && x.cluster == r.cluster)

/-- What a replayed record of a remap change writes: LO, HI and ST, FILL apart, which its own record decides; a write that changes nothing leaves
GEN unchanged, another leaves it one higher than it was, as the action would (R15, R498). A record that a later one supersedes writes nothing
(DEDUCED, assumption 75). -/
def Dev.replayRegs (s : Dev) (r : JRec) : Dev :=
  if s.superseded r then s else
  let i := r.cluster
  let gen := s.fld Fld.SPR_CLSTAT_GEN i
  let t := ((s.setReg .SPR_REMAP_LO i r.lo).setReg .SPR_REMAP_HI i r.hi).setReg .SPR_CLSTAT i r.st
  let t := (t.setFld Fld.SPR_CLSTAT_GEN i gen).setFld Fld.SPR_CLSTAT_FILL i (s.fld Fld.SPR_CLSTAT_FILL i)
  if t.reg .SPR_REMAP_LO i = s.reg .SPR_REMAP_LO i ∧ t.reg .SPR_REMAP_HI i = s.reg .SPR_REMAP_HI i
      ∧ t.reg .SPR_CLSTAT i = s.reg .SPR_CLSTAT i then s else t.setFld Fld.SPR_CLSTAT_GEN i (gen + 1)

/-- Whether the fill of a record goes on. -/
def Dev.fillGoesOn (s : Dev) (r : JRec) : Bool :=
  (s.fillOf (slotDie r.target) (slotCluster r.target)).any (fun f => f.slot == slotNum r.target && f.step != 4)

/-- Whether a cluster's SLOT fields are those that a record says. -/
def Dev.shows (s : Dev) (r : JRec) : Bool := s.reg .SPR_REMAP_LO r.cluster == r.lo && s.reg .SPR_REMAP_HI r.cluster == r.hi

/-- An open record whose action was over before the lead failed is closed (R498): a retirement, a switch or a switch back that was carried out
writes its registers again; of a fill or a rolling test that has ended, a die fenced already and a policy in force nothing is left to do
(DEDUCED, assumption 75). -/
def Dev.replayDone (s : Dev) (r : JRec) : Dev :=
  let d := slotDie r.target
  let k := slotCluster r.target
  match r.type with
  | 2 => if s.fillGoesOn r then s else s.closeRecord 2 r.target (s.retired r.target || s.isShort d k || (s.fillOf d k).isSome)
  | 4 => match s.swapOf d k with
    | none => s.closeRecord 4 r.target !s.shows r
    | some t => if 3 ≤ t.phase then (s.replayRegs r).closeRecord 4 r.target false else s
  | 5 => if (s.swapOf d k).isNone then s.closeRecord 5 r.target !s.shows r else s
  | 6 => if s.fenced r.target then s.closeRecord 6 r.target false else s
  | 7 => if s.spr.policies.isEmpty then s.closeRecord 7 r.target false else s
  | _ => if s.retired r.target then (s.replayRegs r).closeRecord r.type r.target false else s

/-- The fills in progress start again at step 1, each with its record (R488, R498). -/
def Dev.restartFills (s : Dev) : Dev :=
  let s := { s with spr := { s.spr with fills := s.spr.fills.map (fun x : Fill => if x.step = 4 then x else { x with step := 1, bushel := none }) } }
  s.each (s.spr.fills.filter (fun f => f.step != 4)) (fun f s =>
    if s.isOpenFor 2 (slotId f.die f.cluster f.slot) then s else s.journal 2 (slotId f.die f.cluster f.slot) (s.filledMap f.die f.cluster))

/-- The new lead replays the open records of its mirror in SEQ order: one whose action is done is closed, the others are carried out where
R17 lets them, and fills restart (R498; assumption 75). -/
def Dev.replay (s : Dev) (f : Flash) : Dev × Flash :=
  let s := { s with ctl := { s.ctl with journal := mirrorOf s.ctl.journal } }
  let s := s.each (s.ctl.journal.filter (fun r => r.isOpen)) (fun r s => s.replayDone r)
  let r := (s.ctl.journal.filter (fun r => r.isOpen)).foldl Dev.carryRecord (s, f)
  (r.1.restartFills, r.2)

/-- NEXT takes over from a lead that has failed: it announces itself to every controller; without a NEXT, or with TERM at its largest, the
device has no lead (R498, R499). -/
def Dev.takeover (s : Dev) (f : Flash) : Dev × Flash :=
  let old := s.leadDie
  match s.nextDie with
  | none => ((s.resetController old).noLead, f)
  | some n =>
    if s.term = 65535 then ((s.resetController old).noLead, f)
    else
      let s := ((s.setFld Fld.CTL_ELECT_TERM 0 (s.term + 1)).setFld Fld.CTL_ELECT_LEAD 0 n).setFld Fld.CTL_ELECT_NEXTV 0 0
      let s := (s.setRole n rlLead).setFld Fld.CTL_CSTAT_MISSED n 0
      let s := (s.ctlSendAll n (.lead s.term)).raiseDev Ev.CTL_TAKEOVER
      let r := (s.resetController old).replay f
      (r.1.appointNext, r.2)

/-! ### Rounds of the lead (R480, R492, R496) -/

/-- Whether another controller can take over from the lead (R498, R499). -/
def Dev.successor (s : Dev) : Bool := s.nextDie.isSome && s.term != 65535

/-- Writes the record of a die that is to be fenced. Takeover precedes the fence of the lead's own die (R502); a lead that nothing can take over
from fences its own die itself, after all others (DESIGN CHOICE, assumption 44). -/
def Dev.recordFence (r : Dev × Flash) (d : Nat) : Dev × Flash :=
  let mine := r.1.hasLead && r.1.leadDie == d
  let q := if mine && r.1.successor then r.1.takeover r.2 else r
  let s := q.1
  (if s.hasLead && !s.isOpenFor 6 d && !(s.leadDie == d && s.ctl.fences.any (fun e => e != d)) then s.journal 6 d s else s, q.2)

/-- Writes the records that can be written: fences, retirements, the switches of rolling tests, a policy. -/
def Dev.writeRecords (r : Dev × Flash) : Dev × Flash :=
  let q := r.1.ctl.fences.foldl Dev.recordFence r
  ((q.1.each q.1.spr.due (fun pc s => s.recordRetire pc)).recordSwaps.recordPolicy, q.2)

/-- One round of the lead: what can be recorded is, and what is acknowledged is carried out in SEQ order. -/
def Dev.leadRound (r : Dev × Flash) : Dev × Flash :=
  let q := Dev.writeRecords r
  (q.1.ctl.journal.filter (fun x => x.isOpen)).foldl Dev.carryRecord (q.1.endFailedTests, q.2)

/-- How many actions wait for the lead. -/
def Dev.waiting (s : Dev) : Nat := s.ctl.fences.length + s.spr.due.length + s.spr.policies.length

/-- Rounds of the lead until nothing that waits is left or may go on. -/
def leadRounds : Nat → Dev × Flash → Dev × Flash
  | 0, r => r
  | n + 1, r => leadRounds n (Dev.leadRound r)

/-- What the lead does after any command that may let it act (R492, R496); a load that waited for fills is bound (R486), and a die in
CORES whose fills are tested goes on (R519). -/
def Dev.lead (r : Dev × Flash) : Dev × Flash :=
  let q := if r.1.hasLead then leadRounds (r.1.waiting + 1) r else r
  let s := q.1.each q.1.partitions (fun p s => s.loadBind p)
  (s.each (List.range 6) (fun d s => s.leaveCores d), q.2)

/-! ### Heartbeats (R497, R498, R500) -/

/-- Whether heartbeats fall on the controllers' own timer: the chain is UNLOCKED or ACQUIRING. -/
def Dev.onTimer (s : Dev) : Bool := decide (s.chnState < chnLocked)

/-- The lead's heartbeat to every controller, and their answers (R497). A change of timing source sets the misses to zero. The standby
controller notes it (R503). -/
def Dev.heartbeat (s : Dev) : Dev :=
  if !s.alive || !s.hasLead || (!s.onTimer && decide (s.chainCount % 4096 ≠ 0)) then s
  else
    let all := s.ctl.timerHeartbeats != s.onTimer
    let s := s.each (List.range 6) (fun d s => if all || !s.ctl.missed.contains d then s.setFld Fld.CTL_CSTAT_MISSED d 0 else s)
    let s := { s with
      ctl := { s.ctl with missed := [], timerHeartbeats := s.onTimer }
      sby := { s.sby with lastHeartbeat := some s.now, leadSeen := s.leadDie } }
    let s := s.ctlSendAll s.leadDie (.heartbeat s.term s.lastSeq)
    s.each (s.liveDies.filter (fun d => s.role d == rlFollower || s.role d == rlNext)) (fun d s => s.ctlSend d s.leadDie (.answer s.term))

/-- HEARTBEAT_SEND (R497). -/
def execHeartbeatSend (s : State) : Host.Outcome State Fault Refusal := ok s s.dev.heartbeat

/-- A heartbeat of the lead, or a controller's answer, is missed; the third in a row means failure (R497, R498, R500). -/
def Dev.heartbeatMiss (s : Dev) (f : Flash) (d : Nat) : Dev × Flash :=
  if !s.alive || !s.ctl.elected || s.fenced d || s.role d == rlDown then (s, f)
  else
    let n := min 3 (s.fld Fld.CTL_CSTAT_MISSED d + 1)
    let s := (s.setFld Fld.CTL_CSTAT_MISSED d n)
    let s := { s with ctl := { s.ctl with missed := s.ctl.missed ++ [d] } }
    if n < 3 then (s, f)
    else if s.role d = rlLead then (if s.nextDie.isSome then s.takeover f else (s, f))
    else if !s.hasLead then (s, f)
    else
      let wasNext := s.nextDie == some d
      let s := s.resetController d
      (if wasNext then s.appointNext else s, f)

/-- HEARTBEAT_MISS (R497, R498, R500). -/
def execHeartbeatMiss (die : DieId) (s : State) : Host.Outcome State Fault Refusal := 
  okFlash s (Dev.lead (s.dev.heartbeatMiss s.flash die))

/-! ### Rejoining and faults (R494, R501, R513, R558) -/

/-- What a die's REMAP starts from once more: fills that its stage left open are given up, for the registers are rebuilt (R517, R522). -/
def Dev.restartDie (s : Dev) (d : Nat) : Dev :=
  let s := s.each (s.spr.fills.filter (fun f => f.die == d)) (fun f s => (s.dropFill d f.cluster).closeRecord 2 (slotId d f.cluster f.slot) true)
  let s := { s with ctl := { s.ctl with tested := s.ctl.tested.filter (fun e => e != d) } }
  s.setDieStage d stRemap

/-- Whether an image's signature verifies under the firmware key that mask ROM holds (R556). -/
def FwRec.signed (r : FwRec) (f : Flash) : Bool :=
  r.signer == keyId f.romKey && Ed448.verify f.romKey "FENRAM-TX4-FIRM" (leBytes 64 r.digest) r.sig

/-- Whether a mask-ROM loader accepts an image (R557). -/
def FwRec.accepted (r : FwRec) (f : Flash) : Bool := r.ok && decide (f.floor ≤ r.svn) && r.signed f

/-- A controller that was reset comes up again, with the image in flash. One that does not verify, or speaks another protocol than the
lead's, does not join. In bring-up its die goes on from REMAP. -/
def Dev.rejoin (s : Dev) (f : Flash) (d : Nat) : Dev :=
  if !s.ctl.rejoin.contains d then s
  else
    let s := { s with ctl := { s.ctl with rejoin := s.ctl.rejoin.erase d } }
    let fits := match f.fw, s.sec.running with
      | some r, some run => r.accepted f && r.compat == run.compat
      | _, _ => false
    if !fits then s.wantFence d
    else
      let s := s.setRole d rlFollower
      let s := if s.hasLead && s.nextDie.isNone then s.makeNext d else s
      if s.booting && decide (s.dieStage d < stReady) then s.restartDie d else s

/-- CONTROLLER_REJOIN (R501). -/
def execControllerRejoin (die : DieId) (s : State) : Host.Outcome State Fault Refusal :=
  okFlash s (Dev.lead (s.dev.rejoin s.flash die, s.flash))

/-- CONTROLLER_REJOIN_TIMEOUT (R501). -/
def execControllerRejoinTimeout (die : DieId) (s : State) : Host.Outcome State Fault Refusal :=
  if s.dev.ctl.rejoin.contains die.val then
    okFlash s (Dev.lead (({ s.dev with ctl := { s.dev.ctl with rejoin := s.dev.ctl.rejoin.erase die.val } } : Dev).wantFence die, s.flash))
  else ok s s.dev

/-- DIE_HW_FAULT (R501). -/
def execDieHwFault (die : DieId) (s : State) : Host.Outcome State Fault Refusal :=
  if s.dev.alive then okFlash s (Dev.lead (s.dev.wantFence die, s.flash)) else ok s s.dev

/-! ### The journal (R496) -/

/-- A record with NEXT's acknowledgement, as open or as closed. -/
def JRec.mirrored (r : JRec) (closed : Bool) : JRec :=
  if closed then (if r.isOpen then r else { r with closedAck := true }) else { r with openAck := true }

/-- NEXT acknowledges a record, as open or as closed, on both paths; a second copy changes nothing (R493, R496). -/
def Dev.mirrorAck (s : Dev) (seq : Nat) (closed : Bool) : Dev :=
  let js := s.ctl.journal.map (fun r => if r.seq ≠ seq then r else r.mirrored closed)
  if js = s.ctl.journal then s
  else
    let s := match s.nextDie with
      | some n => s.ctlSend n s.leadDie (.ack seq closed)
      | none => s
    { s with ctl := { s.ctl with journal := js } }

/-- JOURNAL_MIRROR_ACK (R496): the lead carries out what it recorded where R17 allows. -/
def execJournalMirrorAck (seq : Word) (closed : Bool) (s : State) : Host.Outcome State Fault Refusal :=
  if s.dev.hasLead then okFlash s (Dev.lead (s.dev.mirrorAck seq.toNat closed, s.flash)) else ok s s.dev

/-- No acknowledgement after three sends: NEXT has failed, and another takes its place or the lead acts alone (R496). -/
def Dev.ackTimeout (s : Dev) : Dev :=
  if !s.hasLead || s.ctl.journal.all JRec.acked then s
  else
    let s := match s.nextDie with
      | some n => s.resetController n
      | none => s
    s.appointNext

/-- JOURNAL_ACK_TIMEOUT (R496). -/
def execJournalAckTimeout (s : State) : Host.Outcome State Fault Refusal := okFlash s (Dev.lead (s.dev.ackTimeout, s.flash))

/-! ### Bridges (R23, R24) -/

/-- A bridge is declared down. -/
def Dev.bridgeDown (s : Dev) (j : Nat) : Dev :=
  let s := (s.raiseDev Ev.BRIDGE_DOWN).setFld Fld.CTL_BRG_UP j 0
  let s := { s with ctl := { s.ctl with bridgesDown := s.ctl.bridgesDown ++ [j] } }
  let p := s.partOf (bridgeDies j).1
  if s.partOf (bridgeDies j).2 ≠ p then s
  else
    let s := s.unclean p Ev.BRIDGE_DOWN
    if s.planState p = 3 ∧ !(s.part p).stepping then s.toLoaded p else s

/-- A control flit crosses a bridge: each failure is retried, until the eighth attempt in a row. -/
def Dev.bridgeFlit (s : Dev) (j : Nat) (crcOk : Bool) : Dev :=
  if 7 ≤ j ∨ !s.flag Fld.CTL_BRG_UP j then s
  else if crcOk then { s with ctl := { s.ctl with bridgeFails := SMap.write 0 s.ctl.bridgeFails j 0 } }
  else
    let n := SMap.read 0 s.ctl.bridgeFails j + 1
    let s := { s with ctl := { s.ctl with bridgeFails := SMap.write 0 s.ctl.bridgeFails j n } }
    if 8 ≤ n then s.bridgeDown j else s.countLink Fld.CTL_BRG_RETRY Fld.CTL_BRG_RETRY_OVF j 1

/-- BRIDGE_CONTROL_FLIT (R23, R24). -/
def execBridgeControlFlit (bridge : BitVec 3) (crcOk : Bool) (s : State) : Host.Outcome State Fault Refusal :=
  ok s (s.dev.bridgeFlit bridge.toNat crcOk)

end Sys2Proof.Machine
end

