-- ==== Sys2Proof/Machine/FabricCmds.lean ====
section
/-!
DEFINITION. The meanings of the fabric commands.
-/
namespace Sys2Proof.Machine

/-- FAB_LINK_FLIT (R350, R356, R360). -/
def execFabLinkFlit (port : FabPort) (flit : Flit) (s : State) : Host.Outcome State Fault Refusal := ok s (s.dev.fabFlit port flit)

/-- FAB_HEAD_FLIT (R352 to R355). -/
def execFabHeadFlit (port : FabPort) (flit : Flit) (s : State) : Host.Outcome State Fault Refusal := ok s (s.dev.fabFlit port flit)

/-- FAB_DATA_FLIT (R351, R353, R364). -/
def execFabDataFlit (port : FabPort) (flit : Flit) (s : State) : Host.Outcome State Fault Refusal := ok s (s.dev.fabFlit port flit)

/-- PACKET_SEND (R359, R360). -/
def execPacketSend (port : FabPort) (s : State) : Host.Outcome State Fault Refusal := ok s (s.dev.packetSend port)

/-- FAB_STALL_DROP (R361). -/
def execFabStallDrop (port : FabPort) (vc : BitVec 2) (s : State) : Host.Outcome State Fault Refusal :=
  ok s (s.dev.stallDrop port vc.toNat)

/-- FAB_REPLAY_TIMEOUT (R356, R357). -/
def execFabReplayTimeout (port : FabPort) (s : State) : Host.Outcome State Fault Refusal :=
  ok s (if s.dev.fld Fld.FAB_PORT_STAT_LINK port = 2 then s.dev.fabResend port else s.dev)

/-- FAB_NAK_HOLDOFF_EXPIRY (R355): a further NAK may be sent. -/
def execFabNakHoldoffExpiry (port : FabPort) (s : State) : Host.Outcome State Fault Refusal :=
  let f := s.dev.fabPort port
  ok s (s.dev.setFab port { f with link := { f.link with nakHeld := false } })

/-- FAB_LANE_SIGNAL_LOSS (R357): an UP port goes DOWN; a training one falls back to DARK (R371). -/
def execFabLaneSignalLoss (port : FabPort) (s : State) : Host.Outcome State Fault Refusal :=
  let d := s.dev.setFab port { s.dev.fabPort port with signal := false }
  ok s (match d.fld Fld.FAB_PORT_STAT_LINK port with
    | 2 => d.fabDown port
    | 1 => (d.setFld Fld.FAB_PORT_STAT_LINK port 0).dropLink port
    | _ => d)

/-- Whether a die's fabric ports may train: its stage is MEMORY or later, it is not fenced and power is on (R521, R529). -/
def Dev.fabPowered (s : Dev) (port : Nat) : Bool :=
  decide (4 ≤ s.fld Fld.CTL_DBOOT_STAGE (port / 6)) && decide (s.fld Fld.CTL_DBOOT_STAGE (port / 6) ≤ 6) && !s.fenced (port / 6)
    && decide (s.fld Fld.PWR_STAT_STATE 0 ≤ 1) && !s.sby.trip && !s.sby.extest

/-- FAB_SIGNAL_APPEAR (R371). -/
def execFabSignalAppear (port : FabPort) (s : State) : Host.Outcome State Fault Refusal :=
  let d := s.dev.setFab port { s.dev.fabPort port with signal := true }
  ok s (if d.fabPowered port then d.startTraining port else d)

/-- FAB_TRAINING_RETRY (R371). -/
def execFabTrainingRetry (port : FabPort) (s : State) : Host.Outcome State Fault Refusal :=
  ok s (if s.dev.fabPowered port then s.dev.startTraining port else s.dev)

/-- FAB_LANE_LOCK_DONE (R371): stage 1 ends and DISC flits are exchanged. -/
def execFabLaneLockDone (port : FabPort) (s : State) : Host.Outcome State Fault Refusal :=
  let f := s.dev.fabPort port
  ok s (if f.stage = 1 then (s.dev.setFab port { f with stage := 2, gotDisc := false, gotSeen := false }).sendDisc port false else s.dev)

/-- FAB_TRAINING_TIMEOUT (R371): the port returns to DARK, without an event. -/
def execFabTrainingTimeout (port : FabPort) (s : State) : Host.Outcome State Fault Refusal :=
  ok s (if (s.dev.fabPort port).stage = 0 then s.dev else (s.dev.setFld Fld.FAB_PORT_STAT_LINK port 0).dropLink port)

/-- FAB_DISC_FLIT (R371, R372). -/
def execFabDiscFlit (port : FabPort) (flit : Flit) (s : State) : Host.Outcome State Fault Refusal := ok s (s.dev.fabFlit port flit)

/-- FAB_PROBE_FLIT (R371). -/
def execFabProbeFlit (port : FabPort) (flit : Flit) (s : State) : Host.Outcome State Fault Refusal := ok s (s.dev.fabFlit port flit)

/-- FAB_ECHO_FLIT (R371). -/
def execFabEchoFlit (port : FabPort) (flit : Flit) (s : State) : Host.Outcome State Fault Refusal := ok s (s.dev.fabFlit port flit)

/-- Carries out FAB_CMD COMPARE for a partition (R373, R376). -/
def Dev.fabCompare (s : Dev) (p : Nat) : Dev :=
  if s.planState p ≠ 2 ∨ s.flag Fld.FAB_STAT_BUSY p then s.fabRefuse p else s.comparison p (s.transitDegraded p)

/-- FAB_COMPARE (R376). -/
def execFabCompare (port : HostPort) (s : State) : Host.Outcome State Fault Refusal :=
  ok s (s.dev.partGate port (fun d => d.fabCompare (d.partOf port)))

/-- Carries out FAB_CMD RETRAIN for a partition: every DOWN port returns to DARK and trains (R371, R376). -/
def Dev.fabRetrain (s : Dev) (p : Nat) : Dev :=
  if s.planState p = 3 ∨ s.flag Fld.FAB_STAT_BUSY p then s.fabRefuse p
  else s.each ((s.portsOf p).filter (fun q => s.fld Fld.FAB_PORT_STAT_LINK q == 3)) (fun q s =>
    let s := (s.setFld Fld.FAB_PORT_STAT_LINK q 0).setFld Fld.CHN_DLY_VALID q 0
    if s.fabPowered q then s.startTraining q else s)

/-- FAB_RETRAIN (R376). -/
def execFabRetrain (port : HostPort) (s : State) : Host.Outcome State Fault Refusal :=
  ok s (s.dev.partGate port (fun d => d.fabRetrain (d.partOf port)))

/-- Starts and carries out a revision named by a write of FAB_PLAN_ACK (R377). -/
def Dev.fabRevise (s : Dev) (opKeys : List Nat) (p value : Nat) : Dev :=
  let a := bits value 51 0
  let signed := value.testBit 52
  if s.planState p ≠ 2 ∨ s.fld Fld.CTX_STAT_STATE p = 1 ∨ s.fld Fld.CTX_DSTAT_STATE p = 1 ∨ s.flag Fld.FAB_STAT_BUSY p then s.fabRefuse p
  else
    let fail (s : Dev) (code : Nat) : Dev := (s.setFld Fld.FAB_STAT_ERR p code).raise p code
    let n := leNat (Memory.bytes s.mem (a + 4) 4)
    let len := 640 + 8 * n
    let tiles := (len + tileSize - 1) / tileSize
    let sec := Memory.bytes s.mem a len
    let padded := Memory.bytes s.mem a (tiles * tileSize)
    if a % tileSize ≠ 0 ∨ 65536 < n ∨ !s.tilesInHbm p a (tiles + b2n signed) ∨ (padded.drop len).any (fun b => b ≠ 0) then fail s Ev.PLAN_FORMAT
    else
    let s := s.hbmErrors ((List.range (tiles + b2n signed)).map (fun i => a + i * tileSize))
    match parseFabric sec (s.diesOf p) with
      | none => fail s Ev.PLAN_FORMAT
      | some fab =>
        let sig := Memory.bytes s.mem (a + tiles * tileSize) tileSize
        if signed && !sigTileOk "FENRAM-TX4-FABR" (shake256 padded) sig opKeys then fail s Ev.PLAN_SIG_BAD
        else if !signed && s.flag Fld.PLAN_CTL_REQUIRE_SIGNED 0 then fail s Ev.PLAN_UNSIGNED
        else
          match (s.part p).plan with
          | none => s
          | some pl =>
            let was := s.transitDegraded p
            let s := s.unloadRoutes p pl.fabric
            let s := s.setPart p { s.part p with plan := some { pl with fabric := fab, fabricBytes := sec } }
            let s := s.loadRoutes p fab
            (s.setRevision p (some (shake256 padded))).comparison p was

/-- FAB_PLAN_ACK (R377). -/
def execFabPlanAck (port : HostPort) (value : Word) (ue : List (BitVec 52)) (s : State) : Host.Outcome State Fault Refusal :=
  ok s (s.dev.partGate port (fun d => d.withUe (ue.map (fun a => a.toNat)) (fun d => d.fabRevise (s.flash.keys 2) (d.partOf port) value.toNat)))

/-- A write of EN to a fabric port by a partition's own host port (R371, R381). -/
def Dev.fabEnable (s : Dev) (port : Nat) (en : Bool) : Dev :=
  let s := s.setFld Fld.FAB_PORT_CTL_EN port (b2n en)
  if en then (if s.fabPowered port then s.startTraining port else s)
  else if s.fld Fld.FAB_PORT_STAT_LINK port = 3 then s
  else s.fabDark port

/-- FAB_PORT_ENABLE (R381). -/
def execFabPortEnable (host : HostPort) (port : FabPort) (s : State) : Host.Outcome State Fault Refusal :=
  ok s (s.dev.dieGate host (port / 6) (fun d => d.fabEnable port true))

/-- FAB_PORT_DISABLE (R381). -/
def execFabPortDisable (host : HostPort) (port : FabPort) (s : State) : Host.Outcome State Fault Refusal :=
  ok s (s.dev.dieGate host (port / 6) (fun d => d.fabEnable port false))

/-- Sets a partition's slice, refused while it runs (R367, R385). -/
def Dev.setSlice (s : Dev) (p slice : Nat) : Dev :=
  if s.partOf p ≠ p then s
  else if s.planState p = 3 then s.fabRefuse p
  else s.setFld Fld.FAB_PARTSLICE_SLICE p slice

/-- FAB_PARTSLICE_WRITE (R367). -/
def execFabPartsliceWrite (port : HostPort) (part : DieId) (slice : Byte) (s : State) : Host.Outcome State Fault Refusal :=
  ok s (s.dev.ownerGate port (fun d => d.setSlice part slice.toNat))

/-- A message as it is delivered on a partition's lowest die. -/
def messageDelivery (part src : Nat) (body : BitVec 320) : Delivery :=
  ⟨part, part, { route := 0, slice := 0, vc := 2, src := src, dst := 0, area := leBytes 40 body.toNat, tile := none }⟩

/-- RETRACT_MESSAGE (R394, R401). -/
def execRetractMessage (part : DieId) (body : BitVec 320) (src : BitVec 12) (s : State) : Host.Outcome State Fault Refusal :=
  ok s (if s.dev.partOf part = part.val then s.dev.message (messageDelivery part src.toNat body) else s.dev)

/-- DEGRADE_MESSAGE (R409). -/
def execDegradeMessage (part : DieId) (body : BitVec 320) (src : BitVec 12) (s : State) : Host.Outcome State Fault Refusal :=
  ok s (if s.dev.partOf part = part.val then s.dev.message (messageDelivery part src.toNat body) else s.dev)

/-- A scope tile as it is delivered on a partition's lowest die. -/
def Dev.scopeArrive (s : Dev) (part src : Nat) (sender : BitVec 256) (scruple : Word) (tile : List Byte) : Dev :=
  if s.partOf part = part then
    s.scopeTile ⟨part, part, { route := 0, slice := 0, vc := 3, src := src, dst := 0
                               area := leBytes 8 scruple.toNat ++ leBytes 32 sender.toNat, tile := some tile }⟩ tile
  else s

/-- SCOPE_VOTE (R404). -/
def execScopeVote (part : DieId) (src : BitVec 12) (sender : BitVec 256) (scruple : Word) (tile : List Byte) (s : State) :
    Host.Outcome State Fault Refusal := ok s (s.dev.scopeArrive part src.toNat sender scruple tile)

/-- SCOPE_DECISION (R405). -/
def execScopeDecision (part : DieId) (src : BitVec 12) (sender : BitVec 256) (scruple : Word) (tile : List Byte) (s : State) :
    Host.Outcome State Fault Refusal := ok s (s.dev.scopeArrive part src.toNat sender scruple tile)

/-- SCOPE_DONE (R406). -/
def execScopeDone (part : DieId) (src : BitVec 12) (sender : BitVec 256) (scruple : Word) (tile : List Byte) (s : State) :
    Host.Outcome State Fault Refusal := ok s (s.dev.scopeArrive part src.toNat sender scruple tile)

/-- SCOPE_ALLDONE (R406). -/
def execScopeAlldone (part : DieId) (src : BitVec 12) (sender : BitVec 256) (scruple : Word) (tile : List Byte) (s : State) :
    Host.Outcome State Fault Refusal := ok s (s.dev.scopeArrive part src.toNat sender scruple tile)

end Sys2Proof.Machine
end

