-- ==== Sys2Proof/Machine/Descriptor.lean ====
section
/-!
DEFINITION. Tensor descriptors and views (R54 to R57, R246, R248, R288 to R290): what is illegal, the bytes a view touches, reading and
writing it, and the uses of its tiles (R446).
-/
namespace Sys2Proof.Machine

/-- A tensor descriptor (R288); `bad` says that a zero field is not zero. -/
structure Desc where
  ebase : Nat
  fmt : Nat
  bs16 : Bool
  sbase : Nat
  rows : Nat
  cols : Nat
  r0 : Nat
  c0 : Nat
  vrows : Nat
  vcols : Nat
  bad : Bool
  deriving DecidableEq, Repr

/-- The fields of 64 bytes (R288). -/
def Desc.parse (bs : List Byte) : Desc :=
  let n := leNat bs
  let u (b : Nat) : Nat := bits n (8 * b + 31) (8 * b)
  { ebase := bits n 51 0, fmt := bits n 55 52, bs16 := n.testBit 56, sbase := bits n 115 64, rows := u 16, cols := u 20, r0 := u 24
    c0 := u 28, vrows := u 32, vcols := u 36
    bad := decide (bits n 63 57 ≠ 0) || decide (bits n 127 116 ≠ 0) || decide (n / 2 ^ 320 ≠ 0) }

/-- Elements of one block. -/
def Desc.block (d : Desc) : Nat := blockElems d.bs16

/-- Whether a descriptor is illegal (R288, R290); the rules of a format apply once the code names one. -/
def Desc.illegal (d : Desc) : Bool :=
  d.bad || decide (d.rows = 0) || decide (d.cols = 0) || decide (d.vrows = 0) || decide (d.vcols = 0)
    || decide (d.rows < d.r0 + d.vrows) || decide (d.cols < d.c0 + d.vcols)
    || (match Fmt.ofCode d.fmt with
      | some f => if f.narrow then decide (d.c0 % d.block ≠ 0) else d.bs16 || decide (d.sbase ≠ 0)
      | none => false)

/-- Whether two views have one shape. -/
def Desc.sameShape (a b : Desc) : Bool := decide (a.vrows = b.vrows) && decide (a.vcols = b.vcols)

/-- Blocks of one row of the whole tensor (R289). -/
def Desc.rowBlocks (d : Desc) : Nat := (d.cols + d.block - 1) / d.block

/-- The blocks of a row that the view touches. -/
def Desc.viewBlocks (d : Desc) : List Nat :=
  let lo := d.c0 / d.block
  (List.range ((d.c0 + d.vcols - 1) / d.block + 1 - lo)).map (· + lo)

/-- Bytes of one packed block. -/
def Desc.blockBytes (d : Desc) (f : Fmt) : Nat := f.packedBytes d.block

/-- Address of block `b` of the tensor (R56). -/
def Desc.blockAddr (d : Desc) (f : Fmt) (b : Nat) : Nat :=
  let per := f.blocksPerTile d.bs16
  d.ebase + tileSize * (b / per) + b % per * d.blockBytes f

/-- Address of element (r, c) of a wide tensor (R289). -/
def Desc.elemAddr (d : Desc) (f : Fmt) (r c : Nat) : Nat := d.ebase + (r * d.cols + c) * (f.bits / 8)

/-- The byte ranges (address, length) a view's row touches: its blocks and their scales, or its elements. -/
def Desc.rowSpans (d : Desc) (f : Fmt) (r : Nat) : List (Nat × Nat) :=
  if f.narrow then
    d.viewBlocks.flatMap (fun j => let b := r * d.rowBlocks + j; [(d.blockAddr f b, d.blockBytes f), (d.sbase + b, 1)])
  else [(d.elemAddr f r d.c0, d.vcols * (f.bits / 8))]

/-- The rows of the view. -/
def Desc.viewRows (d : Desc) : List Nat := (List.range d.vrows).map (· + d.r0)

/-- A range cut at tile boundaries. -/
def tilePieces : Nat → Nat → Nat → List (Nat × Nat)
  | 0, _, _ => []
  | fuel + 1, a, n =>
    if n = 0 then []
    else
      let k := min n (tileSize - a % tileSize)
      (a, k) :: tilePieces fuel (a + k) (n - k)

/-- The pieces of a view, each within one tile. -/
def Desc.pieces (d : Desc) (f : Fmt) : List (Nat × Nat) :=
  (d.viewRows.flatMap (d.rowSpans f)).flatMap (fun x => tilePieces (x.2 / tileSize + 2) x.1 x.2)

/-- Whether a conversion of a core may touch an address: payload or edge buffers in its partition's window (R36, R137, R290). -/
def Dev.edgeReach (s : Dev) (c a : Nat) : Bool :=
  let a := s.ownAddr c a
  s.inMemWindow (s.corePart c) a && (match memPlace a with
    | .hbmPayload _ _ => true
    | .corePayload _ _ => true
    | .staging _ => true
    | .gill _ => true
    | _ => false)

/-- The address fault of a descriptor: a misaligned EBASE, or the first byte out of reach (R288, R290). -/
def Dev.descFault (s : Dev) (c : Nat) (d : Desc) (f : Fmt) : Option Nat :=
  if d.ebase % (if f.narrow then tileSize else f.bits / 8) ≠ 0 then some d.ebase
  else ((d.pieces f).find? (fun x => !s.edgeReach c x.1)).map (fun x => x.1)

/-- The descriptor at an offset of the core's payload; none for an offset that faults (R246, R248). -/
def Dev.descAt (s : Dev) (c off : Nat) : Option Desc :=
  if off % 64 ≠ 0 ∨ payloadEnd < off + 64 then none else some (Desc.parse (Memory.bytes s.mem (strideAddr c off) 64))

/-- Bytes at a device address as a core takes it. -/
def Dev.readAt (s : Dev) (c a n : Nat) : Nat := Memory.num s.mem (s.ownAddr c a) n

/-- The elements of a view with their scale codes, row by row (R54, R56, R289). -/
def Dev.readView (s : Dev) (c : Nat) (d : Desc) (f : Fmt) : List (List (Nat × Nat)) :=
  d.viewRows.map (fun r =>
    if f.narrow then
      let row := d.viewBlocks.flatMap (fun j =>
        let b := r * d.rowBlocks + j
        let sc := s.readAt c (d.sbase + b) 1
        (unpackElems f.bits d.block (s.readAt c (d.blockAddr f b) (d.blockBytes f))).map (fun e => (e, sc)))
      row.take d.vcols
    else (unpackElems f.bits d.vcols (s.readAt c (d.elemAddr f r d.c0) (d.vcols * (f.bits / 8)))).map (fun e => (e, 127)))

/-- A use of each source tile of a view (R446). -/
def Dev.useView (s : Dev) (c fpc : Nat) (d : Desc) (f : Fmt) : Dev :=
  let tiles := ((d.pieces f).map (fun x => s.ownAddr c x.1 / tileSize * tileSize)).eraseDups
  s.each (tiles.filter (fun a => (scrupleAddr a).isSome)) (fun a s => s.useTile (s.corePart c) (coreDie c) (some c) fpc a)

/-- Writes bytes of a conversion at a device address: a write to a gill region is discarded, and so is a write of the odd core of a
pair outside its stride (R137, R455). -/
def Dev.putAt (s : Dev) (c a : Nat) (bs : List Byte) : Dev :=
  (tilePieces (bs.length / tileSize + 2) a bs.length).foldl (fun (acc : Dev × List Byte) x =>
    let s := acc.1
    let here := acc.2.take x.2
    let dest := s.ownAddr c x.1
    let t := if s.writeLost c x.1 then s else (match memPlace dest with
      | .gill _ => s
      | _ => s.write dest here)
    (t, acc.2.drop x.2)) (s, bs) |>.1

/-- Writes the padding at the end of the element tile that holds block `b` as zero (R55). -/
def Dev.putPadding (s : Dev) (c : Nat) (d : Desc) (f : Fmt) (b : Nat) : Dev :=
  let per := f.blocksPerTile d.bs16
  let used := per * d.blockBytes f
  s.putAt c (d.ebase + tileSize * (b / per) + used) (List.replicate (tileSize - used) 0)

/-- Writes one block, its tile's padding and its scale (R55, R56). -/
def Dev.putBlock (s : Dev) (c : Nat) (d : Desc) (f : Fmt) (r j : Nat) (codes : List Nat) (scale : Nat) : Dev :=
  let b := r * d.rowBlocks + j
  let s := s.putAt c (d.blockAddr f b) (leBytes (d.blockBytes f) (packElems f.bits codes))
  (s.putPadding c d f b).putAt c (d.sbase + b) (leBytes 1 scale)

/-- Writes the rows of a wide view. -/
def Dev.putWide (s : Dev) (c : Nat) (d : Desc) (f : Fmt) (rows : List (List Nat)) : Dev :=
  s.each rows.zipIdx (fun x s => s.putAt c (d.elemAddr f (d.r0 + x.2) d.c0) (x.1.flatMap (leBytes (f.bits / 8))))

end Sys2Proof.Machine
end

