-- ==== Sys2Proof/Machine/Narrow.lean ====
section
/-!
DEFINITION. The narrowing pipeline on plain values (R62 to R66, R143 to R150, R154, R158): rotation, outliers, scale and rounding of
one block.
-/
namespace Sys2Proof.Machine

/-! ### The rotation (R143 to R145) -/

/-- The size a ROT or IROT field selects; 0 for none (R161). -/
def rotSize (n : Nat) : Nat :=
  match n with
  | 1 => 32
  | 2 => 64
  | 3 => 128
  | _ => 0

/-- c_n (R143). -/
def rotConst (n : Nat) : Nat :=
  match n with
  | 32 => 0x3E3504F3
  | 64 => 0x3E000000
  | _ => 0x3DB504F3

/-- One level of butterflies at distance `h`. -/
def butterflies (h : Nat) (xs : List Nat) : List Nat :=
  (chunks (2 * h) xs.length xs).flatMap (fun g =>
    let ab := (g.take h).zip (g.drop h)
    ab.map (fun t => addF32 t.1 t.2) ++ ab.map (fun t => subF32 t.1 t.2))

/-- Negation of an FP32 code; a NaN stays canonical (R51). -/
def flip32 (a : Nat) : Nat := if isNaN32 a then a else negF32 a

/-- The diagonal over the group that begins at reduction index `r` (R144). -/
def diagonal (layer seed r : Nat) (xs : List Nat) : List Nat :=
  xs.zipIdx.map (fun t => if rotationSign layer seed (r + t.2) then flip32 t.1 else t.1)

/-- The rotation of one group of `n` elements, or its inverse (R143, R145). -/
def rotateGroup (inverse : Bool) (n layer seed r : Nat) (xs : List Nat) : List Nat :=
  let had (xs : List Nat) : List Nat :=
    (([1, 2, 4, 8, 16, 32, 64].filter (· < n)).foldl (fun xs h => butterflies h xs) xs).map (fun x => mulF32 x (rotConst n))
  if inverse then diagonal layer seed r (had xs) else had (diagonal layer seed r xs)

/-- The rotation of a row whose first reduction index is `c0`; size 0 leaves it. -/
def rotateRow (inverse : Bool) (n layer seed c0 : Nat) (row : List Nat) : List Nat :=
  if n = 0 then row
  else (chunks n row.length row).zipIdx.flatMap (fun t => rotateGroup inverse n layer seed (c0 + n * t.2) t.1)

/-! ### Outliers (R148) -/

/-- Whether an element is an outlier: |x| above τ × L × 2^σ, compared exactly, with τ = thresh / 4. -/
def isOutlier (dst : Fmt) (thresh : Nat) (sigma : Int) (mag : Nat) : Bool :=
  match shapeFP32.decode mag, dst.shape.finMag false dst.shape.maxMag with
  | .fin _ m e, .fin _ ml el => decide (0 < scaledDiff m e (thresh * ml) (el + sigma - 2))
  | _, _ => false

/-- σ of R147 for a non-zero finite FP32 magnitude. -/
def sigmaOf (dst : Fmt) (headroom : Bool) (mag : Nat) : Int :=
  match shapeFP32.decode mag with
  | .fin _ m e => scaleSigma dst headroom m e
  | _ => 0

/-- Peels outliers from the (position, magnitude) pairs `rest` of a block, at most `n` (R148). -/
def peel (dst : Fmt) (headroom : Bool) (thresh : Nat) : Nat → List (Nat × Nat) → List Nat
  | 0, _ => []
  | n + 1, rest =>
    let top := rest.foldl (fun m t => max m t.2) 0
    match rest.find? (fun t => t.2 == top) with
    | none => []
    | some a =>
      let others := rest.filter (fun t => t.1 ≠ a.1)
      if others.isEmpty then []
      else
        let m := others.foldl (fun m t => max m t.2) 0
        if isOutlier dst thresh (sigmaOf dst headroom m) a.2 then a.1 :: peel dst headroom thresh n others else []

/-! ### One block (R65, R142) -/

/-- The settings of a narrowing conversion (R141). -/
structure NarrowCtl where
  dst : Fmt
  src : Fmt
  headroom : Bool
  sr : Bool
  k : Nat
  thresh : Nat
  perblk : Nat

/-- A narrowed block: its scale and codes, whether it saturated and whether it is a NaN block, the elements that narrowed to ±0 and
the finite non-zero ones, and the outliers extracted and clipped, in detection order. -/
structure BlockOutN where
  scale : Nat := 0
  codes : List Nat := []
  sat : Bool := false
  nan : Bool := false
  zero : Nat := 0
  nz : Nat := 0
  ext : List Nat := []
  clip : Nat := 0

/-- Whether an FP32 code is finite and not zero. -/
def solid32 (x : Nat) : Bool := isFin32 x && !isZero32 x

/-- The rounding of an element with its random bits. -/
def NarrowCtl.rm (t : NarrowCtl) (nib : Nat) : Rm := if t.sr then .stoch t.k (nib % 2 ^ t.k) else .rne

/-- The codes of a block under a scale exponent: extracted positions give 0, infinities their code. -/
def narrowCodes (t : NarrowCtl) (sigma : Int) (ext : List Nat) (xs us : List Nat) : List (Nat × Bool) :=
  (xs.zip us).zipIdx.map (fun x => if ext.contains x.2 then (0, false) else narrowElem t.dst (t.rm x.1.2) sigma (shapeFP32.decode x.1.1))

/-- Narrows one block: FP32 codes `xs` (positions outside the view +0), whether each lies in the view, the random bits of each, and
the gill entries still free (R65, R142, R147 to R149). -/
def narrowBlock (t : NarrowCtl) (free : Nat) (xs us : List Nat) : BlockOutN :=
  let top := 2 ^ (t.dst.bits - 1)
  let mags := xs.zipIdx.map (fun x => (x.2, x.1 % 0x80000000))
  let fin := (xs.zip mags).filterMap (fun x => if solid32 x.1 then some x.2 else none)
  let nz := fin.length
  if xs.any isNaN32 then { scale := 0xFF, codes := xs.map (fun _ => 0), nan := true }
  else if xs.all isZero32 then { codes := xs.map (fun x => if x.testBit 31 then top else 0) }
  else
    let big := fin.foldl (fun m x => max m x.2) 0
    let finish (scaleOf : Nat) (ext : List Nat) (clip : Nat) : BlockOutN :=
      let sg := if scaleOf = 0 then -127 else sigmaOf t.dst t.headroom scaleOf
      let cs := narrowCodes t sg ext xs us
      let zs := ((xs.zip cs).zipIdx.filter (fun x => solid32 x.1.1 && decide (x.1.2.1 % top = 0) && !ext.contains x.2)).length
      { scale := (sg + 127).toNat, codes := cs.map (fun c => c.1), sat := cs.any (fun c => c.2), zero := zs, nz := nz, ext := ext, clip := clip }
    if xs.any isInf32 then
      let srcMax := (shapeFP32.encode .rne (t.src.decode t.src.shape.maxMag)).code
      finish (if t.dst = .e5m2 then big else max big srcMax) [] 0
    else
      let out := if t.thresh = 0 then [] else peel t.dst t.headroom t.thresh t.perblk fin
      let rest := (fin.filter (fun x => !out.contains x.1)).foldl (fun m x => max m x.2) 0
      let ext := out.take free
      finish rest ext (out.length - ext.length)

/-- The FP16 value of a gill entry, and whether it was clamped (R150). -/
def gillValue (sigma : Int) (x : Nat) : Nat × Bool :=
  let r := shapeFP16.encode .rne ((shapeFP32.decode x).scale (-sigma))
  if r.overflow then (shapeFP16.withSign (x.testBit 31) 0x7BFF, true) else (r.code, false)

end Sys2Proof.Machine
end

