-- ==== Sys2Proof/Machine/Edge.lean ====
section
/-!
DEFINITION. Conversions (R60, R61, R139 to R142, R146, R149 to R151, R154 to R158, R209, R248): checks, draws, the blocks a narrowing
writes with its gill entries and reports, and NARROW and WIDEN as a whole.
-/
namespace Sys2Proof.Machine

/-- The converter's settings as a conversion starts (R141). -/
def Dev.narrowCtl (s : Dev) (c : Nat) (src dst : Fmt) : NarrowCtl :=
  { dst := dst, src := src, headroom := s.flag Fld.EDGE_CTL_SCALE c, sr := s.flag Fld.EDGE_CTL_SR c, k := s.fld Fld.EDGE_CTL_SR_BITS c
    thresh := s.fld Fld.GILL_CTL_THRESH c, perblk := s.fld Fld.GILL_CTL_PERBLK c }

/-- The four 4-bit fields of a draw (R155). -/
def nibbles (d : Nat) : List Nat := [d % 16, d / 16 % 16, d / 256 % 16, d / 4096 % 16]

/-- The random bits of a conversion of `n` elements from global index `e0`, one 4-bit field for each element (R155, R209). -/
def Dev.edgeDraws (s : Dev) (c n e0 : Nat) : List Nat × Dev :=
  let q := (n + 3) / 4
  let s := s.perfCore .EDGE_PC_DRAWS c q
  if s.flag Fld.RNG_CTL_MODE c then
    let key := s.drawKey c (s.fld Fld.RNG_CTL_TAG c)
    ((List.range n).map (fun k => let e := e0 + k; keyedEdgeWord key (s.drawStream c) (s.drawStep c) e / 16 ^ (e % 4) % 16),
      s.perfCore .RNG_PC_KEYED c (if n = 0 then 0 else (e0 + n - 1) / 32 - e0 / 32 + 1))
  else
    let r := (List.range q).foldl (fun (acc : List Nat × Dev) i =>
      let d := acc.2.takeDraws c (i % 32) 1
      (acc.1 ++ nibbles (d.1.getD 0 0), d.2)) ([], s)
    (r.1.take n, r.2)

/-- Whether a keyed conversion's E0 is not a multiple of 4 (R209). -/
def Dev.indexFault (s : Dev) (c e0 : Nat) : Bool := s.flag Fld.EDGE_CTL_SR c && s.flag Fld.RNG_CTL_MODE c && decide (e0 % 4 ≠ 0)

/-! ### Gill entries (R137, R149, R150) -/

/-- Writes the extracted outliers of a block as gill entries: their positions, values and offsets in the view, whose rows are `cols`
long. -/
def Dev.putGill (s : Dev) (c cols : Nat) (sigma : Int) (es : List (Nat × Nat)) : Dev :=
  s.each es (fun e s =>
    let n := s.fld Fld.GILL_STAT_FILL c
    let v := gillValue sigma e.1
    let m := Memory.put (Memory.put s.mem (strideAddr c (0x11A000 + 2 * n)) (leBytes 2 v.1)) (strideAddr c (0x11C000 + 4 * n)) (leBytes 4 e.2)
    let s := (s.setMem m).setFld Fld.GILL_STAT_FILL c (n + 1)
    let x := s.core c
    let s := s.setCore c { x with gillCols := SMap.write 0 x.gillCols n cols }
    if v.2 then s.raise (coreDie c) Ev.GILL_CLAMP else s)

/-! ### Narrowing (R142) -/

/-- The tallies of a conversion (R158). -/
structure Tally where
  blk : Nat := 0
  sat : Nat := 0
  zero : Nat := 0
  nz : Nat := 0
  ext : Nat := 0
  clip : Nat := 0
  nan : Nat := 0

/-- Writes block `j` of row `i` of a view: `row` the row's FP32 values, `us` its random bits (R142 steps 3 to 7, R289). -/
def Dev.emitBlock (s : Dev) (c : Nat) (d : Desc) (t : NarrowCtl) (i j : Nat) (row us : List Nat) (n : Tally) : Dev × Tally :=
  let at_ := j * d.block - d.c0
  let pad (xs : List Nat) : List Nat := let ys := (xs.drop at_).take d.block; ys ++ List.replicate (d.block - ys.length) 0
  let xs := pad row
  let b := narrowBlock t (4096 - s.fld Fld.GILL_STAT_FILL c) xs (pad us)
  let s := s.putBlock c d t.dst (d.r0 + i) j b.codes b.scale
  let s := s.putGill c d.vcols ((b.scale : Int) - 127) (b.ext.map (fun p => (xs.getD p 0, i * d.vcols + at_ + p)))
  (s, ⟨n.blk + 1, n.sat + b2n b.sat, n.zero + b.zero, n.nz + b.nz, n.ext + b.ext.length, n.clip + b.clip, n.nan + b2n b.nan⟩)

/-- The events, counters and monitor reports of a narrowing (R63, R65, R149, R158, R168 to R172). -/
def Dev.report (s : Dev) (c : Nat) (n : Tally) : Dev :=
  let die := coreDie c
  let p := s.corePart c
  let s := (s.raiseN die Ev.FMT_SATURATE n.sat).raiseN die Ev.FMT_NAN_BLOCK n.nan
  let s := if n.clip = 0 then s else
    let v := s.fld Fld.GILL_OVF_COUNT c + n.clip
    let s := if v ≤ 0xFFFFFFFF then s.setFld Fld.GILL_OVF_COUNT c v else (s.setFld Fld.GILL_OVF_COUNT c 0xFFFFFFFF).setFld Fld.GILL_OVF_OVF c 1
    s.raise die Ev.GILL_OVERFLOW
  let s := ((s.perfCore .EDGE_PC_BLOCKS c n.blk).perfCore .EDGE_PC_SAT c n.sat).perfCore .EDGE_PC_UNDER c n.zero
  let s := s.perfCore .EDGE_PC_EXTRACT c n.ext
  let m := s.fld Fld.EDGE_LAYER_LAYER c % 1024
  if !s.monitored p m then s
  else
    s.each [(RegKind.FMT_MON_BLK, n.blk), (.FMT_MON_SAT, n.sat), (.FMT_MON_ZERO, n.zero), (.FMT_MON_NZ, n.nz), (.FMT_MON_EXTRACT, n.ext), (.FMT_MON_CLIP, n.clip)]
      (fun t s => if t.2 = 0 then s else s.perf t.1 (monIdx p m) p t.2)

/-- Narrows FP32 rows shaped as the destination view, with its draws; the gill segment of R151 and R247. -/
def Dev.emitNarrow (s : Dev) (c : Nat) (d : Desc) (t : NarrowCtl) (rows : List (List Nat)) (e0 : Nat) : Dev × Nat :=
  let first := s.fld Fld.GILL_STAT_FILL c
  let ds := if t.sr then s.edgeDraws c (d.vrows * d.vcols) e0 else ([], s)
  let r := rows.zipIdx.foldl (fun (acc : Dev × Tally) x =>
    let us := (ds.1.drop (x.2 * d.vcols)).take d.vcols
    d.viewBlocks.foldl (fun (acc : Dev × Tally) j => acc.1.emitBlock c d t x.2 j x.1 us acc.2) acc) (ds.2, {})
  (r.1.report c r.2, first + 2 ^ 16 * r.2.ext)

/-! ### NARROW and WIDEN (R248) -/

/-- A copy: codes unchanged, NaN codes too, and scales with their blocks (R60; DESIGN CHOICE against R51, assumption 83). -/
def Dev.copyView (s : Dev) (c : Nat) (d : Desc) (f : Fmt) (rows : List (List (Nat × Nat))) : Dev :=
  if f.narrow then
    s.each rows.zipIdx (fun x s => s.each d.viewBlocks (fun j s =>
      let ys := (x.1.drop (j * d.block - d.c0)).take d.block
      s.putBlock c d f (d.r0 + x.2) j (ys.map (fun y => y.1) ++ List.replicate (d.block - ys.length) 0) ((ys.map (fun y => y.2)).getD 0 0)))
  else s.putWide c d f (rows.map (fun r => r.map (fun y => y.1)))

/-- How NARROW (or WIDEN) carries out a pair of descriptors; `refused` for EV_FMT_ILLEGAL (R46, R60, R248). -/
def convOf (widen : Bool) (a b : Desc) : ConvKind :=
  match Fmt.ofCode a.fmt, Fmt.ofCode b.fmt with
  | some x, some y =>
    match convKind x y with
    | .copy => if x.narrow && a.bs16 != b.bs16 then .refused else .copy
    | .widen => if widen then .widen else .refused
    | .narrow => if widen then .refused else .narrow
    | _ => .refused
  | _, _ => .refused

/-- Whether the views of two descriptors differ in shape. -/
def convShapes (ds : List Desc) : Bool :=
  match ds with
  | [a, b] => !a.sameShape b
  | _ => false

/-- Whether the formats of the descriptors that can be read are refused: a reserved code, or the pair. -/
def convRefused (widen : Bool) (ds : List Desc) : Bool :=
  ds.any (fun d => (Fmt.ofCode d.fmt).isNone) || (match ds with
    | [a, b] => decide (convOf widen a b = .refused)
    | _ => false)

/-- The address fault of a conversion: of a descriptor's own place, or of what its view touches; the source first. -/
def Dev.convAddr (s : Dev) (c : Nat) (q : EdgeOp) : Option Nat :=
  [q.a, q.b].findSome? (fun off => match s.descAt c off with
    | none => some (strideAddr c off)
    | some d => match Fmt.ofCode d.fmt with
      | some f => s.descFault c d f
      | none => none)

/-- The first stopping condition of NARROW or WIDEN, and its address (R248, R273). -/
def Dev.convFault (s : Dev) (c : Nat) (widen : Bool) (q : EdgeOp) : Option (Nat × Nat) :=
  let ds := [s.descAt c q.a, s.descAt c q.b].filterMap id
  let rot := rotSize (s.fld Fld.EDGE_CTL_ROT c)
  if ds.any (fun d => d.illegal || decide (q.x ≠ d.vrows * d.vcols)) || convShapes ds then some (Ev.CORE_ILLEGAL, 0)
  else if convRefused widen ds then some (Ev.FMT_ILLEGAL, 0)
  else
    match s.convAddr c q, ds with
    | some e, _ => some (Ev.CORE_ADDR, e)
    | none, [a, b] =>
      if convOf widen a b ≠ .narrow then none
      else if rot ≠ 0 ∧ (a.cols % rot ≠ 0 ∨ a.c0 % rot ≠ 0 ∨ a.vcols % rot ≠ 0) then some (Ev.EDGE_SHAPE, 0)
      else if s.indexFault c q.c then some (Ev.RNG_INDEX, 0)
      else none
    | none, _ => none

/-- A narrowing from memory, and its segment (R142, R151). -/
def Dev.narrowFrom (s : Dev) (c pc : Nat) (a b : Desc) (x y : Fmt) (e0 : Nat) : Dev × Nat :=
  let rot := rotSize (s.fld Fld.EDGE_CTL_ROT c)
  let rows := (s.readView c a x).map (fun r =>
    rotateRow false rot (s.fld Fld.EDGE_LAYER_LAYER c) (s.fld Fld.EDGE_ROTSEED_SEED c) a.c0 (r.map (fun e => (x.shape.convert shapeFP32 .rne e.1).code)))
  (s.useView c pc a x).emitNarrow c b (s.narrowCtl c x y) rows e0

/-- A widening from memory (R61, R157). -/
def Dev.widenFrom (s : Dev) (c pc : Nat) (a b : Desc) (x y : Fmt) : Dev :=
  let rows := (s.readView c a x).map (fun r => r.map (fun e => widenElem x y e.2 e.1))
  let lost := rows.foldl (fun n r => n + (r.filter (fun e => e.2)).length) 0
  ((s.useView c pc a x).raiseN (coreDie c) Ev.FMT_OVERFLOW lost).putWide c b y (rows.map (fun r => r.map (fun e => e.1)))

/-- Carries a conversion out; the segment NARROW returns (R248). A copy returns FILL with count 0. -/
def Dev.convert (s : Dev) (c : Nat) (widen : Bool) (q : EdgeOp) : Dev × Nat :=
  match s.descAt c q.a, s.descAt c q.b with
  | some a, some b =>
    match convOf widen a b, Fmt.ofCode a.fmt, Fmt.ofCode b.fmt with
    | .copy, some x, _ => ((s.useView c q.pc a x).copyView c b x (s.readView c a x), s.fld Fld.GILL_STAT_FILL c)
    | .narrow, some x, some y => s.narrowFrom c q.pc a b x y q.c
    | .widen, some x, some y => (s.widenFrom c q.pc a b x y, 0)
    | _, _, _ => (s, 0)
  | _, _ => (s, 0)

end Sys2Proof.Machine
end

