-- ==== Sys2Proof/Machine/Gill.lean ====
section
/-!
DEFINITION. Gill products at a panel's output (R152, R153, R247, R451). The n-th AMUL a panel received on an array since it was
emptied covers the positions 32n to 32n + 31 of the named range (DEDUCED, assumption 16). Of a panel whose record the model has not seen
spilled it knows the AMULs since the resume, which cover the last positions of the range.
-/
namespace Sys2Proof.Machine

/-- Start and count of a gill segment (R247). -/
def segStart (g : Nat) : Nat := g % 0x2000
def segCount (g : Nat) : Nat := bits g 28 16

/-- Whether a segment's zero bits are zero (R247). -/
def segLegal (g : Nat) : Bool := decide (g &&& 0xE000E000 = 0)

/-- Whether a segment names an entry at or above FILL (R153). -/
def segStale (fill g : Nat) : Bool := decide (segCount g ≠ 0) && decide (fill < segStart g + segCount g)

/-- A gill entry: its number, its row and position in the view that was narrowed, and its value (R150). -/
structure GillEntry where
  num : Nat
  row : Nat
  pos : Nat
  val : FVal

/-- The entries of a segment, in order. -/
def Dev.segEntries (s : Dev) (c g : Nat) : List GillEntry :=
  (List.range (segCount g)).map (fun k =>
    let e := segStart g + k
    let idx := Memory.num s.mem (strideAddr c (0x11C000 + 4 * e)) 4
    let cols := SMap.read 0 (s.core c).gillCols e
    ⟨e, if cols = 0 then 0 else idx / cols, if cols = 0 then idx else idx % cols, shapeFP16.decode (Memory.num s.mem (strideAddr c (0x11A000 + 2 * e)) 2)⟩)

/-- The AMULs that a panel keeps of those it received on array `a`. -/
def Panel.amulsOn (p : Panel) (a : Nat) : List AmulRec := p.hist.filter (fun d => d.mask.toNat.testBit a)

/-- How many AMULs on array `a`, of those that cover a range of `rn` positions, went into a panel before a record that the model has not
seen spilled. -/
def Panel.lostOn (p : Panel) (a rn : Nat) : Nat := if p.foreign then (rn + 31) / 32 - (p.amulsOn a).length else 0

/-- The AMUL of a panel's record that covers offset `o` of a range of `rn` positions on array `a`. -/
def Panel.amulAt (p : Panel) (a rn o : Nat) : Option AmulRec :=
  if o / 32 < p.lostOn a rn then none else (p.amulsOn a)[o / 32 - p.lostOn a rn]?

/-- The orientation of a panel's AMULs: of the first it keeps, and free where it keeps none. -/
def Panel.colOf (p : Panel) (free : Nat) : Bool :=
  match p.hist with
  | d :: _ => d.col
  | [] => free.testBit 0

/-- Place of a weight entry under an orientation: its output column and reduction position (R87, R88). -/
def GillEntry.place (e : GillEntry) (col : Bool) : Nat × Nat := if col then (e.pos, e.row) else (e.row, e.pos)

/-- Scale exponent of the weight that output `j` of an array dots with at lane position `i` (R82, R87, R88). -/
def AmulRec.weightScale (d : AmulRec) (a i j : Nat) : Int :=
  let rows := (d.banks.getD a {}).rows
  scaleExp (if d.col then (rows.getD i ⟨0, 0, 0⟩).scale j else (rows.getD j ⟨0, 0, 0⟩).scale i)

/-- The weight that output `j` of array `a` dots with at lane position `i`. -/
def AmulRec.weight (d : AmulRec) (a i j : Nat) : FVal := ((d.banks.getD a {}).weights d.fmt d.col j).getD i (.fin false 0 0)

/-- The activation of row `k` at lane position `i`, and its scale exponent. -/
def AmulRec.act (d : AmulRec) (k i : Nat) : FVal := (d.acts.getD k ⟨0, 0, 0⟩).val d.fmt i
def AmulRec.actScale (d : AmulRec) (k i : Nat) : Int := scaleExp ((d.acts.getD k ⟨0, 0, 0⟩).scale i)

/-- A gill product, rounded once to FP32, and whether it overflowed (R152). -/
def gillProduct (v : FVal) (sigma : Int) (o : FVal) : Nat × Bool :=
  match mulVal (v.scale sigma) o with
  | none => (shapeFP32.nanCode, false)
  | some r => let x := shapeFP32.encode .rne r; (x.code, x.overflow)

/-- Panel, overflows, and the products added so far. -/
structure GillAcc where
  panel : Panel
  overflows : Nat

/-- Adds a product into the cell (a, k, j), and into the operand checksums of its row and total (R119, R451). -/
def GillAcc.add (g : GillAcc) (check : Bool) (key : Nat) (r : Nat × Bool) : GillAcc :=
  let x := (g.panel.cell key).add g.panel.pair r.1
  let p := g.panel.setCell key x.cell
  let h := p.check
  let k := key / 32 % 32
  let h' : Check := { h with
    rho := SMap.write (0, 0) h.rho k (pairAdd (SMap.read (0, 0) h.rho k) r.1), tau := pairAdd h.tau r.1, gills := h.gills + 1, peak := max h.peak x.peak }
  ⟨if check then { p with check := h' } else p, g.overflows + b2n r.2 + x.overflows⟩

/-- An operand as a number spells it: a NaN, an infinity, or a finite value of up to 24 bits. -/
def operandOf (n : Nat) : FVal :=
  match n % 4 with
  | 0 => .nan
  | 1 => .inf (n.testBit 2)
  | _ => .fin (n.testBit 2) (n / 8 % 2 ^ 24) (((n / 2 ^ 27 % 1024 : Nat) : Int) - 512)

/-- The product of an entry in a cell whose other operand is not known: its value times a free operand, with the scale of its block in it
(assumption 16). -/
def GillEntry.freeProduct (e : GillEntry) (key : Nat) : Nat × Bool := gillProduct e.val 0 (operandOf (Config.gillOperand e.num key))

/-- Adds an entry's products with operands that are not known into those cells of a row of an array that hold anything. -/
def GillAcc.freeRow (g : GillAcc) (check : Bool) (e : GillEntry) (a k : Nat) (cols : List Nat) : GillAcc :=
  cols.foldl (fun g j => if (g.panel.cell (cellKey a k j)).empty then g else g.add check (cellKey a k j) (e.freeProduct (cellKey a k j))) g

/-- The products of an activation entry at range offset `o` (R152). -/
def GillAcc.actEntry (g : GillAcc) (check : Bool) (r0 rn : Nat) (ws : List GillEntry) (e : GillEntry) : GillAcc :=
  let o := e.pos - r0
  (List.range 4).foldl (fun g a =>
    match g.panel.amulAt a rn o with
    | none => if o / 32 < g.panel.lostOn a rn then g.freeRow check e a e.row (List.range 32) else g
    | some d =>
      if d.acts.length ≤ e.row then g
      else
        let i := o % 32
        (List.range 32).foldl (fun g j =>
          let w := match ws.find? (fun w => decide (w.place d.col = (32 * a + j, e.pos))) with
            | some w => w.val.scale (d.weightScale a i j)
            | none => d.weight a i j
          g.add check (cellKey a e.row j) (gillProduct e.val (d.actScale e.row i) w)) g) g

/-- The rows of a reduction position that have no activation entry there. -/
def plainRows (acts : List GillEntry) (pos n : Nat) : List Nat :=
  (List.range n).filter (fun k => !acts.any (fun x => decide (x.row = k) && decide (x.pos = pos)))

/-- The products of a weight entry: the rows whose activation there is no gill entry (R152). -/
def GillAcc.weightEntry (g : GillAcc) (check : Bool) (r0 rn : Nat) (acts : List GillEntry) (e : GillEntry) : GillAcc :=
  (List.range 4).foldl (fun g a =>
    let lost := g.panel.lostOn a rn
    let g := (g.panel.amulsOn a).zipIdx.foldl (fun g t =>
      let d := t.1
      let at_ := e.place d.col
      if at_.1 / 32 ≠ a ∨ at_.2 < r0 ∨ r0 + rn ≤ at_.2 ∨ (at_.2 - r0) / 32 ≠ t.2 + lost then g
      else
        let i := (at_.2 - r0) % 32
        let j := at_.1 % 32
        (plainRows acts at_.2 d.acts.length).foldl (fun g k =>
          g.add check (cellKey a k j) (gillProduct e.val (d.weightScale a i j) (d.act k i))) g) g
    let at_ := e.place (g.panel.colOf (Config.gillOperand e.num 4096))
    if at_.1 / 32 ≠ a ∨ at_.2 < r0 ∨ r0 + rn ≤ at_.2 ∨ lost ≤ (at_.2 - r0) / 32 then g
    else (plainRows acts at_.2 32).foldl (fun g k => g.freeRow check e a k [at_.1 % 32]) g) g

/-- Step 2 of an output: the gill products of both segments within the range (R121, R152). -/
def Dev.gillStep (s : Dev) (c : Nat) (p : Panel) (segs range : Nat) : GillAcc :=
  let r0 := range % 2 ^ 32
  let rn := range / 2 ^ 32
  let check := s.abft c
  let within (n : Nat) : Bool := decide (r0 ≤ n) && decide (n < r0 + rn)
  let acts := (s.segEntries c (segs % 2 ^ 32)).filter (fun e => within e.pos)
  let ws := s.segEntries c (segs / 2 ^ 32)
  ws.foldl (fun g e => g.weightEntry check r0 rn acts e) (acts.foldl (fun g e => g.actEntry check r0 rn ws e) ⟨p, 0⟩)

end Sys2Proof.Machine
end

