-- ==== Sys2Proof/Machine/CheckPath.lean ====
section
/-!
DEFINITION. The check pass of an output, the comparison of a pair of cores, and the capture of a failure (R450 to R453, R455, R456,
R459, R460).
-/
namespace Sys2Proof.Machine

/-! ### Sums and tolerance (R450, R452) -/

/-- A sum and its compensation folded, as an FP32 code. -/
def foldPair (p : BitVec 32 × BitVec 32) : Nat := addF32 p.1.toNat p.2.toNat

/-- A non-negative exact number mag × 2^exp. -/
structure Exact where
  mag : Nat
  exp : Int

/-- The sum of two exact numbers. -/
def Exact.add (a b : Exact) : Exact :=
  let q := min a.exp b.exp
  ⟨a.mag * 2 ^ (a.exp - q).toNat + b.mag * 2 ^ (b.exp - q).toNat, q⟩

/-- The bound B as an exact number: the largest |F|, an infinity taken as its magnitude code stands beyond every finite value, and
never less than 2^−125 (R450). -/
def Check.bound (h : Check) : Exact :=
  let low : Exact := ⟨1, -125⟩
  match shapeFP32.decode h.peak with
  | .fin _ m e => if scaledDiff m e low.mag low.exp < 0 then low else ⟨m, e⟩
  | _ => ⟨1, 128⟩

/-- tol(L, D) of R452 for a panel: `pe` its effective promotion interval, `margin` CHK_CTL.MARGIN. -/
def Check.tol (h : Check) (pe margin len depth : Nat) : Exact :=
  let n := h.blocks.foldl (fun m kv => max m kv.2) 0
  let a := h.adds.foldl (fun m kv => max m kv.2) 0 + h.closes + h.gills + 1
  let b := h.bound
  let lanes : Exact := match h.maxE with
    | some e => ⟨38 * n + pe, e - 23⟩
    | none => ⟨0, -24⟩
  let t := lanes.add ⟨b.mag * (a + depth), b.exp - 24⟩
  ⟨t.mag * len * 2 ^ margin, t.exp⟩

/-- An exact number as an FP32 code (R466). -/
def Exact.code32 (x : Exact) : Nat := (shapeFP32.round .rne false x.mag x.exp).code

/-- How a comparison of two FP32 sums ends: not compared, or whether they differ by more than the tolerance (R452, R453). -/
def compare32 (a b : Nat) (tol : Exact) : Option Bool :=
  match shapeFP32.decode a, shapeFP32.decode b with
  | .fin n m e, .fin n' m' e' =>
    let q := min e e'
    let v (n : Bool) (m : Nat) (e : Int) : Int := let x : Int := m * 2 ^ (e - q).toNat; if n then -x else x
    some (decide (0 < scaledDiff (v n m e - v n' m' e').natAbs q tol.mag tol.exp))
  | _, _ => none

/-- The sum of 2^depth FP32 values by a fixed tree of adjacent pairs. -/
def treeOf (depth : Nat) (xs : List Nat) : Nat := (treeSum shapeFP32 .rne depth xs {}).1

/-- The value of cell (k, j) of array a in an output, a cell not listed holding +0. -/
def outAt (vs : SMap Nat) (key : Nat) : Nat := SMap.read 0 vs key

/-- ρ_k, over the 128 cells of a row. -/
def rowSum (vs : SMap Nat) (k : Nat) : Nat := treeOf 7 ((List.range 128).map (fun o => outAt vs (cellKey (o / 32) k (o % 32))))

/-- γ_o, over the 32 cells of a column. -/
def colSum (vs : SMap Nat) (o : Nat) : Nat := treeOf 5 ((List.range 32).map (fun k => outAt vs (cellKey (o / 32) k (o % 32))))

/-- One failing or skipped comparison: its row (none for the total), the two sums and the tolerance. -/
structure CheckCmp where
  row : Option Nat
  result : Nat
  operand : Nat
  tol : Exact
  failed : Option Bool

/-- The 33 comparisons of a check pass: the rows, then the total. -/
def Check.compare (h : Check) (vs : SMap Nat) (pe margin : Nat) : List CheckCmp :=
  let tr := h.tol pe margin 128 7
  let tt := h.tol pe margin 4096 12
  let rows := (List.range 32).map (fun k =>
    let a := rowSum vs k
    let b := foldPair (SMap.read (0, 0) h.rho k)
    (⟨some k, a, b, tr, compare32 a b tr⟩ : CheckCmp))
  let a := treeOf 7 ((List.range 128).map (colSum vs))
  let b := foldPair h.tau
  rows ++ [⟨none, a, b, tt, compare32 a b tt⟩]

/-! ### Capture (R459, R460) -/

/-- Whether a cluster's spare is usable as a capture slot. -/
def Dev.capUsable (s : Dev) (d k : Nat) : Bool :=
  let i := clIdx d k
  let sp := s.spareOf d k
  decide (sp ≠ 0x1F) && !s.flag Fld.SPR_CLSTAT_SWAP i && !s.flag Fld.SPR_CLSTAT_FILL i
    && (List.range 6).all (fun p => (s.part p).captures.all (fun c => decide (c.capSlot ≠ some (slotId d k sp))))

/-- The capture slot of a core: its own cluster's spare, else the next usable one in ascending order on its die, wrapping round. -/
def Dev.capSlotOf (s : Dev) (c : Nat) : Option Nat :=
  let d := coreDie c
  match ((List.range 272).map (fun n => (coreCluster c + n) % 272)).find? (s.capUsable d) with
  | some k => some (slotId d k (s.spareOf d k))
  | none => none

/-- What a capture copies of a core, as it stands at a check pass, with the comparison that failed and whether the total did: its staging area,
its banks, the panel and its span log (R459, R460). -/
def Dev.captureOf (s : Dev) (c kind event fpc panel : Nat) (cmp : Option CheckCmp) (total : Bool) : Capture :=
  let x := s.core c
  let p := s.corePart c
  let z : CheckCmp := cmp.getD ⟨none, 0, 0, ⟨0, 0⟩, none⟩
  { core := c, kind := kind, event := event, slot := s.physSlot c, capSlot := none
    staging := SMap.window s.mem (strideAddr c 0x100000) (strideAddr c 0x11A000), banks := x.banks, index := panel
    panel := x.panel panel, spans := SMap.read [] x.spans panel, fpc := fpc
    row := z.row.getD 0x3F, total := total
    result := z.result, operand := z.operand, tol := z.tol.code32
    chain := s.chainCount, step := s.step p, stream := s.fld Fld.STEP_STREAM_STREAM p }

/-- Captures a core's check failure, the first in the step, in the slot usable now; while diagnosis is off no slot is taken (R459). -/
def Dev.takeCapture (s : Dev) (cap : Capture) : Dev :=
  let c := cap.core
  let x := s.core c
  if x.captured then s
  else
    let p := s.corePart c
    let cap := { cap with capSlot := if s.flag Fld.CHK_CTL_DIAG p then s.capSlotOf c else none, chain := s.chainCount }
    let s := s.setCore c { x with captured := true }
    let y := s.part p
    s.setPart p { y with captures := y.captures ++ [cap] }

/-! ### The check pass (R452, R453) -/

/-- The promotion interval of a panel for its tolerance (R107): rounded up to an even number when an AMUL of 16-element blocks fed it. -/
def Panel.effPromote (p : Panel) : Nat := Sys2Proof.Machine.effPromote p.promote.toNat (p.hist.any (fun d => d.bs16))

/-- The check pass of a POUT on the values after step 3, keyed as cells. -/
def Dev.checkPass (s : Dev) (c fpc n : Nat) (q : Panel) (vs : SMap Nat) : Dev :=
  let p := s.corePart c
  if q.resumed then s.perf .CHK_PC_SKIP p p 1
  else
    let cs := q.check.compare vs q.effPromote (s.fld Fld.CHK_CTL_MARGIN p)
    let s := s.perf .CHK_PC_CHECKS p p 1
    let skips := (cs.filter (fun x => x.failed.isNone)).length
    let s := if skips = 0 then s else s.perf .CHK_PC_SKIP p p skips
    match cs.find? (fun x => x.failed == some true) with
    | none => s
    | some z =>
      let total := cs.any (fun x => x.row.isNone && x.failed == some true)
      ((s.raise (coreDie c) Ev.CHK_FAIL).takeCapture (s.captureOf c 1 Ev.CHK_FAIL fpc n (some z) total)).unclean p Ev.CHK_FAIL

/-! ### Pairs of cores (R455, R456) -/

/-- The other core of a pair. -/
def pairOf (c : Nat) : Nat := if c % 2 = 0 then c + 1 else c - 1

/-- The exchange of a POUT's values with the partner: the values wait for the partner's same POUT, or are compared with those that
wait. The n-th POUT of one core goes with the n-th of the other, and a mismatch captures each core as it stood at its own (R459). -/
def Dev.pairCompare (s : Dev) (c fpc n : Nat) (vs : SMap Nat) : Dev :=
  let o := pairOf c
  let x := s.core c
  let y := s.core o
  let cap := s.captureOf c 2 Ev.CHK_DUP fpc n none false
  match y.dup with
  | [] => s.setCore c { x with dup := x.dup ++ [⟨vs, cap⟩] }
  | e :: es =>
    let s := s.setCore o { y with dup := es }
    if e.values = vs then s
    else
      let s := (s.raise (coreDie c) Ev.CHK_DUP).unclean (s.corePart c) Ev.CHK_DUP
      (s.takeCapture cap).takeCapture e.capture

/-- What the checks make of an output's values (R452, R456). -/
def Dev.checkOutput (s : Dev) (c fpc n : Nat) (q : Panel) (vs : SMap Nat) : Dev :=
  let p := s.corePart c
  let s := if s.flag Fld.CHK_CTL_ABFT p then s.checkPass c fpc n q vs else s
  if s.flag Fld.CHK_CTL_DUP p then s.pairCompare c fpc n vs else s

end Sys2Proof.Machine
end

