-- ==== Sys2Proof/Machine/Output.lean ====
section
/-!
DEFINITION. The edge queue's panel operations (R121 to R128, R145, R153, R154, R157, R246, R247): output, spill and resume, as carried
out at dispatch.
-/
namespace Sys2Proof.Machine

/-! ### Outputs: what stops one (R246, R247, R273, R290) -/

/-- The fused operation of a POUT word (R246): 0 none, 1 add, 2 multiply. -/
def fusedOp (w : Nat) : Nat := fF w % 4

/-- The descriptors of an output: the destination and, with a fused operation, its operand; `none` for an offset that faults. -/
def Dev.outDescs (s : Dev) (c : Nat) (q : EdgeOp) : List (Nat × Option Desc) :=
  (q.d, s.descAt c q.d) :: (if fusedOp q.word = 0 then [] else [(q.a, s.descAt c q.a)])

/-- Whether an output is illegal: a descriptor, a view beyond a panel, views of unlike shape, or a segment's zero bits. -/
def Dev.outIllegal (s : Dev) (c : Nat) (q : EdgeOp) : Bool :=
  let ds := (s.outDescs c q).filterMap (fun t => t.2)
  ds.any (fun d => d.illegal || decide (32 < d.vrows) || decide (128 < d.vcols))
    || (match ds with
      | [a, b] => !a.sameShape b
      | _ => false)
    || !segLegal (q.c % 2 ^ 32) || !segLegal (q.c / 2 ^ 32)

/-- Whether the formats of an output are refused: a reserved destination code, or a fused operand beyond code 0x7 (R60, R122). -/
def Dev.outFormatBad (s : Dev) (c : Nat) (q : EdgeOp) : Bool :=
  (match s.descAt c q.d with
    | some d => (Fmt.ofCode d.fmt).isNone
    | none => false)
    || (decide (fusedOp q.word ≠ 0) && (match s.descAt c q.a with
      | some d => decide (7 < d.fmt)
      | none => false))

/-- The address fault of an output (R246, R288, R290). -/
def Dev.outAddr (s : Dev) (c : Nat) (q : EdgeOp) : Option Nat :=
  (s.outDescs c q).findSome? (fun t => match t.2 with
    | none => some (strideAddr c t.1)
    | some d => match Fmt.ofCode d.fmt with
      | some f => s.descFault c d f
      | none => none)

/-- Whether a conversion into a format out of a panel rounds stochastically (R154). -/
def Dev.outStoch (s : Dev) (c : Nat) (f : Fmt) : Bool :=
  s.flag Fld.EDGE_CTL_SR c && (f.narrow || decide (f = .bf16) || decide (f = .fp16))

/-- Whether a rotation of size `n` would meet a partial group of a view (R146). -/
def Desc.partGroup (d : Desc) (n : Nat) : Bool := decide (n ≠ 0) && (decide (d.c0 % n ≠ 0) || decide (d.vcols % n ≠ 0))

/-- The first stopping condition of an output, and its address. -/
def Dev.outFault (s : Dev) (c : Nat) (q : EdgeOp) : Option (Nat × Nat) :=
  if s.outIllegal c q then some (Ev.CORE_ILLEGAL, 0)
  else if s.outFormatBad c q then some (Ev.FMT_ILLEGAL, 0)
  else
    match s.outAddr c q, s.descAt c q.d with
    | some a, _ => some (Ev.CORE_ADDR, a)
    | none, none => none
    | none, some d =>
      match Fmt.ofCode d.fmt with
      | none => none
      | some f =>
        let fill := s.fld Fld.GILL_STAT_FILL c
        if d.partGroup (rotSize (s.fld Fld.EDGE_CTL_IROT c)) || (f.narrow && d.partGroup (rotSize (s.fld Fld.EDGE_CTL_ROT c))) then
          some (Ev.EDGE_SHAPE, 0)
        else if segStale fill (q.c % 2 ^ 32) || segStale fill (q.c / 2 ^ 32) then some (Ev.GILL_STALE, 0)
        else if s.outStoch c f && s.flag Fld.RNG_CTL_MODE c && decide (q.b % 4 ≠ 0) then some (Ev.RNG_INDEX, 0)
        else none

/-! ### Outputs: the steps (R121) -/

/-- Steps 1 to 3: the panel closed, its gill products added and pairs folded; the values by cell key, +0 left out. -/
def Dev.outValues (s : Dev) (c : Nat) (q : EdgeOp) : Dev × SMap Nat :=
  let n := panelOf q.word
  let s := s.closePanel c n
  let g := s.gillStep c ((s.core c).panel n) q.c q.x
  let s := s.setCore c ((s.core c).setPanel n g.panel)
  let vs := g.panel.cells.map (fun kc => (kc.1, kc.2.outValue g.panel.pair))
  let lost := (vs.filter (fun v => v.2.2)).length
  (s.raiseN (coreDie c) Ev.ACC_OVERFLOW (g.overflows + lost), (vs.map (fun v => (v.1, v.2.1))).filter (fun v => v.2 ≠ 0))

/-- The values of a view, row by row (R289). -/
def outRows (d : Desc) (vs : SMap Nat) : List (List Nat) :=
  (List.range d.vrows).map (fun k => (List.range d.vcols).map (fun i => outAt vs (cellKey (i / 32) k (i % 32))))

/-- One element of step 4 (R122): the operand widened, and the operation; whether each overflowed. -/
def fuseElem (op : Nat) (f : Fmt) (x : Nat) (e : Nat × Nat) : Nat × Bool × Bool :=
  let y := widenElem f .fp32 e.2 e.1
  let r := if op = 1 then addF32 x y.1 else mulF32 x y.1
  (r, y.2, overflowed (isFin32 x && isFin32 y.1) r)

/-- Step 4: the fused operation on the rows of the view (R122, R446). -/
def Dev.outFuse (s : Dev) (c : Nat) (q : EdgeOp) (rows : List (List Nat)) : Dev × List (List Nat) :=
  match (if fusedOp q.word = 0 then none else s.descAt c q.a) with
  | none => (s, rows)
  | some d =>
    match Fmt.ofCode d.fmt with
    | none => (s, rows)
    | some f =>
      let rs := (rows.zip (s.readView c d f)).map (fun t => (t.1.zip t.2).map (fun e => fuseElem (fusedOp q.word) f e.1 e.2))
      let all := rs.flatten
      let s := s.useView c q.pc d f
      let s := s.raiseN (coreDie c) Ev.FMT_OVERFLOW (all.filter (fun e => e.2.1)).length
      (s.raiseN (coreDie c) Ev.ACC_OVERFLOW (all.filter (fun e => e.2.2)).length, rs.map (fun r => r.map (fun e => e.1)))

/-- Step 5 into a wide format (R67, R154, R157): the event of what passed the largest finite value is EV_FMT_SATURATE under stochastic
rounding, else EV_FMT_OVERFLOW. -/
def Dev.outWide (s : Dev) (c : Nat) (d : Desc) (f : Fmt) (e0 : Nat) (rows : List (List Nat)) : Dev :=
  let sr := s.outStoch c f
  let ds := if sr then s.edgeDraws c (d.vrows * d.vcols) e0 else ([], s)
  let k := s.fld Fld.EDGE_CTL_SR_BITS c
  let rs := rows.zipIdx.map (fun r => r.1.zipIdx.map (fun x =>
    edgeWide .fp32 f (if sr then .stoch k (ds.1.getD (r.2 * d.vcols + x.2) 0 % 2 ^ k) else .rne) x.1))
  let lost := (rs.flatten.filter (fun e => e.2)).length
  let s := ds.2.raiseN (coreDie c) (if sr then Ev.FMT_SATURATE else Ev.FMT_OVERFLOW) lost
  s.putWide c d f (rs.map (fun r => r.map (fun e => e.1)))

/-- The rotations of an output: the inverse one first, then the forward one for a narrow destination (R145). An output into FP32 takes the inverse
one too, although R60 has a copy apply none (DESIGN CHOICE, assumption 83). -/
def Dev.outRotate (s : Dev) (c : Nat) (d : Desc) (f : Fmt) (rows : List (List Nat)) : List (List Nat) :=
  let go (inverse : Bool) (n : Nat) (r : List Nat) : List Nat :=
    rotateRow inverse n (s.fld Fld.EDGE_LAYER_LAYER c) (s.fld Fld.EDGE_ROTSEED_SEED c) d.c0 r
  let rows := rows.map (go true (rotSize (s.fld Fld.EDGE_CTL_IROT c)))
  if f.narrow then rows.map (go false (rotSize (s.fld Fld.EDGE_CTL_ROT c))) else rows

/-- Step 5: the rotations, and the conversion into the destination. -/
def Dev.outConvert (s : Dev) (c : Nat) (d : Desc) (f : Fmt) (e0 : Nat) (rows : List (List Nat)) : Dev :=
  let rows := s.outRotate c d f rows
  if f.narrow then (s.emitNarrow c d (s.narrowCtl c .fp32 f) rows e0).1 else s.outWide c d f e0 rows

/-- Every cell of a panel emptied (R121). -/
def Dev.emptyPanel (s : Dev) (c n : Nat) : Dev := s.setCore c ((s.core c).setPanel n ((s.core c).panel n).emptied)

/-- POUT carried out (R121). -/
def Dev.output (s : Dev) (c : Nat) (q : EdgeOp) : Dev :=
  match s.descAt c q.d with
  | none => s
  | some d =>
    match Fmt.ofCode d.fmt with
    | none => s
    | some f =>
      let n := panelOf q.word
      let o := s.outValues c q
      let s := o.1.checkOutput c q.pc n ((o.1.core c).panel n) o.2
      let r := s.outFuse c q (outRows d o.2)
      (r.1.outConvert c d f q.b r.2).emptyPanel c n

/-! ### Spill and resume (R123 to R128) -/

/-- Whether a record of `n` tiles at an offset lies as R123 demands. -/
def recordFits (off n : Nat) : Bool := decide (off % tileSize = 0) && decide (off + tileSize * n ≤ payloadEnd)

/-- Tiles of a record. -/
def recordTiles (pair : Bool) : Nat := if pair then 9 else 5

/-- The first stopping condition of a spill. -/
def Dev.spillFault (s : Dev) (c : Nat) (q : EdgeOp) : Option (Nat × Nat) :=
  if recordFits q.a (recordTiles ((s.core c).panel (panelOf q.word)).pair) then none else some (Ev.CORE_ADDR, strideAddr c q.a)

/-- PSPILL carried out (R125): the record is written, and the AMULs of its panel are kept for a resume of it (R128). -/
def Dev.spill (s : Dev) (c : Nat) (q : EdgeOp) : Dev :=
  let n := panelOf q.word
  let s := s.closePanel c n
  let p := (s.core c).panel n
  let s := s.setCore c { s.core c with spilled := (strideAddr c q.a, p) :: (s.core c).spilled }
  (s.write (strideAddr c q.a) p.record).perfCore .ACC_PC_SPILL c 1

/-- The panel whose record lies at an address: the last one spilled there with these bytes; for a record that was moved, the one spilled with
them, where all that were had received the same AMULs (assumption 16). -/
def Dev.spilledAs (s : Dev) (a : Nat) (bs : List Byte) : Option Panel :=
  let ps := (s.cores.flatMap (fun x => x.2.spilled)).filter (fun p => p.2.record == bs)
  match ps.find? (fun p => p.1 == a), ps with
  | some p, _ => some p.2
  | none, p :: qs => if qs.all (fun q => q.2.hist == p.2.hist && q.2.foreign == p.2.foreign) then some p.2 else none
  | none, [] => none

/-- The bytes of the record a resume names: nine tiles when its header is in pair mode, else five. -/
def Dev.recordLen (s : Dev) (c : Nat) (q : EdgeOp) : Nat := recordTiles ((Memory.num s.mem (strideAddr c q.a + 4) 1).testBit 0)

/-- The first stopping condition of a resume: its address, then its header (R123, R127). -/
def Dev.resumeFault (s : Dev) (c : Nat) (q : EdgeOp) : Option (Nat × Nat) :=
  if !recordFits q.a 1 then some (Ev.CORE_ADDR, strideAddr c q.a)
  else if !recordFits q.a (s.recordLen c q) then some (Ev.CORE_ADDR, strideAddr c q.a)
  else if headerBad (s.tile (strideAddr c q.a)) then some (Ev.ACC_RECORD_BAD, 0)
  else none

/-- Uses of the first `n` tiles of the record that a resume names (R127, R446). -/
def Dev.useTiles (s : Dev) (c : Nat) (q : EdgeOp) (n : Nat) : Dev :=
  s.useRange (s.corePart c) (coreDie c) (some c) q.pc (strideAddr c q.a) (tileSize * n)

/-- The panel that a record gives back, with the AMULs it had received when it was spilled, if the model has seen it (R126, R128). -/
def Dev.resumed (s : Dev) (a : Nat) (bs : List Byte) : Panel :=
  match s.spilledAs a bs with
  | some p => { Panel.ofRecord bs with hist := p.hist, foreign := p.foreign }
  | none => { Panel.ofRecord bs with foreign := true }

/-- PRESUME carried out (R126, R127). -/
def Dev.resume (s : Dev) (c : Nat) (q : EdgeOp) : Dev :=
  let len := s.recordLen c q
  let p := s.resumed (strideAddr c q.a) (Memory.bytes s.mem (strideAddr c q.a) (tileSize * len))
  let s := s.useTiles c q len
  s.setCore c ((s.core c).setPanel (panelOf q.word) p)

end Sys2Proof.Machine
end

