-- ==== Sys2Proof/Machine/EdgeQueue.lean ====
section
/-!
DEFINITION. The edge queue (R139, R141, R151, R164, R236, R246, R248, R267 to R269): hand-over, dispatch and completion. An instruction
waits in the queue for EDGE_QUEUE_DISPATCH, since none dispatches in the cycle of its issue.
-/
namespace Sys2Proof.Machine

/-- Whether a word of the edge queue is a conversion, which the converter takes one at a time (R139). -/
def edgeConverts (w : Nat) : Bool := decide (opOf w = 0x80) || decide (opOf w = 0x81) || decide (opOf w = 0x64)

/-- Whether the converter keeps an operation from dispatching (R139). -/
def Core.edgeBusy (x : Core) (q : EdgeOp) : Bool := edgeConverts q.word && x.converting

/-- Whether its panel keeps an operation from dispatching (R109). -/
def Core.edgeHeld (x : Core) (q : EdgeOp) : Bool := edgeUsesPanel q.word && x.panelBusy (panelOf q.word) q.order

/-- The first stopping condition of an edge operation at dispatch, and its address (R273). -/
def Dev.edgeFault (s : Dev) (c : Nat) (q : EdgeOp) : Option (Nat × Nat) :=
  match opOf q.word with
  | 0x62 => s.spillFault c q
  | 0x63 => s.resumeFault c q
  | 0x64 => s.outFault c q
  | 0x80 => s.convFault c false q
  | _ => s.convFault c true q

/-- The payload offsets of the tensor descriptors an edge operation names (R246, R248). -/
def EdgeOp.tensors (q : EdgeOp) : List Nat :=
  match opOf q.word with
  | 0x62 | 0x63 => []
  | 0x64 => if fusedOp q.word = 0 then [q.d] else [q.d, q.a]
  | _ => [q.a, q.b]

/-- Whether a bridge that is down cuts off a byte that an edge operation reads or writes (R22, R24). -/
def Dev.edgeCut (s : Dev) (c : Nat) (q : EdgeOp) : Bool :=
  !s.ctl.bridgesDown.isEmpty && (s.edgeFault c q).isNone && q.tensors.any (fun off =>
    match s.descAt c off with
    | none => false
    | some d => match Fmt.ofCode d.fmt with
      | none => false
      | some f => (d.pieces f).any (fun x => !s.reaches (coreDie c) (addrDie (s.ownAddr c x.1))))

/-- Carries an edge operation out: the module after it, and the register write that its completion makes. A resume replaces its panel here,
at dispatch, like every other effect of an edge operation (DESIGN CHOICE, assumption 53). -/
def Dev.edgeRun (s : Dev) (c : Nat) (q : EdgeOp) : Dev × Option (Nat × Word) :=
  match opOf q.word with
  | 0x62 => (s.spill c q, none)
  | 0x63 => (s.resume c q, none)
  | 0x64 => (s.output c q, none)
  | 0x80 => let r := s.convert c false q; (r.1, some (fD q.word, BitVec.ofNat 64 r.2))
  | _ => ((s.convert c true q).1, none)

/-- The head of the edge queue leaves it and is carried out, or stops the core (R272). A resume that finds a bad header has read that tile,
and no other (R127; DEDUCED, assumption 78). -/
def Dev.edgeStart (s : Dev) (c : Nat) (q : EdgeOp) : Dev :=
  let x := s.core c
  let s := s.setCore c { x with edgeQ := x.edgeQ.drop 1 }
  match s.edgeFault c q with
  | some e =>
    let s := if e.1 = Ev.ACC_RECORD_BAD then s.useTiles c q 1 else s
    let s := s.setCore c { s.core c with pend := if opOf q.word = 0x80 then (s.core c).pend.erase (fD q.word) else (s.core c).pend }
    s.stopCore c e.1 q.pc e.2
  | none =>
    let r := s.edgeRun c q
    let fl : EdgeFlight :=
      { order := q.order, panel := if edgeUsesPanel q.word then some (panelOf q.word) else none, conv := edgeConverts q.word, dest := r.2
        resume := decide (opOf q.word = 0x63) }
    r.1.setCore c { r.1.core c with edgeFlights := (r.1.core c).edgeFlights ++ [fl] }

/-- EDGE_QUEUE_DISPATCH (R268): the head of the edge queue dispatches or is held, also by a bridge that is down on its way (R24; assumption
74). -/
def Dev.edgeDispatch (s : Dev) (c : Nat) : Dev :=
  let x := s.core c
  match x.edgeQ with
  | [] => s
  | q :: _ => if x.edgeBusy q then s else if x.edgeHeld q then s.perfCore .CORE_PC_HOLD_PANEL c 1
    else if s.edgeCut c q then s else s.edgeStart c q

/-- Hands an instruction to the edge queue. `dest` is the register it writes. -/
def Dev.queueEdge (s : Dev) (c w : Nat) (dest : Option Nat) : Dev :=
  let x := s.core c
  let q : EdgeOp :=
    { order := x.order, pc := x.pc.toNat % 2 ^ 20, word := w, d := x.s (fD w), a := x.s (fA w), b := x.s (fB w), c := x.s (fC w), x := x.s (fX w) }
  let pend := match dest with
    | some d => if d = 0 then x.pend else x.pend ++ [d]
    | none => x.pend
  s.setCore c { x with order := x.order + 1, edgeQ := x.edgeQ ++ [q], pend := pend }

/-- Issues an instruction of the edge queue, held while the queue is full (R267, R268). -/
def Dev.iEdge (s : Dev) (c w : Nat) (m : Form) (legal : Bool) (dest : Option Nat) : Dev :=
  s.issueS c w m legal (fun _ =>
    if 2 ≤ (s.core c).edgeQ.length then .hold .CORE_PC_STALL_UNIT else .done (s.queueEdge c w dest))

/-- PSPILL (R123, R125, R246). -/
def Dev.iPspill (s : Dev) (c : Nat) (w : BitVec 56) : Dev := s.iEdge c (insn 0x62 w) { a := .s, f := 0x1C } true none

/-- PRESUME (R126, R127, R246). -/
def Dev.iPresume (s : Dev) (c : Nat) (w : BitVec 56) : Dev := s.iEdge c (insn 0x63 w) { a := .s, f := 0x1C } true none

/-- Whether a POUT word keeps R246: no third operation, and sA other than s0 exactly with a fused operation. -/
def poutLegal (w : Nat) : Bool := decide (fusedOp w ≠ 3) && (decide (fusedOp w = 0) == decide (fA w = 0))

/-- POUT (R121, R246). -/
def Dev.iPout (s : Dev) (c : Nat) (w : BitVec 56) : Dev :=
  let i := insn 0x64 w
  s.iEdge c i { d := .s, a := .s, b := .s, c := .s, x := .s, f := 0x1F } (poutLegal i) none

/-- NARROW (R142, R248). -/
def Dev.iNarrow (s : Dev) (c : Nat) (w : BitVec 56) : Dev :=
  let i := insn 0x80 w
  s.iEdge c i { d := .s, a := .s, b := .s, c := .s, x := .s } true (some (fD i))

/-- WIDEN (R157, R248). -/
def Dev.iWiden (s : Dev) (c : Nat) (w : BitVec 56) : Dev := s.iEdge c (insn 0x81 w) { a := .s, b := .s, c := .s, x := .s } true none

/-! ### Completion (R151, R164) -/

/-- A pending reset of the gill buffer takes effect once no conversion is in flight (R151). -/
def Dev.applyGillReset (s : Dev) (c : Nat) : Dev :=
  if s.flag Fld.EDGE_STAT_RSTPEND c && !(s.core c).converting then (s.setFld Fld.EDGE_STAT_RSTPEND c 0).setFld Fld.GILL_STAT_FILL c 0 else s

/-- An edge operation in flight finishes: its register is written, a resume is counted, and a pending gill reset takes effect. -/
def Dev.finishEdge (s : Dev) (c : Nat) (f : EdgeFlight) : Dev :=
  let x := s.core c
  let y : Core := { x with edgeFlights := x.edgeFlights.erase f }
  let y := match f.dest with
    | some (d, v) => ({ y with pend := y.pend.erase d } : Core).setS d v.toNat
    | none => y
  let s := (s.setCore c y).perfCore .ACC_PC_RESUME c (b2n f.resume)
  (s.applyGillReset c).settle (s.corePart c)

/-- The oldest edge operation in flight of a core finishes. -/
def Dev.edgeComplete (s : Dev) (c : Nat) : Dev :=
  match (s.core c).edgeFlights with
  | [] => s
  | f :: _ => s.finishEdge c f

/-- The conversion in flight finishes with a gill reset pending. -/
def Dev.gillApply (s : Dev) (c : Nat) : Dev :=
  match (if s.flag Fld.EDGE_STAT_RSTPEND c then (s.core c).edgeFlights.find? (fun f => f.conv) else none) with
  | none => s
  | some f => s.finishEdge c f

/-- EDGE_QUEUE_DISPATCH (R268). -/
def execEdgeQueueDispatch (core : CoreId) (ue : List (BitVec 52)) (s : State) : Host.Outcome State Fault Refusal :=
  ok s (s.dev.withUe (ue.map (fun a => a.toNat)) (fun d => d.edgeDispatch core.toNat))

/-- EDGE_OPERATION_COMPLETE (R164). -/
def execEdgeOperationComplete (core : CoreId) (s : State) : Host.Outcome State Fault Refusal := ok s (s.dev.edgeComplete core.toNat)

/-- GILL_RESET_APPLY (R151). -/
def execGillResetApply (core : CoreId) (s : State) : Host.Outcome State Fault Refusal := ok s (s.dev.gillApply core.toNat)

end Sys2Proof.Machine
end

