-- ==== Sys2Proof/Machine/CoreCmds.lean ====
section
/-!
DEFINITION. The commands of a core's instructions, the instruction of a whole word by its opcode (R236), and the illegal one (R234).
-/
namespace Sys2Proof.Machine

/-- SOP (R237). -/
def execSop (core : CoreId) (w : BitVec 56) (s : State) : Host.Outcome State Fault Refusal := ok s (s.dev.iSop core.toNat w)

/-- SOPI (R237). -/
def execSopi (core : CoreId) (w : BitVec 56) (s : State) : Host.Outcome State Fault Refusal := ok s (s.dev.iSopi core.toNat w)

/-- SLIH (R236). -/
def execSlih (core : CoreId) (w : BitVec 56) (s : State) : Host.Outcome State Fault Refusal := ok s (s.dev.iSlih core.toNat w)

/-- SCMP (R237). -/
def execScmp (core : CoreId) (w : BitVec 56) (s : State) : Host.Outcome State Fault Refusal := ok s (s.dev.iScmp core.toNat w)

/-- SCSR (R238). -/
def execScsr (core : CoreId) (w : BitVec 56) (s : State) : Host.Outcome State Fault Refusal := ok s (s.dev.iScsr core.toNat w)

/-- BR (R239). -/
def execBr (core : CoreId) (w : BitVec 56) (s : State) : Host.Outcome State Fault Refusal := ok s (s.dev.iBr core.toNat w)

/-- BRR (R239). -/
def execBrr (core : CoreId) (w : BitVec 56) (s : State) : Host.Outcome State Fault Refusal := ok s (s.dev.iBrr core.toNat w)

/-- WBEAT (R262). -/
def execWbeat (core : CoreId) (w : BitVec 56) (s : State) : Host.Outcome State Fault Refusal := ok s (s.dev.iWbeat core.toNat w)

/-- BAR (R263). -/
def execBar (core : CoreId) (w : BitVec 56) (s : State) : Host.Outcome State Fault Refusal := ok s (s.dev.iBar core.toNat w)

/-- FENCE (R241). -/
def execFence (core : CoreId) (w : BitVec 56) (s : State) : Host.Outcome State Fault Refusal := ok s (s.dev.iFence core.toNat w)

/-- LFMT (R264). -/
def execLfmt (core : CoreId) (w : BitVec 56) (s : State) : Host.Outcome State Fault Refusal := ok s (s.dev.iLfmt core.toNat w)

/-- LOSS (R265). -/
def execLoss (core : CoreId) (w : BitVec 56) (s : State) : Host.Outcome State Fault Refusal := ok s (s.dev.iLoss core.toNat w)

/-- STEPEND (R266). -/
def execStepend (core : CoreId) (w : BitVec 56) (s : State) : Host.Outcome State Fault Refusal := ok s (s.dev.iStepend core.toNat w)

/-- NOP (R236). -/
def execNop (core : CoreId) (w : BitVec 56) (s : State) : Host.Outcome State Fault Refusal := ok s (s.dev.iNop core.toNat w)

/-- LDS (R240). -/
def execLds (core : CoreId) (w : BitVec 56) (s : State) : Host.Outcome State Fault Refusal := ok s (s.dev.iLds core.toNat w)

/-- STS (R240). -/
def execSts (core : CoreId) (w : BitVec 56) (s : State) : Host.Outcome State Fault Refusal := ok s (s.dev.iSts core.toNat w)

/-- VLD (R240). -/
def execVld (core : CoreId) (w : BitVec 56) (s : State) : Host.Outcome State Fault Refusal := ok s (s.dev.iVld core.toNat w)

/-- VST (R240). -/
def execVst (core : CoreId) (w : BitVec 56) (s : State) : Host.Outcome State Fault Refusal := ok s (s.dev.iVst core.toNat w)

/-- DMA (R242). -/
def execDma (core : CoreId) (w : BitVec 56) (s : State) : Host.Outcome State Fault Refusal := ok s (s.dev.iDma core.toNat w)

/-- DMAW (R242). -/
def execDmaw (core : CoreId) (w : BitVec 56) (s : State) : Host.Outcome State Fault Refusal := ok s (s.dev.iDmaw core.toNat w)

/-- WLOAD (R245). -/
def execWload (core : CoreId) (w : BitVec 56) (s : State) : Host.Outcome State Fault Refusal := ok s (s.dev.iWload core.toNat w)

/-- AMUL (R91, R245). -/
def execAmul (core : CoreId) (w : BitVec 56) (s : State) : Host.Outcome State Fault Refusal := ok s (s.dev.iAmul core.toNat w)

/-- PSPILL (R125). -/
def execPspill (core : CoreId) (w : BitVec 56) (s : State) : Host.Outcome State Fault Refusal := ok s (s.dev.iPspill core.toNat w)

/-- PRESUME (R126). -/
def execPresume (core : CoreId) (w : BitVec 56) (s : State) : Host.Outcome State Fault Refusal := ok s (s.dev.iPresume core.toNat w)

/-- POUT (R121). -/
def execPout (core : CoreId) (w : BitVec 56) (s : State) : Host.Outcome State Fault Refusal := ok s (s.dev.iPout core.toNat w)

/-- NARROW (R142). -/
def execNarrow (core : CoreId) (w : BitVec 56) (s : State) : Host.Outcome State Fault Refusal := ok s (s.dev.iNarrow core.toNat w)

/-- WIDEN (R157). -/
def execWiden (core : CoreId) (w : BitVec 56) (s : State) : Host.Outcome State Fault Refusal := ok s (s.dev.iWiden core.toNat w)

/-- VF (R251). -/
def execVf (core : CoreId) (w : BitVec 56) (s : State) : Host.Outcome State Fault Refusal := ok s (s.dev.iVf core.toNat w)

/-- VCMP (R252). -/
def execVcmp (core : CoreId) (w : BitVec 56) (s : State) : Host.Outcome State Fault Refusal := ok s (s.dev.iVcmp core.toNat w)

/-- VCVT (R253). -/
def execVcvt (core : CoreId) (w : BitVec 56) (s : State) : Host.Outcome State Fault Refusal := ok s (s.dev.iVcvt core.toNat w)

/-- VRED (R255). -/
def execVred (core : CoreId) (w : BitVec 56) (s : State) : Host.Outcome State Fault Refusal := ok s (s.dev.iVred core.toNat w)

/-- VPRD (R256). -/
def execVprd (core : CoreId) (w : BitVec 56) (s : State) : Host.Outcome State Fault Refusal := ok s (s.dev.iVprd core.toNat w)

/-- VSSQ (R261). -/
def execVssq (core : CoreId) (w : BitVec 56) (s : State) : Host.Outcome State Fault Refusal := ok s (s.dev.iVssq core.toNat w)

/-- NRD (R261). -/
def execNrd (core : CoreId) (w : BitVec 56) (s : State) : Host.Outcome State Fault Refusal := ok s (s.dev.iNrd core.toNat w)

/-- VOPT (R260). -/
def execVopt (core : CoreId) (w : BitVec 56) (s : State) : Host.Outcome State Fault Refusal := ok s (s.dev.iVopt core.toNat w)

/-- VI (R254). -/
def execVi (core : CoreId) (w : BitVec 56) (s : State) : Host.Outcome State Fault Refusal := ok s (s.dev.iVi core.toNat w)

/-- VSEL (R254). -/
def execVsel (core : CoreId) (w : BitVec 56) (s : State) : Host.Outcome State Fault Refusal := ok s (s.dev.iVsel core.toNat w)

/-- VBCAST (R254). -/
def execVbcast (core : CoreId) (w : BitVec 56) (s : State) : Host.Outcome State Fault Refusal := ok s (s.dev.iVbcast core.toNat w)

/-- VIDX (R254). -/
def execVidx (core : CoreId) (w : BitVec 56) (s : State) : Host.Outcome State Fault Refusal := ok s (s.dev.iVidx core.toNat w)

/-- VMOVS (R254). -/
def execVmovs (core : CoreId) (w : BitVec 56) (s : State) : Host.Outcome State Fault Refusal := ok s (s.dev.iVmovs core.toNat w)

/-- PLOG (R254). -/
def execPlog (core : CoreId) (w : BitVec 56) (s : State) : Host.Outcome State Fault Refusal := ok s (s.dev.iPlog core.toNat w)

/-- VRAND (R257). -/
def execVrand (core : CoreId) (w : BitVec 56) (s : State) : Host.Outcome State Fault Refusal := ok s (s.dev.iVrand core.toNat w)

/-- VGUMBEL (R258). -/
def execVgumbel (core : CoreId) (w : BitVec 56) (s : State) : Host.Outcome State Fault Refusal := ok s (s.dev.iVgumbel core.toNat w)

/-- The vector instruction of an opcode. -/
def Dev.vectorWord (s : Dev) (c op : Nat) (w : BitVec 56) : Option Dev :=
  match op with
  | 0xA0 => some (s.iVf c w)
  | 0xA1 => some (s.iVcmp c w)
  | 0xA2 => some (s.iVcvt c w)
  | 0xA3 => some (s.iVred c w)
  | 0xA4 => some (s.iVprd c w)
  | 0xA5 => some (s.iVssq c w)
  | 0xA6 => some (s.iNrd c w)
  | 0xA7 => some (s.iVopt c w)
  | 0xC0 => some (s.iVi c w)
  | 0xC1 => some (s.iVsel c w)
  | 0xC2 => some (s.iVbcast c w)
  | 0xC3 => some (s.iVidx c w)
  | 0xC4 => some (s.iVmovs c w)
  | 0xC5 => some (s.iPlog c w)
  | 0xC6 => some (s.iVrand c w)
  | 0xC7 => some (s.iVgumbel c w)
  | _ => none

/-- The memory, DMA, array or edge instruction of an opcode, else a vector one. -/
def Dev.unitWord (s : Dev) (c op : Nat) (w : BitVec 56) : Option Dev :=
  match op with
  | 0x40 => some (s.iLds c w)
  | 0x41 => some (s.iSts c w)
  | 0x42 => some (s.iVld c w)
  | 0x43 => some (s.iVst c w)
  | 0x44 => some (s.iDma c w)
  | 0x45 => some (s.iDmaw c w)
  | 0x60 => some (s.iWload c w)
  | 0x61 => some (s.iAmul c w)
  | 0x62 => some (s.iPspill c w)
  | 0x63 => some (s.iPresume c w)
  | 0x64 => some (s.iPout c w)
  | 0x80 => some (s.iNarrow c w)
  | 0x81 => some (s.iWiden c w)
  | _ => s.vectorWord c op w

/-- The instruction of an opcode; none for a value outside the opcode table (R236). -/
def Dev.opcodeWord (s : Dev) (c op : Nat) (w : BitVec 56) : Option Dev :=
  match op with
  | 0x01 => some (s.iSop c w)
  | 0x02 => some (s.iSopi c w)
  | 0x03 => some (s.iSlih c w)
  | 0x04 => some (s.iScmp c w)
  | 0x05 => some (s.iScsr c w)
  | 0x20 => some (s.iBr c w)
  | 0x21 => some (s.iBrr c w)
  | 0x22 => some (s.iWbeat c w)
  | 0x23 => some (s.iBar c w)
  | 0x24 => some (s.iFence c w)
  | 0x25 => some (s.iLfmt c w)
  | 0x26 => some (s.iLoss c w)
  | 0x27 => some (s.iStepend c w)
  | 0x2F => some (s.iNop c w)
  | _ => s.unitWord c op w

/-- The low 56 bits of a word. -/
def tailOf (w : Word) : BitVec 56 := BitVec.ofNat 56 w.toNat

/-- Issues the instruction of a whole word on a core; an unknown opcode is illegal (R234, R236), unless its fetch faulted (R231). -/
def Dev.stepWord (s : Dev) (c : Nat) (w : Word) : Dev :=
  match s.opcodeWord c (opOf w.toNat) (tailOf w) with
  | some t => t
  | none =>
    let pc := (s.core c).pc.toNat
    if !s.mayIssue c then s
    else if payloadEnd ≤ pc then s.stopCore c Ev.CORE_ADDR pc (strideAddr c pc)
    else s.stopCore c Ev.CORE_ILLEGAL pc 0

/-- Issues a word only for its stop: a fetch outside the payload is an address fault (R231), and a word that is legal where the core
stands leaves it as it is. -/
def Dev.illegalWord (s : Dev) (c : Nat) (w : Word) : Dev :=
  let pc := (s.core c).pc.toNat
  if s.mayIssue c ∧ payloadEnd ≤ pc then s.stopCore c Ev.CORE_ADDR pc (strideAddr c pc)
  else
    let t := s.stepWord c w
    if s.mayIssue c ∧ t.fld Fld.CORE_STAT_STATE c = coreStopped ∧ t.fld Fld.CORE_STAT_CAUSE c = Ev.CORE_ILLEGAL then t else s

/-- ILLEGAL_INSTRUCTION (R234, R272). -/
def execIllegalInstruction (core : CoreId) (w : Word) (s : State) : Host.Outcome State Fault Refusal := ok s (s.dev.illegalWord core.toNat w)

/-- GILL_RESET_WRITE (R151, R165): a host's write of GILL_CTL.RESET. -/
def execGillResetWrite (port : HostPort) (core : CoreId) (s : State) : Host.Outcome State Fault Refusal :=
  ok s (s.dev.coreGate port core.toNat (fun d => d.gillReset core.toNat))

end Sys2Proof.Machine
end

