-- ==== Sys2Proof/Machine/Bushel.lean ====
section
/-!
DEFINITION. A core's program run outside a step by its own slot: a bushel's tests (R446, R467, R468) and the replay of a captured failure
(R461).
-/
namespace Sys2Proof.Machine

/-! ### A test's record (R467) -/

/-- A number of `n` bytes at an offset of a bushel's image, inside one tile. -/
def BushelRec.num (b : BushelRec) (o n : Nat) : Nat :=
  leNat (((b.tiles.getD (o / tileSize) ([], 0)).1.drop (o % tileSize)).take n)

/-- The image tiles that a test loads: its program's, then its input's. -/
def BushelRec.content (b : BushelRec) (t : Nat) : List (List Byte × Nat) :=
  let o := 64 + 32 * t
  let run (first n : Nat) : List (List Byte × Nat) := (List.range n).map (fun i => b.tiles.getD (first + i) ([], 0))
  run (b.num o 4) (b.num (o + 4) 2) ++ run (b.num (o + 8) 4) (b.num (o + 12) 2)

/-! ### The run of a test (R468) -/

/-- A slot by itself, as logical core 0 of a device that holds nothing else, its store loaded with a test's tiles and its sequencer at
ENTRY (assumption 76). -/
def BushelRec.bench (b : BushelRec) (t : Nat) : Dev :=
  let s := (Dev.reset.setPart 0 { stepping := true, issuing := true }).setFld Fld.CORE_STAT_STATE 0 coreRun
  let s := s.setCore 0 { pc := BitVec.ofNat 64 (b.num (64 + 32 * t + 16) 4 % 2 ^ 20) }
  (b.content t).zipIdx.foldl (fun s x => s.writeTile (strideAddr 0 (x.2 * tileSize)) x.1.1 x.1.2) s

/-- The units of a core finish what they hold. -/
def Dev.benchUnits (s : Dev) (c : Nat) : Dev :=
  let s := s.arrayDispatch c
  let s := s.each (s.core c).loads (fun l s => s.bankLoaded c l.array l.bank)
  let s := s.each (List.range ((s.core c).flights.foldl (fun n f => n + f.data.acts.length) 0)) (fun _ s => s.rowWriteback c none)
  ((s.edgeDispatch c).edgeComplete c).dmaComplete c 0

/-- A core runs by itself for at most a number of instructions, its units finishing before each; the instructions counted are those issued
or held, of which each takes a cycle at least. -/
def Dev.benchRun (c : Nat) : Nat → Dev → Dev
  | 0, s => s
  | n + 1, s =>
    if s.fld Fld.CORE_STAT_STATE c ≠ coreRun then s
    else
      let s := (s.benchUnits c).fetch c
      Dev.benchRun c n (s.stepWord c (s.nextWord c))

/-- Whether a test passes on a slot without defects: STEPEND within CYCLES, and the expected scruple on each output tile. -/
def BushelRec.passes (b : BushelRec) (t : Nat) : Bool :=
  let o := 64 + 32 * t
  let s := Dev.benchRun 0 (b.num (o + 24) 6) (b.bench t)
  let first := b.num (o + 4) 2 + b.num (o + 12) 2
  decide (s.fld Fld.CORE_STAT_STATE 0 = coreDone) && (List.range (b.num (o + 14) 2)).all (fun i =>
    Memory.scruple s.mem (strideAddr 0 ((first + i) * tileSize)) == b.num (b.num (o + 20) 4 + 8 * i) 8)

/-- The lowest test of a bushel that a slot without defects fails. -/
def BushelRec.firstFail (b : BushelRec) : Option Nat := (List.range b.ntest).find? (fun t => !b.passes t)

/-- The test of a bushel that a slot fails first: the lowest that its defects or the test itself make fail. -/
def BushelRec.failing (b : BushelRec) (defect : Option Nat) : Option Nat :=
  match b.firstFail, defect.filter (fun t => decide (t < b.ntest)) with
  | some x, some y => some (min x y)
  | x, y => x.or y

/-- A run of a bushel on a die uses each program and input tile it loads (R446, R447): a tile whose scruple does not hold raises its event,
with a record that names no address, for the tile lies in flash. -/
def Dev.useBushel (s : Dev) (d : Nat) (b : Option BushelRec) : Dev :=
  match b with
  | none => s
  | some b => s.each ((List.range b.ntest).flatMap b.content) (fun t s =>
    if tileScruple t.1 = t.2 then s
    else
      let code := if t.2 = poisonScruple then Ev.TILE_POISON else Ev.TILE_CHECK
      let r : LogRec := { kind := if code = Ev.TILE_CHECK then 3 else 4, event := code, severity := 2, expect := t.2, found := tileScruple t.1, bushel := b.id }
      (s.raise d code).logRecord d (s.stamp (s.partOf d) r))

/-! ### The replay of a captured failure (R461, R462) -/

/-- The state in which a capture is replayed: the core's units idle, its staging and banks as captured, its panel empty, checks on. -/
def Dev.replayBench (s : Dev) (cap : Capture) : Dev :=
  let c := cap.core
  let s := s.setMem (SMap.splice s.mem (strideAddr c 0x100000) (strideAddr c 0x11A000) cap.staging)
  let s := s.setCore c { banks := cap.banks, panels := SMap.write {} [] cap.index { cap.panel.emptied with check := {}, resumed := false } }
  s.setFld Fld.CHK_CTL_ABFT (s.corePart c) 1

/-- One entry of the tail runs to its end: a WLOAD loads its bank, an AMUL's vectors all reach the accumulator row. -/
def Dev.replayEntry (s : Dev) (c : Nat) (e : SpanEntry) : Dev :=
  let x := s.core c
  let q : ArrayOp := ⟨x.order, 0, e.word, e.a, e.b⟩
  let s := (s.setCore c { x with order := x.order + 1, arrayQ := [q] }).arrayDispatch c
  let s := s.each (s.core c).loads (fun l s => s.bankLoaded c l.array l.bank)
  s.each (List.range ((s.core c).flights.foldl (fun n f => n + f.data.acts.length) 0)) (fun _ s => s.rowWriteback c none)

/-- What a replay on a slot without defects leaves: the panel's values, and the panel with its checksums. -/
def Dev.replayTail (s : Dev) (cap : Capture) : SMap Nat × Panel :=
  let b := ((s.replayBench cap).each cap.spans (fun e s => s.replayEntry cap.core e)).closePanel cap.core cap.index
  let p := (b.core cap.core).panel cap.index
  ((p.cells.map (fun kc => (kc.1, (kc.2.outValue p.pair).1))).filter (fun v => v.2 ≠ 0), p)

/-- The values of a replay on a slot whose defects invert bits of some cells. -/
def upsetValues (vs : SMap Nat) (us : List (Nat × Nat)) : SMap Nat :=
  us.foldl (fun m u => SMap.write 0 m u.1 (SMap.read 0 m u.1 ^^^ u.2)) vs

/-- Whether a replay's values pass the check of R452. -/
def Dev.replayPasses (s : Dev) (cap : Capture) (p : Panel) (vs : SMap Nat) : Bool :=
  (p.check.compare vs p.effPromote (s.fld Fld.CHK_CTL_MARGIN (s.corePart cap.core))).all (fun x => x.failed != some true)

end Sys2Proof.Machine
end

