-- ==== Sys2Proof/Machine/SparingCmds.lean ====
section
/-!
DEFINITION. The meanings of the sparing commands (R480 to R491, R506).
-/
namespace Sys2Proof.Machine

/-- RETIREMENT (R480, R481): every due retirement that is acknowledged and that R17 allows is carried out. -/
def execRetirement (s : State) : Host.Outcome State Fault Refusal := okFlash s (Dev.lead (s.dev, s.flash))

/-- Whether SPR_CMD is refused by the power state: in IDLE and SLEEP (R532). -/
def Dev.sprPower (s : Dev) : Bool := s.power == pwrRun

/-- A RETIRE command of the owner port (R480, R483, R506, R532). -/
def Dev.cmdRetire (s : Dev) (pc : Nat) : Dev :=
  if !s.sprPower || !isSlot pc || s.retired pc || s.fenced (slotDie pc) || s.retireRefused pc then s.raiseDev Ev.SPR_REFUSED else s.queueRetire pc

/-- APPROVE: the oldest request is carried out as soon as R17 allows, unless R483 refuses it (R480, R506, R532). -/
def Dev.cmdApprove (s : Dev) : Dev :=
  match s.spr.requests.filter (fun _ => s.sprPower) with
  | [] => s.raiseDev Ev.SPR_REFUSED
  | r :: rs => if s.retireRefused r.1 then s.raiseDev Ev.SPR_REFUSED else ({ s with spr := { s.spr with requests := rs } } : Dev).queueRetire r.1

/-- DECLINE: the oldest request goes, and its slot stays in service (R480, R506, R532). -/
def Dev.cmdDecline (s : Dev) : Dev :=
  match s.spr.requests.filter (fun _ => s.sprPower) with
  | [] => s.raiseDev Ev.SPR_REFUSED
  | _ :: rs => { s with spr := { s.spr with requests := rs } }

/-- SPR_CMD_RETIRE. -/
def execSprCmdRetire (port : HostPort) (pcore : BitVec 17) (s : State) : Host.Outcome State Fault Refusal :=
  okFlash s (Dev.lead (s.dev.ownerGate port (fun d => d.cmdRetire pcore.toNat), s.flash))

/-- SPR_CMD_APPROVE. -/
def execSprCmdApprove (port : HostPort) (s : State) : Host.Outcome State Fault Refusal :=
  okFlash s (Dev.lead (s.dev.ownerGate port Dev.cmdApprove, s.flash))

/-- SPR_CMD_DECLINE. -/
def execSprCmdDecline (port : HostPort) (s : State) : Host.Outcome State Fault Refusal :=
  ok s (s.dev.ownerGate port Dev.cmdDecline)

/-- The fill of a cluster in a step, where the lead may act on it (R492, R496). -/
def Dev.fillAt (s : Dev) (d k step : Nat) : Option Fill :=
  (s.fillOf d k).filter (fun fl => fl.step == step && s.mayAct 2 (slotId d k fl.slot))

/-- A self-test of a fill in its first step ends (R484, R488). -/
def Dev.fillTested (s : Dev) (f : Flash) (d k : Nat) (pass : Bool) : Dev :=
  match s.fillAt d k 1 with
  | none => s
  | some fl => if pass then s.afterSelfTest f fl else s.failFill fl

/-- A bushel run of a fill in its second step ends: it passes when every test does and the slot is sound (R468, R484, R488). -/
def Dev.fillBushel (s : Dev) (d k : Nat) (sound : Bool) : Dev :=
  match s.fillAt d k 2 with
  | none => s
  | some fl =>
    let s := s.useBushel d fl.bushel
    if sound && (fl.bushel.bind BushelRec.firstFail).isNone then s.setFillStep d k 3 none else s.failFill fl

/-- The content of a fill in its third step is in place (R484): between steps, for the fills within one step boundary share the rewrite of
RESIDENT (DEDUCED, assumption 75), and where no bridge down inside the partition keeps the image away (R24; assumption 74). -/
def Dev.fillContent (s : Dev) (d k : Nat) : Dev :=
  let p := s.partOf d
  match (s.fillAt d k 3).filter (fun _ => s.remapFree d && !((s.part p).plan.isSome && s.bridgeStops p)) with
  | none => s
  | some fl => s.finishFill fl

/-- FILL_SELF_TEST_DONE (R484, R488); the last of a die in CORES ends its stage (R519). -/
def execFillSelfTestDone (die : DieId) (cluster : BitVec 9) (pass : Bool) (s : State) : Host.Outcome State Fault Refusal :=
  okFlash s (Dev.lead (s.dev.fillTested s.flash die cluster.toNat pass, s.flash))

/-- FILL_BUSHEL_DONE (R484, R488). -/
def execFillBushelDone (die : DieId) (cluster : BitVec 9) (sound : Bool) (s : State) : Host.Outcome State Fault Refusal :=
  okFlash s (Dev.lead (s.dev.fillBushel die cluster.toNat sound, s.flash))

/-- FILL_CONTENT_DONE (R484). -/
def execFillContentDone (die : DieId) (cluster : BitVec 9) (ue : List (BitVec 52)) (s : State) : Host.Outcome State Fault Refusal :=
  okFlash s (Dev.lead (s.dev.withUe (ue.map (fun a => a.toNat)) (fun d => d.fillContent die cluster.toNat), s.flash))

end Sys2Proof.Machine
end

