-- ==== Sys2Proof/Machine/TestCmds.lean ====
section
/-!
DEFINITION. Diagnosis, the fault log's acknowledgement, bushels, rolling tests and whole-device tests (R461 to R478, R559).
-/
namespace Sys2Proof.Machine

/-! ### Diagnosis (R461, R462) -/

/-- The class of a capture and the slot it is PERMANENT for (R462): `same` says that the two replays agree bit for bit, the others that
the replay on the failing slot and the one on the capture slot pass their checks. -/
def Capture.classify (cap : Capture) (same failPass capPass : Bool) : Nat × Option Nat :=
  match cap.capSlot with
  | none => (clsUnresolved, none)
  | some x =>
    if cap.spans.isEmpty then (clsUnresolved, none)
    else if same then (if capPass then clsTransient else clsData, none)
    else if capPass then (clsPermanent, some cap.slot)
    else if failPass then (clsPermanent, some x)
    else (clsUnresolved, none)

/-- The event of a class. -/
def clsEvent (cls : Nat) : Nat :=
  if cls = clsTransient then Ev.CHK_TRANSIENT
  else if cls = clsPermanent then Ev.CHK_PERMANENT
  else if cls = clsData then Ev.CHK_DATA
  else Ev.CHK_UNRESOLVED

/-- One capture of a partition is replayed on both slots and classified; the last one ends the diagnosis. `failing` and `taken` are the
bits that defects of the failing slot and of the capture slot invert in the cells of their replays. -/
def Dev.diagnose (s : Dev) (p index : Nat) (failing taken : List (Nat × Nat)) : Dev :=
  let x := s.part p
  match x.captures[index]? with
  | none => s
  | some cap =>
    if !s.flag Fld.CHK_STAT_DIAG p then s
    else
      let q := s.replayTail cap
      let rs := upsetValues q.1 failing
      let rx := upsetValues q.1 taken
      let r := cap.classify (decide (rs = rx)) (s.replayPasses cap q.2 rs) (s.replayPasses cap q.2 rx)
      let d := coreDie cap.core
      let s := (s.raise d (clsEvent r.1)).logRecord d (cap.logRec r.1 (s.reg .PLAN_ID p))
      let s := match r.2 with
        | some pc => s.requestRetire pc 1
        | none => s
      let left := x.captures.eraseIdx index
      let s := (s.setFld Fld.CHK_STAT_LAST p r.1).setPart p { s.part p with captures := left }
      if left.isEmpty then s.setFld Fld.CHK_STAT_DIAG p 0 else s

/-- DIAGNOSIS (R461, R462). -/
def execDiagnosis (part : DieId) (index : Nat) (failing taken : List (BitVec 12 × BitVec 32)) (s : State) : Host.Outcome State Fault Refusal :=
  let cells (us : List (BitVec 12 × BitVec 32)) : List (Nat × Nat) := us.map (fun u => (u.1.toNat, u.2.toNat))
  okFlash s (Dev.lead (s.dev.diagnose part index (cells failing) (cells taken), s.flash))

/-! ### The fault log (R463, R477) -/

/-- Frees the oldest records of a die's log. -/
def Dev.logAck (s : Dev) (d n : Nat) : Dev :=
  let k := min n (s.fld Fld.CHK_LOGSTAT_COUNT d)
  (s.setFld Fld.CHK_LOGSTAT_HEAD d (s.fld Fld.CHK_LOGSTAT_HEAD d + k)).setFld Fld.CHK_LOGSTAT_COUNT d (s.fld Fld.CHK_LOGSTAT_COUNT d - k)

/-- CHK_LOGACK. -/
def execChkLogack (port : HostPort) (die : DieId) (value : Word) (s : State) : Host.Outcome State Fault Refusal :=
  ok s (s.dev.dieGate port die (fun d => d.logAck die (bits value.toNat 5 0)))

/-! ### Bushels (R467, R469, R559) -/

/-- Whether a test record at image offset `o` keeps the rules of R467; `tiles` counts the tiles before the signature tile. -/
def Dev.bushelTestOk (s : Dev) (a tiles o : Nat) : Bool :=
  let rd := s.imageNum a
  let np := rd (o + 4) 2
  let ni := rd (o + 12) 2
  let no := rd (o + 14) 2
  let entry := rd (o + 16) 4
  let exp := rd (o + 20) 4
  decide (1 ≤ np) && decide (np ≤ 255) && decide (rd (o + 6) 2 = 0) && decide (ni ≤ 254) && decide (1 ≤ no) && decide (no ≤ 254)
    && decide (np + ni + no ≤ 255) && decide (entry < 2 ^ 20) && decide (entry % 8 = 0) && decide (exp % 8 = 0)
    && decide (rd (o + 30) 2 = 0) && decide (rd o 4 + np ≤ tiles) && decide (ni = 0 ∨ rd (o + 8) 4 + ni ≤ tiles)
    && decide (exp + 8 * no ≤ tiles * tileSize)

/-- A bushel image at an address, when its format is the one of R467; its digest is that of every byte before the signature tile. -/
def Dev.parseBushel (s : Dev) (p a : Nat) : Option BushelRec :=
  let rd := s.imageNum a
  let len := rd 16 8
  let n := rd 14 2
  let tiles := len / tileSize - 1
  if a % tileSize = 0 ∧ s.tilesInHbm p a 1 ∧ rd 0 8 = 0x4C45485355425846 ∧ 1 ≤ n ∧ n ≤ 4096 ∧ len % tileSize = 0 ∧ tileSize < len
      ∧ len ≤ 0x1000000 ∧ rd 24 4 ≤ 10000000 ∧ s.tilesInHbm p a (len / tileSize) ∧ 64 + 32 * n ≤ tiles * tileSize
      ∧ (Memory.bytes s.mem (a + 28) 36).all (fun b => b == 0) ∧ (List.range n).all (fun t => s.bushelTestOk a tiles (64 + 32 * t)) then
    some ⟨rd 8 4, rd 12 2, n, rd 24 4, leNat (shake256 (Memory.bytes s.mem a (tiles * tileSize))), true,
      (List.range tiles).map (fun t => (s.tile (a + t * tileSize), s.scrupleOf (a + t * tileSize)))⟩
  else none

/-- The address of the signature tile of an image of LENGTH bytes. -/
def Dev.lastTile (s : Dev) (a : Nat) : List Byte := s.tile (a + s.imageNum a 16 8 - tileSize)

/-- Queues a flash write (R559). -/
def Dev.queueFlash (s : Dev) (w : FlashWrite) : Dev := { s with sec := { s.sec with flashQ := s.sec.flashQ ++ [w] } }

/-- The keys of a kind in the running firmware's list (R556, R567). -/
def Dev.fwKeys (s : Dev) (kind : Nat) : List Nat :=
  match s.sec.running with
  | some r => (r.keys.filter (fun k => k.2 == kind)).map (fun k => k.1)
  | none => []

/-- The bushels as they will stand when every waiting write is done, which a new bushel's version is judged against (R469; DESIGN CHOICE,
assumption 84). -/
def Dev.bushelsAhead (s : Dev) (f : Flash) : List BushelRec :=
  s.sec.flashQ.foldl (fun bs w => match w with
    | .bushel n r => (bs.map (fun b => if b.id = r.id then { b with valid := false } else b)).set n r
    | _ => bs) f.bushels

/-- An install request (R469, R532). -/
def Dev.installBushel (s : Dev) (f : Flash) (p v : Nat) : Dev :=
  let a := bits v 51 0
  let slot := bits v 54 52
  let s := s.readImage a (fun n => s.tilesInHbm p a n)
  match (s.parseBushel p a).filter (fun _ => s.running) with
  | none => s.raiseDev Ev.BUSHEL_REFUSED
  | some r =>
    if !sigTileOk "FENRAM-TX4-BUSH" (leBytes 64 r.digest) (s.lastTile a) (s.fwKeys 1) then s.raiseDev Ev.BUSHEL_SIG_BAD
    else if (s.bushelsAhead f).zipIdx.any (fun b => b.2 != slot && b.1.valid && b.1.id == r.id && decide (r.version < b.1.version)) then
      s.raiseDev Ev.BUSHEL_REFUSED
    else s.queueFlash (.bushel slot r)

/-- TEST_BINST (R469, R478). -/
def execTestBinst (port : HostPort) (value : Word) (ue : List (BitVec 52)) (s : State) : Host.Outcome State Fault Refusal :=
  ok s (s.dev.ownerGate port (fun d => d.withUe (ue.map (fun a => a.toNat)) (fun d => d.installBushel s.flash (d.partOf port) value.toNat)))

/-- What a flash write leaves in flash when it completes (R469, R556, R559, R561). -/
def FlashWrite.apply (w : FlashWrite) (f : Flash) : Flash :=
  match w with
  | .fw r => { f with fw := some r }
  | .bushel n r => { f with bushels := (f.bushels.map (fun b => if b.id = r.id then { b with valid := false } else b)).set n r }
  | .keys t => { f with keysA := ⟨true, t⟩, keysB := ⟨true, t⟩ }
  | .retire pc => f.addRetired pc

/-- The first waiting flash write completes (R558, R559, R562). -/
def Dev.flashWritten (s : Dev) (f : Flash) : Dev × Flash :=
  match s.sec.flashQ with
  | [] => (s, f)
  | w :: ws =>
    let s := { s with sec := { s.sec with flashQ := ws } }
    let s := match w with
      | .fw _ => (s.setFld Fld.SEC_STAT_FWBUSY 0 0).raiseDev Ev.FW_UPDATE_DONE
      | .keys _ => s.raiseDev Ev.SEC_KEYS
      | _ => s
    (s, w.apply f)

/-- FLASH_WRITE_COMPLETE (R559): a retirement that is in flash now goes on (R482). -/
def execFlashWriteComplete (s : State) : Host.Outcome State Fault Refusal := okFlash s (Dev.lead (s.dev.flashWritten s.flash))

/-! ### Rolling tests (R471, R472) -/

/-- A rolling test in a phase. -/
def Dev.swapIn? (s : Dev) (d k phase : Nat) : Option SwapTest := (s.swapOf d k).filter (fun t => t.phase == phase)

/-- The boundary copy of a rolling test completes, once its step is the next or the one in progress (R471). -/
def Dev.rollingCopied (s : Dev) (d k : Nat) : Dev :=
  match (s.swapIn? d k 1).filter (fun t => t.step == s.step (s.partOf d)) with
  | none => s
  | some t => s.putSwap (s.boundaryCopy t 2)

/-- ROLLING_COPY_COMPLETE (R471). -/
def execRollingCopyComplete (die : DieId) (cluster : BitVec 9) (s : State) : Host.Outcome State Fault Refusal :=
  okFlash s (Dev.lead (s.dev.rollingCopied die cluster.toNat, s.flash))

/-- A failed rolling test: the event, the record, and the freed slot retired at once (R472, R480). -/
def Dev.rollingFailed (s : Dev) (t : SwapTest) (test : Nat) : Dev :=
  let pc := slotId t.die t.cluster t.tested
  let s := s.raise t.die Ev.TEST_FAIL
  let s := s.logRecord t.die (s.stamp (s.partOf t.die) { kind := 6, event := Ev.TEST_FAIL, pcore := pc, bushel := t.bushel.id, test := test })
  (s.putSwap { t with phase := 7 }).queueRetire pc

/-- A rolling test ends with what its bushel finds on the freed slot, `defect` being the first test that the slot's own defects make fail: a
pass begins the copy back. -/
def Dev.rollingTested (s : Dev) (d k : Nat) (defect : Option Nat) : Dev :=
  match s.swapIn? d k 3 with
  | none => s
  | some t =>
    let s := s.useBushel d (some t.bushel)
    match t.bushel.failing defect with
    | none => s.putSwap (s.copyFrom t 4)
    | some n => s.rollingFailed t n

/-- ROLLING_TEST_COMPLETE (R472). -/
def execRollingTestComplete (die : DieId) (cluster : BitVec 9) (defect : Option (BitVec 16)) (s : State) :
    Host.Outcome State Fault Refusal := okFlash s (Dev.lead (s.dev.rollingTested die cluster.toNat (defect.map (fun n => n.toNat)), s.flash))

/-- The copy back completes; the switch back follows at once while no plan runs, else at the next step start (R471). -/
def Dev.swapBackCopied (s : Dev) (d k : Nat) : Dev :=
  match s.swapIn? d k 4 with
  | none => s
  | some t => s.putSwap (s.boundaryCopy t 5)

/-- SWAP_BACK_COPY_COMPLETE (R471). -/
def execSwapBackCopyComplete (die : DieId) (cluster : BitVec 9) (s : State) : Host.Outcome State Fault Refusal :=
  okFlash s (Dev.lead (s.dev.swapBackCopied die cluster.toNat, s.flash))

/-! ### Whole-device tests (R474, R478) -/

/-- The partitions that contain a die of a mask. -/
def Dev.maskParts (s : Dev) (mask : Nat) : List Nat := s.partitions.filter (fun p => (s.diesOf p).any (fun d => mask.testBit d))

/-- Those that run a plan. -/
def Dev.maskRunning (s : Dev) (mask : Nat) : List Nat := (s.maskParts mask).filter (fun p => s.planState p == 3)

/-- The test starts, with the bushel its slot holds now. -/
def Dev.testBegin (s : Dev) (f : Flash) : Dev :=
  let b := (f.bushels[s.sec.testSlot]?).filter (fun b => b.valid)
  ({ s with sec := { s.sec with testBushel := b } } : Dev).setFld Fld.TEST_STAT_STATE 0 2

/-- A running partition is forced to stop for a test. -/
def Dev.testForce (s : Dev) (p : Nat) : Dev :=
  let s := (s.raise p Ev.TEST_FORCED).unclean p Ev.TEST_FORCED
  if (s.part p).stepping then s.setPart p { s.part p with stopReq := true } else s.toLoaded p

/-- A write of TEST_CMD by the owner port (R474, R478, R532). -/
def Dev.testCmd (s : Dev) (f : Flash) (v : Nat) : Dev :=
  let mask := bits v 5 0
  let st := s.fld Fld.TEST_STAT_STATE 0
  if mask = 0 then s
  else if st = 1 ∨ st = 2 ∨ !s.running then s.raiseDev Ev.TEST_BUSY
  else
    let run := s.maskRunning mask
    if !run.isEmpty && !s.flag Fld.TEST_CTL_FORCE 0 then (s.setFld Fld.TEST_STAT_RESULT 0 3).raiseDev Ev.TEST_BUSY
    else
      let s := { s with sec := { s.sec with testDies := mask, testSlot := bits v 10 8 } }
      let s := (s.setFld Fld.TEST_STAT_RESULT 0 0).setFld Fld.TEST_STAT_NFAIL 0 0
      if run.isEmpty then s.testBegin f
      else (s.each run (fun p s => s.testForce p)).setFld Fld.TEST_STAT_STATE 0 1

/-- TEST_CMD (R474, R478). -/
def execTestCmd (port : HostPort) (value : Word) (s : State) : Host.Outcome State Fault Refusal :=
  ok s (s.dev.ownerGate port (fun d => d.testCmd s.flash value.toNat))

/-- A waiting test starts once no selected partition runs and no drain is in progress (R474). -/
def Dev.testStart (s : Dev) (f : Flash) : Dev :=
  let ps := s.maskParts s.sec.testDies
  if s.fld Fld.TEST_STAT_STATE 0 = 1 ∧ (s.maskRunning s.sec.testDies).isEmpty
      ∧ ps.all (fun p => decide (s.fld Fld.CTX_DSTAT_STATE p ≠ 1)) then s.testBegin f
  else s

/-- DEVICE_TEST_START (R474). -/
def execDeviceTestStart (s : State) : Host.Outcome State Fault Refusal := ok s (s.dev.testStart s.flash)

/-- The slots a device test runs on: every slot of its dies that is not retired. -/
def Dev.testSlots (s : Dev) : List Nat :=
  ((List.range 6).filter (fun d => s.sec.testDies.testBit d && !s.fenced d)).flatMap (fun d =>
    (List.range 272).flatMap (fun k => ((List.range 17).map (slotId d k)).filter (fun pc => !s.retired pc)))

/-- The failing slots of a device test, each with its lowest failing test; `defects` are the tests that slots' own defects make fail. -/
def Dev.testFails (s : Dev) (defects : List (Nat × Nat)) : List (Nat × Nat) :=
  match s.sec.testBushel with
  | none => []
  | some b =>
    let of (pc : Nat) : Option Nat := ((defects.filter (fun x => x.1 == pc)).map (fun x => x.2)).foldl (fun m t => some (min t (m.getD t))) none
    let slots := if b.firstFail.isSome then s.testSlots else (defects.map (fun x => x.1)).eraseDups.filter (fun pc =>
      isSlot pc && s.sec.testDies.testBit (slotDie pc) && !s.fenced (slotDie pc) && !s.retired pc)
    slots.filterMap (fun pc => (b.failing (of pc)).map (fun t => (pc, t)))

/-- Reloads a partition from its plan: every core of it from PROGRAM, and RESIDENT; the stores of the other cores on the tested dies hold what the
test left (R474). Banks and panels stay as they are (DESIGN CHOICE, assumption 83). A failing image tile is handled as at a fill (R599). -/
def Dev.testReload (s : Dev) (p : Nat) : Dev :=
  let mask := s.sec.testDies
  let plan := (s.part p).plan
  let mine := (((plan.map (fun pl => pl.cores)).getD [])).filter (fun c => s.present c.core)
  let others := ((s.diesOf p).filter (fun d => mask.testBit d)).flatMap (fun d =>
    (List.range 272).flatMap (fun k => ((List.range 16).map (coreId d k)).filter (fun c => s.present c && mine.all (fun m => m.core != c))))
  let s := s.each others (fun c s => s.loseStore c)
  match plan with
  | none => s
  | some pl =>
    let r := mine.foldl (fun (acc : Dev × Option Nat) c =>
      let q := acc.1.loadProgram p pl true c
      (q.1, q.2.1.or acc.2)) (s, none)
    let q := r.1.copyImage p pl true pl.residentTiles
    q.1.imageFailed p (q.2.1.or r.2)

/-- A slot that failed a whole-device test (R463, R474, R480). -/
def Dev.testFailed (s : Dev) (x : Nat × Nat) : Dev :=
  let d := slotDie x.1
  let s := s.raise d Ev.TEST_FAIL
  let r : LogRec := { kind := 7, event := Ev.TEST_FAIL, pcore := x.1, bushel := (s.sec.testBushel.map (fun b => b.id)).getD 0, test := x.2 }
  (s.logRecord d (s.stamp (s.partOf d) r)).requestRetire x.1 2

/-- The test ends. -/
def Dev.testEnd (s : Dev) (defects : List (Nat × Nat)) : Dev :=
  if s.fld Fld.TEST_STAT_STATE 0 ≠ 2 then s
  else
    let bad := s.testFails defects
    let s := s.each ((List.range 6).filter (fun d => s.sec.testDies.testBit d && !s.fenced d)) (fun d s => s.useBushel d s.sec.testBushel)
    let ps := s.maskParts s.sec.testDies
    let s := s.each bad (fun x s => s.testFailed x)
    let s := s.each ps (fun p s => s.testReload p)
    let s := (s.setFld Fld.TEST_STAT_NFAIL 0 bad.length).setFld Fld.TEST_STAT_RESULT 0 (if bad.isEmpty then 1 else 2)
    s.setFld Fld.TEST_STAT_STATE 0 3

/-- DEVICE_TEST_COMPLETE (R474). -/
def execDeviceTestComplete (defects : List (BitVec 17 × BitVec 16)) (ue : List (BitVec 52)) (s : State) : Host.Outcome State Fault Refusal :=
  okFlash s (Dev.lead (s.dev.withUe (ue.map (fun a => a.toNat)) (fun d => d.testEnd (defects.map (fun x => (x.1.toNat, x.2.toNat)))), s.flash))

end Sys2Proof.Machine
end

