-- ==== Sys2Proof/Machine/BringUp.lean ====
section
/-!
DEFINITION. Module reset, the rails, the standby controller's SMBus commands, and bring-up from T0 to READY (R494, R503, R504, R509 to
R527, R540, R546, R557, R561, R590).
-/
namespace Sys2Proof.Machine

/-! ### Module reset (R504, R509, R559, R590) -/

/-- A flash write that a reset cuts off leaves nothing usable of what it was writing; of the two copies of the key table it was
writing one, as of the retirement list (R559). -/
def Dev.cutFlash (s : Dev) (f : Flash) : Flash :=
  match s.sec.flashQ with
  | .fw _ :: _ => { f with fw := none }
  | .bushel n _ :: _ => { f with bushels := f.bushels.set n BushelRec.empty }
  | .keys _ :: _ => { f with keysA := { f.keysA with ok := false } }
  | .retire _ :: _ => { f with retireA := { f.retireA with ok := false } }
  | [] => f

/-- The optical signals at the fabric ports, which no reset of the module ends. -/
def Dev.signals (s : Dev) : SMap FabPortSt :=
  (List.range 36).foldl (fun m p => if (s.fabPort p).signal then SMap.write {} m p { signal := true } else m) []

/-- The module as a reset leaves it: everything at reset but the standby controller's own state and what lies outside the module. -/
def Dev.resetState (s : Dev) : Dev :=
  let d : Dev := { Dev.reset with fab := s.signals, now := s.now, fresh := s.fresh, out := s.out }
  { d with sby := { input := s.sby.input, resetHeld := s.sby.resetHeld, sagHold := s.sby.sagHold, trip := s.sby.trip, samples := s.sby.samples
                    powers := s.sby.powers, tins := s.sby.tins, touts := s.sby.touts, lastHeartbeat := s.sby.lastHeartbeat
                    leadSeen := s.sby.leadSeen, straps := s.sby.straps, ir := s.sby.ir } }

/-- A module reset of a cause; PWR_RSTCAUSE stays with the standby controller (R553). -/
def Dev.moduleReset (s : Dev) (f : Flash) (cause : Nat) : Dev × Flash :=
  (((s.resetState).setReg .PWR_RSTCAUSE 0 (s.reg .PWR_RSTCAUSE 0)).setFld Fld.PWR_RSTCAUSE_CAUSE 0 cause, s.cutFlash f)

/-- Whether the standby controller answers RESET_N, WAKE and the SMBus resets: it has power, and no thermal trip holds (R595). -/
def Dev.standby (s : Dev) : Bool := s.sby.input && !s.sby.trip

/-- The input arrives: nothing is remembered but flash; the level at RESET_N is the carrier's (R509, R547, R553, R590). -/
def Dev.powerUp (s : Dev) (f : Flash) : Dev × Flash :=
  let d : Dev := { Dev.reset with fab := s.signals, now := s.now, fresh := s.fresh, out := s.out }
  ({ d with sby := { d.sby with resetHeld := s.sby.resetHeld } }, s.cutFlash f)

/-- The SMBus address that the straps select (R589). -/
def smbAddress (straps : Nat) : Nat := 0x5C + straps

/-- POWER_APPLICATION (R509): the standby controller reads SMB_ADDR0 and SMB_ADDR1 (R589). -/
def execPowerApplication (addr0 addr1 : Bool) (s : State) : Host.Outcome State Fault Refusal :=
  let r := s.dev.powerUp s.flash
  okFlash s ({ r.1 with sby := { r.1.sby with straps := b2n addr0 + 2 * b2n addr1 } }, r.2)

/-- RESET_N is low (R504, R590); where no reset follows its level counts alone. -/
def execResetN (s : State) : Host.Outcome State Fault Refusal :=
  let r := if s.dev.standby then s.dev.moduleReset s.flash 1 else (s.dev, s.flash)
  okFlash s ({ r.1 with sby := { r.1.sby with resetHeld := true } }, r.2)

/-- RESET_N_RELEASE (R509, R590). -/
def execResetNRelease (s : State) : Host.Outcome State Fault Refusal := ok s { s.dev with sby := { s.dev.sby with resetHeld := false } }

/-! ### The standby controller on SMBus (R503, R589) -/

/-- Milliseconds since the last heartbeat of a lead, saturating. -/
def Dev.heartbeatAge (s : Dev) : Nat :=
  match s.sby.lastHeartbeat with
  | some t => min 0xFFFF ((s.now - t) / msUnits)
  | none => 0xFFFF

/-- Whether a heartbeat was seen in the last 100 ms. -/
def Dev.heartbeatSeen (s : Dev) : Bool :=
  match s.sby.lastHeartbeat with
  | some t => decide (s.now - t ≤ 100 * msUnits)
  | none => false

/-- Whether the standby controller takes an SMBus command: it has power, the command names its address, and a PEC byte matches (R589). -/
def Dev.smbTakes (s : Dev) (addr : BitVec 7) (pec : Bool) : Bool := s.sby.input && pec && addr.toNat == smbAddress s.sby.straps

/-- SMB_CSTATUS (R503). -/
def execSmbCstatus (addr : BitVec 7) (pec : Bool) (s : State) : Host.Outcome State Fault Refusal :=
  let d := s.dev
  ok s (if d.smbTakes addr pec then d.emit (.smbus (b2n d.heartbeatSeen + 2 * (d.sby.leadSeen % 8) + 16 * b2n d.sby.pwrGood) 8) else d)

/-- SMB_HBAGE (R503). -/
def execSmbHbage (addr : BitVec 7) (pec : Bool) (s : State) : Host.Outcome State Fault Refusal :=
  ok s (if s.dev.smbTakes addr pec then s.dev.emit (.smbus s.dev.heartbeatAge 16) else s.dev)

/-- SMB_RESET (R503). -/
def execSmbReset (addr : BitVec 7) (b : Byte) (pec : Bool) (s : State) : Host.Outcome State Fault Refusal :=
  if s.dev.smbTakes addr pec && s.dev.standby && b == 0x5A then okFlash s (s.dev.moduleReset s.flash 2) else ok s s.dev

/-- SMB_PWRCYCLE (R503). -/
def execSmbPwrcycle (addr : BitVec 7) (b : Byte) (pec : Bool) (s : State) : Host.Outcome State Fault Refusal :=
  if s.dev.smbTakes addr pec && s.dev.standby && b == 0xA5 then okFlash s (s.dev.moduleReset s.flash 3) else ok s s.dev

/-! ### Rails (R510) -/

/-- Whether the rails are rising: no reset, sag hold or trip, not given up, and not parked in DEEP or OFF. -/
def Dev.railsRising (s : Dev) : Bool :=
  s.standby && !s.sby.pwrGood && !s.sby.resetHeld && !s.sby.sagHold && !s.sby.railsOff && decide (s.power < pwrDeep)

/-- What the standby controller gives back at T0 of a wake from DEEP (R537, R573), with what only a module reset ends (R300, R502, R558);
the remap registers wait for REMAP. -/
def Dev.restoreKept (s : Dev) : Dev :=
  match s.sby.retained with
  | none => s
  | some k =>
    let back (s : Dev) (r : RegKind) (i : Nat) : Dev :=
      s.setReg r i (SMap.read (BitVec.ofNat 64 (regReset r i)) k.regs (regKey r i)).toNat
    let s := (back s .HLK_PARTCFG 0)
    let s := (s.setRoles (s.reg .HLK_PARTCFG 0))
    let s := back (back s .PWR_RETAIN 0) .PLAN_CTL 0
    let s := s.setFld Fld.SEC_STAT_RESETREQ 0 ((SMap.read 0 k.regs (regKey .SEC_STAT 0)).toNat / 16 % 2)
    let s := s.each (List.range 6) (fun d s => back (back s .FAB_PARTSLICE d) .PWR_LPREG d)
    let s := s.setFld Fld.DBG_STAT_D2SEEN 0 ((SMap.read 0 k.regs (regKey .DBG_STAT 0)).toNat / 4 % 2)
    s.each ((List.range 6).filter (fun d => (SMap.read (BitVec.ofNat 64 (regReset .CTL_DIECFG d)) k.regs (regKey .CTL_DIECFG d)).toNat.testBit 4)) (fun d s =>
      let s := ((s.setFld Fld.CTL_DIECFG_FENCED d 1).setFld Fld.CTL_DBOOT_STAGE d stFailed).setFld Fld.HLK_PSTAT_LINK d 0
      let s := s.setRole d rlDown
      if d = 0 then s.identityLost else s)

/-- T0: PWR_GOOD rises, the dies' ROMs run, host ports train and the nonces are fresh (R510, R511, R515, R571). -/
def Dev.timeZero (s : Dev) : Dev :=
  let s := { s with sby := { s.sby with pwrGood := true }, ctl := { s.ctl with t0 := some s.now } }
  let s := s.each (List.range 6) (fun d s => (s.setFld Fld.CTL_DBOOT_STAGE d stRom).setFld Fld.HLK_PSTAT_LINK d 1)
  let s := s.each (List.range 7) (fun j s => s.setFld Fld.CTL_BRG_UP j 1)
  let a := s.nonce
  let b := (a.2.setReg .HLK_OWNNONCE 0 a.1).nonce
  let s := (b.2.setReg .DBG_NONCE 0 b.1).setStage stRom
  if s.sby.deepWake then s.restoreKept else s

/-- RAILS_GOOD (R510). -/
def execRailsGood (s : State) : Host.Outcome State Fault Refusal := ok s (if s.dev.railsRising then s.dev.timeZero else s.dev)

/-- RAILS_TIMEOUT (R510): the rails are removed. -/
def execRailsTimeout (s : State) : Host.Outcome State Fault Refusal :=
  let d := s.dev
  ok s (if d.railsRising then { d with sby := { d.sby with railsOff := true, railTries := d.sby.railTries + 1 } } else d)

/-- RAILS_RETRY (R510): tried again, three times in all. -/
def execRailsRetry (s : State) : Host.Outcome State Fault Refusal :=
  let d := s.dev
  ok s (if d.sby.railTries < 3 then { d with sby := { d.sby with railsOff := false } } else d)

/-! ### ROM (R522, R557, R560, R564, R565) -/

/-- Raises the fuse floor to an image's SVN where it asks for that; the floor never falls or passes 64 (R557). -/
def Flash.raiseFloor (f : Flash) (r : FwRec) : Flash := if r.raise ∧ f.floor < r.svn ∧ r.svn ≤ 64 then { f with floor := r.svn } else f

/-- A loader accepts its image: the die's controller runs it. -/
def Dev.romAccept (s : Dev) (d : Nat) (r : FwRec) : Dev :=
  ({ s with ctl := { s.ctl with verified := s.ctl.verified ++ [d] }, sec := { s.sec with running := some r } } : Dev).setDieStage d stElect

/-- The lead burns the fuses that the running image asks for (R557). -/
def Dev.burnFloor (s : Dev) (f : Flash) : Dev × Flash :=
  let g := match s.sec.running with
    | some r => if s.hasLead then f.raiseFloor r else f
    | none => f
  (if g.floor = f.floor then s else s.raiseDev Ev.SEC_SVN_RAISED, g)

/-- The public key of the identity that die controller 0 derives from a response of its physical unclonable function and the helper data: the
secret key is SHAKE256 over the corrected response and "FENRAM-TX4-IDENT" (R564). -/
def derivedKey (response helper : List Byte) : Nat :=
  Ed448.publicKey (shake 57 (Config.corrected response helper ++ Ed448.ascii "FENRAM-TX4-IDENT"))

/-- Whether the derived key is the certified one, its helper data readable (R564, R565). -/
def Flash.identifies (f : Flash) (response : List Byte) : Bool := f.helper.any (fun h => derivedKey response h == f.certKey)

/-- A loader rejects its image and stays in the ROM recovery loader (R557, R577). -/
def Dev.romReject (s : Dev) (d : Nat) : Dev :=
  let s := { s with ctl := { s.ctl with rejected := s.ctl.rejected ++ [d] } }
  (s.logRecord d (LogRec.security 0x80 Ev.FW_VERIFY_FAIL 0)).raiseDev Ev.FW_VERIFY_FAIL

/-- A die's loader finishes; on die 0 the identity key is derived (R564, R565). -/
def Dev.romVerify (s : Dev) (f : Flash) (d : Nat) (response : List Byte) : Dev :=
  if !s.booting || s.dieStage d != stRom || s.ctl.verified.contains d || s.ctl.rejected.contains d || s.fenced d || s.ctl.elected then s
  else
    let s := if d ≠ 0 then s else if f.identifies response then s.setFld Fld.SEC_STAT_IDOK 0 1 else s.identityLost
    match f.fw.filter (fun r => r.accepted f) with
    | some r => s.romAccept d r
    | none => s.romReject d

/-- ROM_VERIFY (R557, R564): `response` is what die 0's physical unclonable function answers. -/
def execRomVerify (die : DieId) (response : List Byte) (s : State) : Host.Outcome State Fault Refusal :=
  ok s (s.dev.romVerify s.flash die response)

/-- No controller verifies its firmware in time: every die runs the recovery loader (R522, R560). -/
def Dev.romDeadline (s : Dev) : Dev :=
  if !s.booting || !s.ctl.verified.isEmpty || s.ctl.elected then s
  else
    let s := s.each s.liveDies (fun d s => s.setFld Fld.CTL_DBOOT_STAGE d stRecovery)
    (s.setFld Fld.SEC_STAT_RDIE 0 (s.liveDies.headD 0)).setStage stRecovery

/-- ROM_DEADLINE (R522). -/
def execRomDeadline (s : State) : Host.Outcome State Fault Refusal := ok s s.dev.romDeadline

/-! ### Election (R494, R499, R512, R522) -/

/-- A controller of a higher TERM leads: the former lead stops and follows, and a NEXT is appointed anew (R499). -/
def Dev.higherTerm (s : Dev) (d t : Nat) : Dev :=
  let old := s.leadDie
  let s := if old = d then s else s.setRole old rlFollower
  let wasNext := s.nextDie == some d
  let s := ((s.setFld Fld.CTL_ELECT_TERM 0 t).setFld Fld.CTL_ELECT_LEAD 0 d).setRole d rlLead
  if wasNext || s.nextDie.isNone then s.appointNext else s

/-- A controller announces itself on both paths: in the election, with verified firmware; later, a lead of a higher TERM (R494, R499, R512). -/
def Dev.announce (s : Dev) (d t : Nat) : Dev :=
  if !s.alive || s.fenced d then s
  else if !s.ctl.elected then
    if s.booting && s.ctl.verified.contains d && !s.ctl.announced.contains d then
      ({ s with ctl := { s.ctl with announced := s.ctl.announced ++ [d], windowOpen := true } } : Dev).ctlSendAll d .announce
    else s
  else if s.hasLead && s.role d != rlDown && decide (s.term < t) then (s.higherTerm d t).ctlSendAll d (.lead t)
  else s

/-- ELECTION_ANNOUNCE (R494, R499). -/
def execElectionAnnounce (die : DieId) (term : BitVec 16) (s : State) : Host.Outcome State Fault Refusal := ok s (s.dev.announce die term.toNat)

/-- The lead is elected; controllers that did not announce are reset once (R494). -/
def Dev.elect (s : Dev) (lead : Nat) (ds : List Nat) : Dev :=
  let s := { s with ctl := { s.ctl with elected := true, windowOpen := false } }
  let s := (s.setFld Fld.CTL_ELECT_LEAD 0 lead).setFld Fld.CTL_ELECT_TERM 0 1
  let s := s.raiseDev Ev.CTL_ELECTED
  let s := s.each (s.liveDies.filter (fun d => !ds.contains d)) (fun d s => s.resetController d)
  let s := (s.setRole lead rlLead).appointNext
  s.each ds (fun d s => s.setDieStage d stRemap)

/-- The window closes (R494, R522). -/
def Dev.closeWindow (s : Dev) : Dev :=
  if !s.booting || s.ctl.elected then s
  else
    let ds := s.liveDies.filter (fun d => s.ctl.announced.contains d)
    match ds with
    | [] => if s.ctl.verified.isEmpty then s else (s.raiseDev Ev.BOOT_STAGE).bootFailed Ev.BOOT_STAGE
    | d :: _ => s.elect d ds

/-- ELECTION_WINDOW_CLOSE (R494). -/
def execElectionWindowClose (s : State) : Host.Outcome State Fault Refusal := okFlash s (Dev.lead (s.dev.closeWindow.burnFloor s.flash))

/-! ### REMAP (R516, R517, R540, R561) -/

/-- What the lead takes from two copies of a flash table, with whether it rewrites and reports them; none where neither passes its
CRC (R516). -/
def resolveCopies {α : Type} [DecidableEq α] (a b : Copy (List α)) : Option (List α × Bool) :=
  match a.ok, b.ok with
  | true, true => if a.val = b.val then some (a.val, false) else some (a.val ++ b.val.filter (fun x => !a.val.contains x), true)
  | true, false => some (a.val, true)
  | false, true => some (b.val, true)
  | false, false => none

/-- Checks the retirement list and the key table in flash; the list the rebuild uses, none where bring-up has to fail (R516, R561). -/
def Dev.checkFlash (s : Dev) (f : Flash) (badA badB : Bool) : Dev × Flash × Option (List Nat) :=
  let a := resolveCopies { f.retireA with ok := f.retireA.ok && !badA } { f.retireB with ok := f.retireB.ok && !badB }
  match a, resolveCopies f.keysA f.keysB with
  | some (l, w), some (k, v) =>
    let f := if w then { f with retireA := ⟨true, l⟩, retireB := ⟨true, l⟩ } else f
    let f := if v then { f with keysA := ⟨true, k⟩, keysB := ⟨true, k⟩ } else f
    let s := if w then s.raiseDev Ev.BOOT_FLASH else s
    (if v then s.raiseDev Ev.BOOT_FLASH else s, f, some l)
  | _, _ => ((s.raiseDev Ev.BOOT_FLASH).bootFailed Ev.BOOT_FLASH, f, none)

/-- Packs slot numbers into a remap register, a byte each. -/
def packSlots (ns : List Nat) : Nat := leNat (ns.map (fun n => BitVec.ofNat 8 n))

/-- Rebuilds a cluster's remap from the retirement list: the unretired slots in order, then the spare (R517, R16). -/
def Dev.rebuild (s : Dev) (l : List Nat) (d k : Nat) : Dev :=
  let i := clIdx d k
  let dead := (List.range 17).filter (fun n => l.contains (slotId d k n))
  let good := (List.range 17).filter (fun n => !l.contains (slotId d k n))
  let st := 2 ^ 8 * ofBits dead
  if good.length < 16 then
    ((s.setReg .SPR_REMAP_LO i 0x1F1F1F1F1F1F1F1F).setReg .SPR_REMAP_HI i 0x1F1F1F1F1F1F1F1F).setReg .SPR_CLSTAT i (0x1F + st + 2 ^ 27)
  else
    ((s.setReg .SPR_REMAP_LO i (packSlots (good.take 8))).setReg .SPR_REMAP_HI i (packSlots ((good.drop 8).take 8))).setReg .SPR_CLSTAT i
      (good.getD 16 0x1F + st)

/-- Restores a cluster's remap registers kept in DEEP (R537, R540). -/
def Dev.restoreRemap (s : Dev) (m : SMap Word) (d k : Nat) : Dev :=
  let i := clIdx d k
  let get (r : RegKind) : Nat := (SMap.read (BitVec.ofNat 64 (regReset r i)) m (regKey r i)).toNat
  ((s.setReg .SPR_REMAP_LO i (get .SPR_REMAP_LO)).setReg .SPR_REMAP_HI i (get .SPR_REMAP_HI)).setReg .SPR_CLSTAT i (get .SPR_CLSTAT)

/-- A die's remap is in place and its PLL locked; it enters MEMORY, where its fabric ports start training (R511, R521). -/
def Dev.remapped (s : Dev) (l : List Nat) (d : Nat) : Dev :=
  let s := match s.sby.retained.filter (fun _ => s.sby.deepWake) with
    | some r => s.each (List.range 272) (fun k s => s.restoreRemap r.regs d k)
    | none => s.each (List.range 272) (fun k s => s.rebuild l d k)
  let s := ((s.setFld Fld.PWR_DSTAT_LOCK d 1).setFld Fld.PWR_DSTAT_CLK d 1).setDieStage d stMemory
  s.each (List.range 6) (fun i s => s.startTraining (6 * d + i))

/-- Whether a die is running a stage of bring-up: not fenced and its controller not in a reset (R513). -/
def Dev.inStage (s : Dev) (d st : Nat) : Bool := s.booting && decide (s.dieStage d = st) && !s.fenced d && !s.ctl.rejoin.contains d

/-- A die's REMAP ends. -/
def Dev.remapDone (s : Dev) (f : Flash) (d : Nat) (badA badB : Bool) : Dev × Flash :=
  if !s.inStage d stRemap || !s.hasLead then (s, f)
  else
    let r := s.checkFlash f badA badB
    match r.2.2 with
    | none => (r.1, r.2.1)
    | some l => (r.1.remapped l d, r.2.1)

/-- REMAP_STAGE_DONE (R516, R517). -/
def execRemapStageDone (die : DieId) (badA badB : Bool) (s : State) : Host.Outcome State Fault Refusal :=
  okFlash s (s.dev.remapDone s.flash die badA badB)

/-! ### MEMORY (R518, R536, R540) -/

/-- Writes payload tiles of a range as zero with the poison scruple (R536). -/
def Dev.poisonRange (s : Dev) (lo hi : Nat) : Dev :=
  s.each (List.range ((hi - lo) / tileSize)) (fun t s =>
    let a := lo + t * tileSize
    if (scrupleAddr a).isSome then { s with mem := Memory.putTile s.mem a (zeros tileSize) poisonScruple } else s)

/-- What a wake from DEEP writes on a die: its stacks and banks that were not kept, and the edge buffers (R536). -/
def Dev.deepMemory (s : Dev) (d : Nat) : Dev :=
  let bank := s.fld Fld.PWR_RETAIN_CSBANK 0
  let hbm := s.fld Fld.PWR_RETAIN_HBM 0
  let s := s.each ((List.range 4).map (fun i => 4 * d + i)) (fun st s =>
    if hbm.testBit st then s else s.poisonRange (st * stackSize) ((st + 1) * stackSize))
  s.each ((List.range 272).flatMap (fun k => (List.range 16).map (coreId d k))) (fun c s =>
    let s := s.each (List.range 4) (fun b s =>
      if bank.testBit b then s else s.poisonRange (strideAddr c (b * 0x40000)) (strideAddr c ((b + 1) * 0x40000)))
    s.zero (strideAddr c 0x100000) (strideAddr c 0x120000))

/-- A die's MEMORY stage ends: a stack that failed fences the die (R518); after DEEP no core is tested (R540). -/
def Dev.memoryDone (s : Dev) (d hbmOk : Nat) : Dev :=
  if !s.inStage d stMemory then s
  else
    let s := s.setFld Fld.CTL_DBOOT_HBMOK d hbmOk
    if hbmOk ≠ 0xF then s.wantFence d
    else if s.sby.deepWake then (s.deepMemory d).setDieStage d stReady
    else
      let s := { s with ctl := { s.ctl with tested := s.ctl.tested.filter (fun e => e != d) } }
      (s.zeroDie d).setDieStage d stCores

/-- MEMORY_STAGE_DONE (R518). -/
def execMemoryStageDone (die : DieId) (hbmOk : BitVec 4) (s : State) : Host.Outcome State Fault Refusal :=
  okFlash s (Dev.lead (s.dev.memoryDone die hbmOk.toNat, s.flash))

/-! ### CORES (R519, R520) -/

/-- A slot fails the core test: its event and record, and its retirement as soon as its record is acknowledged (R496, R519, R520). -/
def Dev.coreFailed (s : Dev) (pc : Nat) : Dev :=
  let d := slotDie pc
  let s := s.raise d Ev.TEST_FAIL
  let s := s.logRecord d (s.stamp (s.partOf d) { kind := 7, event := Ev.TEST_FAIL, pcore := pc })
  (s.setFld Fld.CTL_DBOOT_NFAIL d (s.fld Fld.CTL_DBOOT_NFAIL d + 1)).queueRetire pc

/-- A die's core test ends with the slots that failed it; the die stays in CORES while their retirements wait and the fills they cause are
tested. -/
def Dev.coresDone (s : Dev) (d : Nat) (fails : List Nat) : Dev :=
  if !s.inStage d stCores || !s.hasLead || s.ctl.tested.contains d then s
  else
    let bad := (fails.filter (fun pc => isSlot pc && decide (slotDie pc = d) && !s.retired pc)).eraseDups
    let s := s.each bad (fun pc s => s.coreFailed pc)
    { s with ctl := { s.ctl with tested := s.ctl.tested ++ [d] } }

/-- CORES_STAGE_DONE (R519). -/
def execCoresStageDone (die : DieId) (fails : List (BitVec 17)) (s : State) : Host.Outcome State Fault Refusal :=
  okFlash s (Dev.lead (s.dev.coresDone die (fails.map (fun x => x.toNat)), s.flash))

/-- A die exceeds the bound of REMAP, MEMORY or CORES; the earlier stages end for all dies at once (R511 to R513, R522). -/
def Dev.boundExpired (s : Dev) (d : Nat) : Dev :=
  if s.inStage d (s.dieStage d) && decide (stRemap ≤ s.dieStage d) && decide (s.dieStage d ≤ stCores) then
    (s.raiseDev Ev.BOOT_STAGE).wantFence d
  else s

/-- STAGE_BOUND_EXPIRY (R513). -/
def execStageBoundExpiry (die : DieId) (s : State) : Host.Outcome State Fault Refusal :=
  okFlash s (Dev.lead (s.dev.boundExpired die, s.flash))

end Sys2Proof.Machine
end

