-- ==== Sys2Proof/Machine/Security.lean ====
section
/-!
DEFINITION. Firmware updates, the key table, and the debug level with its tokens (R556 to R563, R569 to R573, R577).
-/
namespace Sys2Proof.Machine

/-! ### Shared -/

/-- The die whose log takes security records: the lead's, or in RECOVERY the die of the recovery buffer. -/
def Dev.secDie (s : Dev) : Nat := if s.bootStage = stRecovery then s.fld Fld.SEC_STAT_RDIE 0 else s.leadDie

/-- The security state (R563). -/
def Dev.secState (s : Dev) (f : Flash) : Nat :=
  if s.bootStage = stRecovery then 2 else if (f.keys 1).isEmpty then 0 else 1

/-- Whether every partition's plan state is EMPTY. -/
def Dev.allEmpty (s : Dev) : Bool := s.partitions.all (fun p => s.planState p == 0)

/-- Zeroes every store of the dies that are not fenced (R562, R572). -/
def Dev.zeroAll (s : Dev) : Dev := s.each s.liveDies (fun d s => s.zeroDie d)

/-- Changes DBG_NONCE (R571). -/
def Dev.newDbgNonce (s : Dev) : Dev :=
  let r := s.nonce
  r.2.setReg .DBG_NONCE 0 r.1

/-! ### Firmware (R556 to R560) -/

/-- The key list of an image: 57 key bytes and a kind each. -/
def Dev.imageKeys (s : Dev) (a n : Nat) : List (Nat × Nat) :=
  (List.range n).map (fun k => (s.imageNum a (64 + 64 * k) 57, s.imageNum a (64 + 64 * k + 57) 1))

/-- Whether a range of an image's bytes is zero. -/
def Dev.imageZero (s : Dev) (a lo hi : Nat) : Bool := (Memory.bytes s.mem (a + lo) (hi - lo)).all (fun b => b == 0)

/-- A firmware image at an address, when its header, key list and length are those of R556; `fits` says whether a length in tiles lies where the
image may lie. The bytes between key list and signature tile are the firmware itself; the signature tile is in the layout of R299. -/
def Dev.parseFirmware (s : Dev) (a : Nat) (fits : Nat → Bool) : Option FwRec :=
  let rd := s.imageNum a
  let len := rd 16 8
  let n := rd 40 2
  let keys := s.imageKeys a n
  if a % tileSize = 0 ∧ fits 1 ∧ rd 0 8 = 0x4D52494634585446 ∧ rd 8 2 = 1 ∧ rd 10 2 ≤ 64 ∧ rd 12 1 < 2 ∧ s.imageZero a 13 16
      ∧ len % tileSize = 0 ∧ tileSize < len ∧ len ≤ 0x1000000 ∧ 1 ≤ n ∧ n ≤ 16 ∧ s.imageZero a 42 64 ∧ fits (len / tileSize)
      ∧ keys.all (fun k => k.2 == 1 || k.2 == 2)
      ∧ (List.range n).all (fun k => s.imageZero a (64 + 64 * k + 58) (64 + 64 * k + 64)) ∧ 64 + 64 * n ≤ len - tileSize
      ∧ s.imageZero a (len - tileSize + 122) len then
    some { ok := true, svn := rd 10 2, raise := (rd 12 1).testBit 0, compat := rd 24 8, release := rd 32 8, keys := keys
           digest := leNat (shake256 (Memory.bytes s.mem a (len - tileSize)))
           signer := s.imageNum a (len - tileSize) 8, sig := Memory.bytes s.mem (a + (len - tileSize) + 8) 114 }
  else none

/-- A refused update: the event, its code in ERR, and the record (R558, R577). -/
def Dev.fwRefuse (s : Dev) : Dev :=
  let s := (s.setFld Fld.SEC_STAT_ERR 0 Ev.FW_REFUSED).raiseDev Ev.FW_REFUSED
  s.logRecord s.secDie (LogRec.security 0x81 Ev.FW_REFUSED 3)

/-- The image that a write of SEC_FWUPD names, where it passes R557. -/
def Dev.fwImage (s : Dev) (f : Flash) (a : Nat) (fits : Nat → Bool) : Option FwRec := (s.parseFirmware a fits).filter (fun r => r.accepted f)

/-- An accepted image waits for flash. -/
def Dev.fwAccept (s : Dev) (r : FwRec) : Dev := (s.setFld Fld.SEC_STAT_FWBUSY 0 1).queueFlash (.fw r)

/-- A write of SEC_FWUPD in READY by the owner port of partition `p` (R558). -/
def Dev.fwUpdate (s : Dev) (f : Flash) (p v : Nat) : Dev :=
  let a := bits v 51 0
  let s := s.readImage a (fun n => s.tilesInHbm p a n)
  match s.fwImage f a (fun n => s.tilesInHbm p a n) with
  | none => s.fwRefuse
  | some r =>
    let other := match s.sec.running with
      | some run => r.compat != run.compat
      | none => true
    if s.flag Fld.SEC_STAT_FWBUSY 0 || s.power == pwrIdle || s.power == pwrSleep || (other && !s.allEmpty) then s.fwRefuse
    else if other then (s.fwAccept r).setFld Fld.SEC_STAT_RESETREQ 0 1
    else s.fwAccept r

/-- The recovery buffer (R560). -/
def Dev.recoveryBase (s : Dev) : Nat := 4 * s.fld Fld.SEC_STAT_RDIE 0 * stackSize
def recoverySize : Nat := 0x1000000

/-- A write of SEC_FWUPD in RECOVERY: the image has to lie in the recovery buffer (R560). -/
def Dev.fwRecover (s : Dev) (f : Flash) (v : Nat) : Dev :=
  let a := bits v 51 0
  let fits (n : Nat) : Bool := decide (s.recoveryBase ≤ a) && decide (a + n * tileSize ≤ s.recoveryBase + recoverySize)
  let s := s.readImage a fits
  match s.fwImage f a fits with
  | none => s.fwRefuse
  | some r => if s.flag Fld.SEC_STAT_FWBUSY 0 then s.fwRefuse else s.fwAccept r

/-- A write of SEC_FWUPD by a port: only the owner's counts. -/
def Dev.writeFwupd (s : Dev) (f : Flash) (port v : Nat) : Dev :=
  if !s.isOwner port then s
  else if s.bootStage = stRecovery then s.fwRecover f v
  else s.fwUpdate f (s.partOf port) v

/-- FW_UPDATE (R558, R560). -/
def execFwUpdate (port : HostPort) (value : Word) (ue : List (BitVec 52)) (s : State) : Host.Outcome State Fault Refusal :=
  ok s (s.dev.hostGateIn [6, 7] port (fun d => d.withUe (ue.map (fun a => a.toNat)) (fun d => d.writeFwupd s.flash port value.toNat)))

/-! ### Keys (R561 to R563) -/

/-- The key table as it will stand when every waiting write is done. -/
def Dev.keysAhead (s : Dev) (f : Flash) : List (Nat × Nat) :=
  s.sec.flashQ.foldl (fun t w => match w with
    | .keys t' => t'
    | _ => t) f.keyTable

/-- A refused key command or SPDM submission. -/
def Dev.secRefuse (s : Dev) : Dev := (s.setFld Fld.SEC_STAT_ERR 0 Ev.SEC_REFUSED).raiseDev Ev.SEC_REFUSED

/-- The key in SEC_KEY0 to SEC_KEY7. -/
def Dev.keyInput (s : Dev) : Nat :=
  ((List.range 7).foldl (fun n j => n + s.reg .SEC_KEY j * 2 ^ (64 * j)) 0) + s.reg .SEC_KEY 7 % 256 * 2 ^ 448

/-- What refuses every key command. -/
def Dev.keysBarred (s : Dev) : Bool := s.power == pwrIdle || s.power == pwrSleep || s.flag Fld.SEC_STAT_FWBUSY 0

/-- ADD_OWNER and ADD_OPERATOR: kind 1 with room for 4, kind 2 with room for 16. -/
def Dev.addKey (s : Dev) (f : Flash) (kind : Nat) : Dev :=
  let t := s.keysAhead f
  let room := if kind = 1 then 4 else 16
  if s.keysBarred || decide (room ≤ (t.filter (fun k => k.1 == kind)).length) || t.any (fun k => keyId k.2 == keyId s.keyInput) then s.secRefuse
  else s.queueFlash (.keys (t ++ [(kind, s.keyInput)]))

/-- REMOVE: the key that SEC_KEY0 names, never the last owner key. -/
def Dev.removeKey (s : Dev) (f : Flash) : Dev :=
  let t := s.keysAhead f
  let left := t.filter (fun k => keyId k.2 != s.reg .SEC_KEY 0)
  if s.keysBarred || decide (left.length = t.length) || (t.any (fun k => k.1 == 1) && !left.any (fun k => k.1 == 1)) then s.secRefuse
  else s.queueFlash (.keys left)

/-- DEPROVISION (R562). -/
def Dev.deprovision (s : Dev) : Dev :=
  if s.keysBarred || !s.allEmpty then s.secRefuse
  else
    let s := (s.zeroAll.queueFlash (.keys [])).setHold 0
    let r := s.nonce
    r.2.setReg .HLK_OWNNONCE 0 r.1

/-- A write of SEC_KEYCMD by the owner port. -/
def Dev.keyCmd (s : Dev) (f : Flash) (op : Nat) : Dev :=
  match op with
  | 1 => s.addKey f 1
  | 2 => s.addKey f 2
  | 3 => s.removeKey f
  | 4 => s.deprovision
  | _ => s

/-- KEY_ADD_OWNER (R562). -/
def execKeyAddOwner (port : HostPort) (s : State) : Host.Outcome State Fault Refusal := ok s (s.dev.ownerGate port (fun d => d.keyCmd s.flash 1))

/-- KEY_ADD_OPERATOR (R562). -/
def execKeyAddOperator (port : HostPort) (s : State) : Host.Outcome State Fault Refusal := ok s (s.dev.ownerGate port (fun d => d.keyCmd s.flash 2))

/-- KEY_REMOVE (R562). -/
def execKeyRemove (port : HostPort) (s : State) : Host.Outcome State Fault Refusal := ok s (s.dev.ownerGate port (fun d => d.keyCmd s.flash 3))

/-- DEPROVISION. -/
def execDeprovision (port : HostPort) (s : State) : Host.Outcome State Fault Refusal := ok s (s.dev.ownerGate port (fun d => d.keyCmd s.flash 4))

/-! ### The debug level (R569, R570, R573) -/

/-- The current debug level. -/
def Dev.level (s : Dev) : Nat := s.fld Fld.DBG_STAT_LEVEL 0

/-- Changes the level, with its event; a departure from D2 changes the nonce (R570, R571). -/
def Dev.setLevel (s : Dev) (n : Nat) : Dev :=
  if n = s.level then s
  else
    let s := if s.level = 2 then s.newDbgNonce else s
    (s.setFld Fld.DBG_STAT_LEVEL 0 n).raiseDev Ev.DBG_LEVEL

/-- A write of DBG_CTL by the owner port: 0 and 1 set the level, another value leaves it; clearing ALLOWD2 while PROVISIONED leaves D2 for the
requested level (R570, R573). -/
def Dev.dbgCtl (s : Dev) (f : Flash) (v : Nat) : Dev :=
  if s.flag Fld.DBG_STAT_BUSY 0 then s
  else
    let cleared := s.flag Fld.DBG_CTL_ALLOWD2 0 && !v.testBit 2
    let s := s.setFld Fld.DBG_CTL_ALLOWD2 0 (bits v 2 2)
    if bits v 1 0 ≤ 1 then (s.setFld Fld.DBG_CTL_LEVEL 0 (bits v 1 0)).setLevel (bits v 1 0)
    else if cleared && s.level == 2 && s.secState f == 1 then s.setLevel (s.fld Fld.DBG_CTL_LEVEL 0)
    else s

/-- DBG_SET_D1 (R570). -/
def execDbgSetD1 (port : HostPort) (s : State) : Host.Outcome State Fault Refusal :=
  ok s (s.dev.ownerGate port (fun d => d.dbgCtl s.flash (1 + 4 * d.fld Fld.DBG_CTL_ALLOWD2 0)))

/-- DBG_SET_D0 (R570, R573). -/
def execDbgSetD0 (port : HostPort) (s : State) : Host.Outcome State Fault Refusal :=
  ok s (s.dev.ownerGate port (fun d => d.dbgCtl s.flash (4 * d.fld Fld.DBG_CTL_ALLOWD2 0)))

/-- DBG_ALLOWD2_CLEAR (R573): ALLOWD2 = 0 with the value of LEVEL that is ignored. -/
def execDbgAllowd2Clear (port : HostPort) (s : State) : Host.Outcome State Fault Refusal :=
  ok s (s.dev.ownerGate port (fun d => d.dbgCtl s.flash 2))

/-! ### Debug tokens (R571, R572) -/

/-- Whether the dies serve the TAP's extensions: powered, not held in reset, not in DEEP or OFF (R575). -/
def Dev.tapServed (s : Dev) : Bool := s.alive && decide (s.power < pwrDeep)

/-- BYPASS shifts one zero bit. -/
def Dev.tapBypass (s : Dev) : Dev := s.emit (.tap 0 1 false)

/-- The TAP's 8-bit instruction register takes a code (R575). -/
def Dev.tapSelect (s : Dev) (code : Nat) : Dev := { s with sby := { s.sby with ir := code } }

/-- An extension is selected: served at a level, else it acts as BYPASS (R575). -/
def Dev.tapGate (s : Dev) (code level : Nat) (f : Dev → Dev) : Dev :=
  let s := s.tapSelect code
  if s.tapServed ∧ level ≤ s.level then f s else s.tapBypass

/-- Submits a token. -/
def Dev.submitToken (s : Dev) (t : List Byte) : Dev := { s with sec := { s.sec with tokens := s.sec.tokens ++ [t] } }

/-- A write of DBG_TOKEN19 by the owner port. -/
def Dev.tokenWritten (s : Dev) (port v : Nat) : Dev :=
  if !s.isOwner port then s
  else
    let s := s.setReg .DBG_TOKEN 19 v
    s.submitToken ((List.range 20).flatMap (fun j => leBytes 8 (s.reg .DBG_TOKEN j)))

/-- DBG_TOKEN_SUBMIT (R571): over the owner port, or shifted in through the TAP. -/
def execDbgTokenSubmit (token : Sum (HostPort × Word) (BitVec 1280)) (s : State) : Host.Outcome State Fault Refusal :=
  match token with
  | .inl (port, v) => ok s (s.dev.hostGateIn [6, 7] port (fun d => d.tokenWritten port v.toNat))
  | .inr t => ok s (s.dev.tapGate 0x12 0 (fun d => d.submitToken (leBytes 160 t.toNat)))

/-- The debug keys of Fenram: those of the running firmware, or the recovery key (R561). -/
def Dev.debugKeys (s : Dev) (f : Flash) : List Nat := if s.bootStage = stRecovery then [f.recoveryKey] else s.fwKeys 2

/-- Whether a token's fields and signature hold for this device and nonce. -/
def Dev.tokenValid (s : Dev) (f : Flash) (t : List Byte) : Bool :=
  let rd (o n : Nat) : Nat := leNat ((t.drop o).take n)
  rd 0 8 == 0x4755424434585446
    && decide (rd 8 8 = Config.serial.toNat) && decide (rd 16 8 = s.reg .DBG_NONCE 0)
    && rd 24 1 == 2 && rd 25 7 == 0 && rd 154 6 == 0
    && (s.debugKeys f).any (fun k => keyId k == rd 32 8 && Ed448.verify k "FENRAM-TX4-DBUG" (t.take 40) ((t.drop 40).take 114))

/-- Whether the device's state lets a valid token in. -/
def Dev.tokenAllowed (s : Dev) (f : Flash) : Bool :=
  s.power == pwrRun && s.allEmpty
    && s.partitions.all (fun p => s.fld Fld.CTX_STAT_STATE p != 1 && s.fld Fld.CTX_DSTAT_STATE p != 1)
    && s.fld Fld.TEST_STAT_STATE 0 != 1 && s.fld Fld.TEST_STAT_STATE 0 != 2 && s.spr.swaps.isEmpty && s.spr.fills.isEmpty
    && (s.secState f != 1 || s.flag Fld.DBG_CTL_ALLOWD2 0)

/-- A refused token. -/
def Dev.tokenRefuse (s : Dev) (code : Nat) : Dev := (s.setFld Fld.DBG_STAT_ERR 0 code).raiseDev code

/-- The first token submitted is decided; the nonce changes whatever the outcome. -/
def Dev.decideToken (s : Dev) (f : Flash) : Dev :=
  match s.sec.tokens with
  | [] => s
  | t :: ts =>
    let good := s.tokenValid f t
    let s := ({ s with sec := { s.sec with tokens := ts } } : Dev).newDbgNonce
    if !good then (s.tokenRefuse Ev.DBG_TOKEN_BAD).logRecord s.secDie (LogRec.security 0x82 Ev.DBG_TOKEN_BAD 3)
    else if !s.tokenAllowed f then s.tokenRefuse Ev.DBG_REFUSED
    else s.setFld Fld.DBG_STAT_BUSY 0 1

/-- DBG_TOKEN_DECIDE (R572). -/
def execDbgTokenDecide (s : State) : Host.Outcome State Fault Refusal := ok s (s.dev.decideToken s.flash)

/-- EV_DBG_D2 reaches the owner port and every PRIMARY port, whatever the masks (R572, R581). -/
def Dev.raiseD2 (s : Dev) : Dev :=
  (s.countEvent Ev.DBG_D2 none 1).each ((List.range 6).filter (fun p => s.isOwner p || s.fld Fld.HLK_PSTAT_ROLE p == 1)) (fun p s => s.intr p Ev.DBG_D2)

/-- The zeroing for D2 completes, and the level is granted. -/
def Dev.enterD2 (s : Dev) : Dev :=
  if !s.flag Fld.DBG_STAT_BUSY 0 then s
  else
    let s := (s.zeroAll.setLevel 2).setFld Fld.DBG_STAT_D2SEEN 0 1
    let s := (s.setFld Fld.DBG_STAT_BUSY 0 0).raiseD2
    s.logRecord s.secDie (LogRec.security 0x83 Ev.DBG_D2 3)

/-- D2_ZEROING_COMPLETE (R572). -/
def execD2ZeroingComplete (s : State) : Host.Outcome State Fault Refusal := ok s s.dev.enterD2

end Sys2Proof.Machine
end

