-- ==== Sys2Proof/Machine/Power.lean ====
section
/-!
DEFINITION. Power states, waking, the input, clock stretch, coolant and the thermal trip (R528 to R555, R593 to R598).
-/
namespace Sys2Proof.Machine

/-! ### Entering a state (R530 to R533, R535, R537) -/

/-- A write of PWR_CMD that R531 or R530 refuses. -/
def Dev.pwrRefuse (s : Dev) : Dev := (s.setFld Fld.PWR_STAT_ERR 0 Ev.PWR_REFUSED).raiseDev Ev.PWR_REFUSED

/-- Whether a cluster is being filled or is under a rolling test. -/
def Dev.anyFillOrSwap (s : Dev) : Bool :=
  (List.range 1632).any (fun i => s.flag Fld.SPR_CLSTAT_FILL i || s.flag Fld.SPR_CLSTAT_SWAP i)

/-- What bars every state below RUN (R531). -/
def Dev.pwrBarred (s : Dev) : Bool :=
  s.partitions.any (fun p => s.planState p == 1 || s.planState p == 3 || s.fld Fld.CTX_STAT_STATE p == 1 || s.fld Fld.CTX_DSTAT_STATE p == 1
    || s.flag Fld.CHK_STAT_DIAG p)
    || s.anyFillOrSwap || s.fld Fld.TEST_STAT_STATE 0 == 1 || s.fld Fld.TEST_STAT_STATE 0 == 2 || s.flag Fld.HLK_PARTCFG_BUSY 0

/-- Some copy-queue entry is in flight; some copy queue is enabled. -/
def Dev.entryInFlight (s : Dev) : Bool := s.partitions.any (fun p => (List.range 16).any (fun n => !(s.queue p n).started.isEmpty))
def Dev.queueEnabled (s : Dev) : Bool := s.partitions.any (fun p => (List.range 16).any (fun n => s.flag Fld.HLK_Q_CFG_EN (qIdx p n)))

/-- Whether R531 refuses a state below RUN. -/
def Dev.pwrBlocked (s : Dev) (v : Nat) : Bool :=
  s.pwrBarred || (v == pwrSleep && s.entryInFlight)
    || (decide (pwrDeep ≤ v) && (s.partitions.any (fun p => s.planState p != 0) || s.queueEnabled))

/-! ### Waking from SLEEP (R538, R539, R543) -/

/-- SLEEP ends for RUN or IDLE: the fabric ports train, queues fetch again, and each die still has to switch to its PLL. -/
def Dev.leaveSleep (s : Dev) (st : Nat) : Dev :=
  let s := s.setFld Fld.PWR_STAT_STATE 0 st
  let s := s.each (List.range 6) (fun d s => s.setFld Fld.PWR_DSTAT_LP d 0)
  let s := s.each (s.liveDies.flatMap (fun d => (List.range 6).map (fun i => 6 * d + i))) (fun q s => s.startTraining q)
  ({ s with sby := { s.sby with switching := s.liveDies } } : Dev).pumpAll

/-- IDLE or SLEEP ends for RUN. -/
def Dev.wakeUp (s : Dev) : Dev :=
  if s.power = pwrSleep then s.leaveSleep pwrRun
  else if s.power = pwrIdle then (s.setFld Fld.PWR_STAT_STATE 0 pwrRun).pumpAll
  else s

/-- A die's arrays switch to the locked PLL, after a wake from SLEEP; the chain logic starts again after the last die's (R529, R539). -/
def Dev.pllSwitch (s : Dev) (d : Nat) : Dev :=
  if !s.sby.switching.contains d || decide (pwrIdle < s.power) then s
  else
    let s := (s.setFld Fld.PWR_DSTAT_LOCK d 1).setFld Fld.PWR_DSTAT_CLK d 1
    let s := { s with sby := { s.sby with switching := s.sby.switching.erase d } }
    if s.sby.switching.isEmpty then s.startMaster else s

/-- SLEEP_WAKE_PLL_SWITCH (R539). -/
def execSleepWakePllSwitch (die : DieId) (s : State) : Host.Outcome State Fault Refusal := ok s (s.dev.pllSwitch die)

/-- A write of PWR_CMD by the owner port (R530, R531, R538); one that names a state below RUN in the cycle of a WAKE is refused, a cycle being what
happens at one model time (DEDUCED, assumption 64). -/
def Dev.pwrCmd (s : Dev) (v : Nat) : Dev :=
  if s.sby.wokeAt = some s.now ∧ 1 ≤ v then s.pwrRefuse
  else if v = s.power then s
  else if s.flag Fld.PWR_STAT_BUSY 0 || decide (5 ≤ v) then s.pwrRefuse
  else if v = pwrRun then s.wakeUp
  else if s.pwrBlocked v then s.pwrRefuse
  else ({ s with sby := { s.sby with target := v, cmdAt := some s.now } } : Dev).setFld Fld.PWR_STAT_BUSY 0 1

/-- PWR_CMD_RUN (R538). -/
def execPwrCmdRun (port : HostPort) (s : State) : Host.Outcome State Fault Refusal := ok s (s.dev.ownerGate port (fun d => d.pwrCmd 0))

/-- PWR_CMD_IDLE (R531). -/
def execPwrCmdIdle (port : HostPort) (s : State) : Host.Outcome State Fault Refusal := ok s (s.dev.ownerGate port (fun d => d.pwrCmd 1))

/-- PWR_CMD_SLEEP (R531). -/
def execPwrCmdSleep (port : HostPort) (s : State) : Host.Outcome State Fault Refusal := ok s (s.dev.ownerGate port (fun d => d.pwrCmd 2))

/-- PWR_CMD_DEEP (R531). -/
def execPwrCmdDeep (port : HostPort) (s : State) : Host.Outcome State Fault Refusal := ok s (s.dev.ownerGate port (fun d => d.pwrCmd 3))

/-- PWR_CMD_OFF (R531). -/
def execPwrCmdOff (port : HostPort) (s : State) : Host.Outcome State Fault Refusal := ok s (s.dev.ownerGate port (fun d => d.pwrCmd 4))

/-- Entry to SLEEP: fabric ports DARK, those of fenced dies too, the copy queues stopped with no fetch under way, the chain off with its count held,
the PLLs off, the low-power regulator where EN asks for it (R529, R533, R543). -/
def Dev.enterSleep (s : Dev) : Dev :=
  let s := s.each (List.range 36) (fun q s => s.fabDark q)
  let s := s.each s.partitions (fun p s => s.each (List.range 16) (fun n s => s.dropReads p n (fun r => r.tile.isNone)))
  let s := { s with sby := { s.sby with switching := [] } }
  let s := s.unlockChain.setFld Fld.PWR_STAT_STATE 0 pwrSleep
  s.each s.liveDies (fun d s =>
    ((s.setFld Fld.PWR_DSTAT_CLK d 0).setFld Fld.PWR_DSTAT_LOCK d 0).setFld Fld.PWR_DSTAT_LP d (s.fld Fld.PWR_LPREG_EN d))

/-- Whether DEEP keeps the byte at an address: the selected banks and stacks of dies not fenced, and with any bank the sidebands of
every core store (R535, R536). -/
def Dev.keptAddr (s : Dev) (a : Nat) : Bool :=
  let bank := s.fld Fld.PWR_RETAIN_CSBANK 0
  let hbm := s.fld Fld.PWR_RETAIN_HBM 0
  match memPlace a with
  | .hbmPayload st _ => hbm.testBit st && !s.fenced (st / 4)
  | .hbmSideband st => hbm.testBit st && !s.fenced (st / 4)
  | .corePayload c _ => bank.testBit ((a - coreBase) % strideSize / 0x40000) && !s.fenced (coreDie c)
  | .coreSideband c => bank != 0 && !s.fenced (coreDie c)
  | _ => false

/-- The registers whose values the standby controller keeps across DEEP (R300, R502, R537, R558, R573). -/
def keptKinds : List RegKind :=
  [.HLK_PARTCFG, .FAB_PARTSLICE, .SPR_REMAP_LO, .SPR_REMAP_HI, .SPR_CLSTAT, .PWR_RETAIN, .PWR_LPREG, .DBG_STAT, .CTL_DIECFG, .PLAN_CTL, .SEC_STAT]

/-- The module held in reset: what a reset leaves, with PWR_RSTCAUSE. -/
def Dev.heldState (s : Dev) : Dev := (s.resetState).setReg .PWR_RSTCAUSE 0 (s.reg .PWR_RSTCAUSE 0)

/-- Entry to DEEP or OFF: the ports DARK, and all that is not kept lost (R529, R533, R535, R537, R573). -/
def Dev.park (s : Dev) (f : Flash) (v : Nat) : Dev × Flash :=
  let d := s.heldState.setFld Fld.PWR_STAT_STATE 0 v
  if v = pwrDeep then
    let kept := s.regs.filter (fun kv => (keptKinds.map RegKind.num).contains (kv.1 % 1024))
    ({ d with mem := s.mem.filter (fun c => s.keptAddr c.1), sby := { d.sby with retained := some ⟨kept⟩ } }, s.cutFlash f)
  else (d, s.cutFlash f)

/-- Enters the commanded state, with its event (R531); DEEP and OFF end a debug level above D0, with its event (R570, R573). -/
def Dev.enterState (s : Dev) (f : Flash) (v : Nat) : Dev × Flash :=
  let s := ({ s with sby := { s.sby with wakePending := false } } : Dev).setFld Fld.PWR_STAT_BUSY 0 0
  if pwrDeep ≤ v then ((s.raiseDev Ev.PWR_STATE).setLevel 0).park f v
  else if v = pwrSleep then (s.enterSleep.raiseDev Ev.PWR_STATE, f)
  else if s.power = pwrSleep then ((s.leaveSleep pwrIdle).raiseDev Ev.PWR_STATE, f)
  else ((s.setFld Fld.PWR_STAT_STATE 0 v).raiseDev Ev.PWR_STATE, f)

/-- WAKE (R538, R541, R553, R590): ignored in RUN and under a reset; during an entry it waits for the entry, but a command of the same cycle is
refused (assumption 64). -/
def Dev.wake (s : Dev) (f : Flash) : Dev × Flash :=
  if !s.standby || s.sby.resetHeld then (s, f)
  else
  let s := { s with sby := { s.sby with wokeAt := some s.now } }
  if s.flag Fld.PWR_STAT_BUSY 0 && decide (s.sby.cmdAt = some s.now) then ((s.setFld Fld.PWR_STAT_BUSY 0 0).pwrRefuse.wakeUp.pumpAll, f)
  else if s.flag Fld.PWR_STAT_BUSY 0 then ({ s with sby := { s.sby with wakePending := true } }, f)
  else if s.power = pwrDeep then
    ({ (s.setFld Fld.PWR_STAT_STATE 0 pwrRun).setFld Fld.PWR_RSTCAUSE_CAUSE 0 7 with sby := { s.sby with deepWake := true } }, f)
  else if s.power = pwrOff then s.moduleReset f 6
  else (s.wakeUp, f)

/-- WAKE. -/
def execWake (s : State) : Host.Outcome State Fault Refusal := okFlash s (s.dev.wake s.flash)

/-- An entry completes; a WAKE that came meanwhile follows. -/
def Dev.entryDone (s : Dev) (f : Flash) : Dev × Flash :=
  if !s.flag Fld.PWR_STAT_BUSY 0 then (s, f)
  else
    let w := s.sby.wakePending
    let r := s.enterState f s.sby.target
    if w then r.1.wake r.2 else r

/-- POWER_ENTRY_COMPLETE (R531). -/
def execPowerEntryComplete (s : State) : Host.Outcome State Fault Refusal := okFlash s (s.dev.entryDone s.flash)

/-! ### The input (R545 to R547, R549) -/

/-- A reported mean or quotient: the whole number below the exact one, or above it where it is not exact (assumption 4). -/
def reported (sum : Int) (n : Nat) : Int :=
  let q := sum / (n : Int)
  if sum % (n : Int) ≠ 0 && Config.meanUp sum n then q + 1 else q

/-- The sum of the last samples. -/
def Dev.vinSum (s : Dev) : Nat := s.sby.samples.foldl (fun a b => a + b) 0

/-- Every stretch of a die's clusters adds the cycles it lasted, which are open, to the die's counter (R548, R551). -/
def Dev.countStretch (s : Dev) (d : Nat) : Dev :=
  ({ s with fresh := s.fresh + 1 } : Dev).perf .PWR_PC_STRETCH d d (Config.free s.fresh % 2 ^ 48)

/-- A stretch of every cluster ends. -/
def Dev.endStretchAll (s : Dev) : Dev := s.each s.liveDies (fun d s => s.countStretch d)

/-- The sag warning (R545). -/
def Dev.sagWarn (s : Dev) : Dev :=
  let n := s.sby.samples.length
  if s.flag Fld.PWR_INPUT_SAGW 0 then (if 6500 * n < s.vinSum then s.setFld Fld.PWR_INPUT_SAGW 0 0 else s)
  else if s.vinSum < 6400 * n then (s.setFld Fld.PWR_INPUT_SAGW 0 1).raiseDev Ev.SAG_WARN
  else s

/-- The power samples of the last so many units of time, in watts. -/
def Dev.powersIn (s : Dev) (units : Nat) : List Nat := (s.sby.powers.filter (fun x => decide (s.now < x.1 + units))).map (fun x => x.2)

/-- Whether a mean of samples is above a limit in watts. -/
def meanAbove (xs : List Nat) (limit : Nat) : Bool := decide (limit * xs.length < xs.foldl (fun a b => a + b) 0)

/-- The mean of samples as reported in units of 10 W. -/
def meanPower (xs : List Nat) : Nat := (reported (xs.foldl (fun a b => a + b) 0 : Nat) (10 * xs.length)).toNat

/-- The power limit (R549): the means of the last 10 ms and of the last 1 s. -/
def Dev.powerLimit (s : Dev) : Dev :=
  let above := meanAbove (s.powersIn (10 * msUnits)) 38000 || meanAbove (s.powersIn (1000 * msUnits)) 32000
  if s.flag Fld.PWR_INPUT_LIMIT 0 then (if above then s else (s.setFld Fld.PWR_INPUT_LIMIT 0 0).endStretchAll)
  else if above then (s.setFld Fld.PWR_INPUT_LIMIT 0 1).raiseDev Ev.PWR_LIMIT
  else s

/-- Keeps a sample of the input: the last eight voltages, and the powers of the last second with their times. -/
def Dev.keepSample (s : Dev) (vin power : Nat) : Dev :=
  let xs := s.sby.samples ++ [vin]
  let ps := s.sby.powers.filter (fun x => decide (s.now < x.1 + 1000 * msUnits)) ++ [(s.now, power)]
  { s with sby := { s.sby with samples := xs.drop (xs.length - 8), powers := ps } }

/-- A sample of the input, in units of 10 mV and in watts; before T0 and in DEEP and OFF it is kept for the means only. -/
def Dev.inputSample (s : Dev) (vin power : Nat) : Dev :=
  if !s.sby.input then s
  else
    let s := s.keepSample vin power
    if !s.alive then s
    else
      let s := s.setFld Fld.PWR_INPUT_VIN 0 (min 0xFFFF (reported s.vinSum s.sby.samples.length).toNat)
      ((s.setFld Fld.PWR_INPUT_PIN 0 (min 0xFFFF (meanPower (s.powersIn (10 * msUnits))))).sagWarn).powerLimit

/-- INPUT_SAMPLE (R545, R549). -/
def execInputSample (vin power : BitVec 16) (s : State) : Host.Outcome State Fault Refusal :=
  ok s (s.dev.inputSample vin.toNat power.toNat)

/-- The reset by sag or overvoltage (R546, R547, R553). -/
def Dev.sagReset (s : Dev) (f : Flash) : Dev × Flash :=
  if !s.sby.input then (s, f)
  else
    let off := decide (s.power = pwrOff)
    let above := decide (8000 * s.sby.samples.length < s.vinSum)
    let r := s.moduleReset f (if above then 5 else 4)
    let n := r.1.fld Fld.PWR_RSTCAUSE_NSAG 0
    let d := if n < 0xFFFFFFFF then r.1.setFld Fld.PWR_RSTCAUSE_NSAG 0 (n + 1) else r.1.setFld Fld.PWR_RSTCAUSE_OVF 0 1
    let d := if off then d.setFld Fld.PWR_STAT_STATE 0 pwrOff else d
    ({ d with sby := { d.sby with sagHold := true, sagPending := true } }, r.2)

/-- SAG_RESET (R546). -/
def execSagReset (s : State) : Host.Outcome State Fault Refusal := okFlash s (s.dev.sagReset s.flash)

/-- INPUT_RESTORED (R547). -/
def execInputRestored (s : State) : Host.Outcome State Fault Refusal := ok s { s.dev with sby := { s.dev.sby with sagHold := false } }

/-- The input falls below 40 V: the standby controller stops too, and remembers nothing (R547, R595). -/
def Dev.standbyStop (s : Dev) (f : Flash) : Dev × Flash :=
  let r := s.powerUp f
  ({ r.1 with sby := { r.1.sby with input := false } }, r.2)

/-- STANDBY_STOP (R547). -/
def execStandbyStop (s : State) : Host.Outcome State Fault Refusal := okFlash s (s.dev.standbyStop s.flash)

/-! ### Droop and brown-out (R543, R544, R548) -/

/-- A cluster's rail droops; in SLEEP no clock of it runs that could be stretched (R529, R548). -/
def Dev.droop (s : Dev) (d k : Nat) : Dev :=
  let c := clIdx d k
  if !s.alive || s.fenced d || decide (272 ≤ k) || decide (pwrIdle < s.power) || s.sby.stretched.contains c then s
  else ({ s with sby := { s.sby with stretched := s.sby.stretched ++ [c] } } : Dev).raise d Ev.PWR_STRETCH

/-- DROOP_DETECT (R548). -/
def execDroopDetect (die : DieId) (cluster : BitVec 9) (s : State) : Host.Outcome State Fault Refusal := ok s (s.dev.droop die cluster.toNat)

/-- A cluster's stretch ends. -/
def Dev.stretchEnd (s : Dev) (d k : Nat) : Dev :=
  let c := clIdx d k
  if decide (272 ≤ k) || !s.sby.stretched.contains c then s
  else ({ s with sby := { s.sby with stretched := s.sby.stretched.erase c } } : Dev).countStretch d

/-- STRETCH_END (R548). -/
def execStretchEnd (die : DieId) (cluster : BitVec 9) (s : State) : Host.Outcome State Fault Refusal := ok s (s.dev.stretchEnd die cluster.toNat)

/-- A die browns out in the low-power regulator mode. -/
def Dev.brownout (s : Dev) (d : Nat) : Dev :=
  if s.flag Fld.PWR_DSTAT_LP d && !s.fenced d then (s.raiseDev Ev.PWR_BROWNOUT).wantFence d else s

/-- BROWNOUT (R544). -/
def execBrownout (die : DieId) (s : State) : Host.Outcome State Fault Refusal := okFlash s (Dev.lead (s.dev.brownout die, s.flash))

/-! ### Coolant (R593 to R595) -/

/-- The trip: its event, then every die held in reset until a power application; EXTEST keeps none from it. -/
def Dev.thermalTrip (s : Dev) (f : Flash) : Dev × Flash :=
  if !s.sby.pwrGood || s.sby.trip then (s, f)
  else
    let s := s.raiseDev Ev.COOL_TRIP
    let d := s.heldState
    ({ d with sby := { d.sby with pwrGood := s.sby.pwrGood, trip := true } }, s.cutFlash f)

/-- THERMAL_TRIP (R595). -/
def execThermalTrip (s : State) : Host.Outcome State Fault Refusal := okFlash s (s.dev.thermalTrip s.flash)

/-- Whether a thermistor reading, in 0.1 °C, is a fault. -/
def badTemp (t : Int) : Bool := decide (t < -200) || decide (900 < t)

/-- The last ten valid readings with one more. -/
def lastTen (ts : List Int) (t : Int) : List Int := (ts ++ [t]).drop ((ts ++ [t]).length - 10)

/-- Sum of readings. -/
def sumInt (ts : List Int) : Int := ts.foldl (fun a b => a + b) 0

/-- The standby controller keeps a reading of the inlet and of the outlet, in every state and over every reset; a fault leaves none. -/
def Dev.keepTemps (s : Dev) (tin tout : Int) : Dev :=
  { s with sby := { s.sby with
      tins := if badTemp tin then [] else lastTen s.sby.tins tin
      touts := if badTemp tout then [] else lastTen s.sby.touts tout } }

/-- The inlet reading: a fault begins with an event and is taken as 45 °C while it lasts. -/
def Dev.readIn (s : Dev) (t : Int) : Dev :=
  if badTemp t then
    (if s.flag Fld.PWR_COOL_TINF 0 then s else (s.setFld Fld.PWR_COOL_TINF 0 1).raiseDev Ev.COOL_SENSOR).setFld Fld.PWR_COOL_TIN 0 450
  else (s.setFld Fld.PWR_COOL_TINF 0 0).setFld Fld.PWR_COOL_TIN 0 (BitVec.ofInt 12 (reported (sumInt s.sby.tins) s.sby.tins.length)).toNat

/-- The outlet reading: TOUT is not valid while a fault lasts. -/
def Dev.readOut (s : Dev) (t : Int) : Dev :=
  if badTemp t then (if s.flag Fld.PWR_COOL_TOUTF 0 then s else (s.setFld Fld.PWR_COOL_TOUTF 0 1).raiseDev Ev.COOL_SENSOR)
  else (s.setFld Fld.PWR_COOL_TOUTF 0 0).setFld Fld.PWR_COOL_TOUT 0 (BitVec.ofInt 12 (reported (sumInt s.sby.touts) s.sby.touts.length)).toNat

/-- Ten times the inlet temperature in 0.1 °C compared with a limit, exactly: whether it is above, and whether below. -/
def Dev.inletAbove (s : Dev) (x : Int) : Bool :=
  if s.flag Fld.PWR_COOL_TINF 0 then decide (x < 450) else decide (x * s.sby.tins.length < sumInt s.sby.tins)
def Dev.inletBelow (s : Dev) (x : Int) : Bool :=
  if s.flag Fld.PWR_COOL_TINF 0 then decide (450 < x) else decide (sumInt s.sby.tins < x * s.sby.tins.length)

/-- The LIMIT row; it ends after a whole second, eleven reads in a row, within its limits. The flow compares as 600 · pulses with the limit in
0.1 L/min times KFLOW. An episode by the junction temperature alone, the coolant within its WARN limits, interrupts no port. -/
def Dev.coolLimit (s : Dev) (tj flow k : Nat) : Dev :=
  let bad := decide (100 < tj) || s.inletAbove 400 || decide (flow < 320 * k)
  let good := decide (tj < 95) && s.inletBelow 390 && decide (340 * k < flow)
  if s.flag Fld.PWR_COOL_LIMIT 0 then
    let n := if good then s.sby.limitGood + 1 else 0
    if 11 ≤ n then (({ s with sby := { s.sby with limitGood := 0 } } : Dev).setFld Fld.PWR_COOL_LIMIT 0 0).endStretchAll
    else { s with sby := { s.sby with limitGood := n } }
  else if bad then
    let s := ({ s with sby := { s.sby with limitGood := 0 } } : Dev).setFld Fld.PWR_COOL_LIMIT 0 1
    if s.inletAbove 350 || decide (flow < 400 * k) then s.raiseDev Ev.COOL_LIMIT else s.countEvent Ev.COOL_LIMIT none 1
  else s

/-- The WARN row. -/
def Dev.coolWarn (s : Dev) (flow k : Nat) : Dev :=
  let bad := s.inletAbove 350 || decide (flow < 400 * k)
  let good := s.inletBelow 345 && decide (405 * k < flow)
  if s.flag Fld.PWR_COOL_WARN 0 then
    let n := if good then s.sby.warnGood + 1 else 0
    if 11 ≤ n then ({ s with sby := { s.sby with warnGood := 0 } } : Dev).setFld Fld.PWR_COOL_WARN 0 0
    else { s with sby := { s.sby with warnGood := n } }
  else if bad then (({ s with sby := { s.sby with warnGood := 0 } } : Dev).setFld Fld.PWR_COOL_WARN 0 1).raiseDev Ev.COOL_WARN
  else s

/-- One read of the sensors: temperatures in 0.1 °C, pulses of the last second, a junction temperature per die. -/
def Dev.coolantRead (s : Dev) (f : Flash) (tin tout : Int) (pulses : Nat) (tjs : List Nat) : Dev × Flash :=
  let s := if s.sby.input then s.keepTemps tin tout else s
  if !s.sby.pwrGood || s.sby.trip then (s, f)
  else if s.sby.extest then (if 110 < s.liveDies.foldl (fun m d => max m (tjs.getD d 0)) 0 then s.thermalTrip f else (s, f))
  else
    let tj := s.liveDies.foldl (fun m d => max m (tjs.getD d 0)) 0
    let s := (s.readIn tin).readOut tout
    let k := s.fld Fld.PWR_COOLCFG_KFLOW 0
    let flow := 600 * pulses
    let s := (s.setFld Fld.PWR_COOL_FLOW 0 (min 0x3FF (reported flow k).toNat)).setFld Fld.PWR_COOL_TJMAX 0 tj
    if 110 < tj then s.thermalTrip f else ((s.coolLimit tj flow k).coolWarn flow k, f)

/-- COOLANT_SENSOR_READ (R593, R594). -/
def execCoolantSensorRead (tin tout : BitVec 12) (pulses : BitVec 16) (tj : BitVec 48) (s : State) : Host.Outcome State Fault Refusal :=
  okFlash s (s.dev.coolantRead s.flash tin.toInt tout.toInt pulses.toNat ((List.range 6).map (fun d => bits tj.toNat (8 * d + 7) (8 * d))))

end Sys2Proof.Machine
end

