-- ==== Sys2Proof/Machine/Spdm.lean ====
section
/-!
DEFINITION. Attestation: the SPDM 1.2 responder behind each host port's mailbox (R566 to R568). The message layouts, codes and
transcripts are those of SPDM 1.2 (assumption 22, PRESUMED).
-/
namespace Sys2Proof.Machine

/-! ### Messages -/

/-- The request codes that the TX4 supports. -/
def spdmGetDigests : Nat := 0x81
def spdmGetCertificate : Nat := 0x82
def spdmChallenge : Nat := 0x83
def spdmGetVersion : Nat := 0x84
def spdmGetMeasurements : Nat := 0xE0
def spdmGetCapabilities : Nat := 0xE1
def spdmNegotiateAlgorithms : Nat := 0xE3
def spdmCodes : List Nat :=
  [spdmGetDigests, spdmGetCertificate, spdmChallenge, spdmGetVersion, spdmGetMeasurements, spdmGetCapabilities, spdmNegotiateAlgorithms]

/-- Error codes. -/
def errInvalid : Nat := 0x01
def errUnexpected : Nat := 0x04
def errUnspecified : Nat := 0x05
def errUnsupported : Nat := 0x07
def errVersion : Nat := 0x41

/-- The `n` bytes of a message at an offset, as a number. -/
def msgNum (m : List Byte) (o n : Nat) : Nat := leNat ((m.drop o).take n)

/-- A message from its header and body. -/
def spdmMsg (version code p1 p2 : Nat) (body : List Byte) : List Byte :=
  leBytes 1 version ++ leBytes 1 code ++ leBytes 1 p1 ++ leBytes 1 p2 ++ body

/-- The certificate chain of slot 0, as SPDM hands it out: its length, the digest of its root, its certificates (R564). -/
def certChain : List Byte :=
  let certs := Config.rootCertificate ++ Config.productCertificate ++ Config.deviceCertificate
  leBytes 2 (68 + certs.length) ++ leBytes 2 0 ++ sha3 Config.rootCertificate ++ certs

/-- An ERROR response. -/
def spdmError (code data : Nat) : List Byte := spdmMsg 0x12 0x7F code data []

/-- The request that lies in a port's mailbox. -/
def Dev.spdmRequest (s : Dev) (port len : Nat) : List Byte :=
  ((List.range 512).flatMap (fun j => leBytes 8 (s.reg .SPDM_REQ (512 * port + j)))).take len

/-- Puts a response into a port's mailbox. -/
def Dev.spdmAnswer (s : Dev) (port : Nat) (m : List Byte) : Dev :=
  let s := s.each ((chunks 8 ((m.length + 7) / 8) m).map leNat).zipIdx (fun w s => s.setReg .SPDM_RSP (512 * port + w.2) w.1)
  (s.setFld Fld.SEC_SPDM_RSPLEN port m.length).setFld Fld.SEC_SPDM_READY port 1

/-! ### Negotiation -/

/-- What a port has negotiated: 1 the version, 2 capabilities, 3 and more the algorithms, with 4 for the signature algorithm, 8 for the hash
and 16 for the measurement specification. -/
def Dev.spdmStage (s : Dev) (port : Nat) : Nat := (s.hostPort port).spdm % 4
def Dev.spdmSigns (s : Dev) (port : Nat) : Bool := decide ((s.hostPort port).spdm % 16 / 4 = 3)
def Dev.spdmHashes (s : Dev) (port : Nat) : Bool := (s.hostPort port).spdm.testBit 3
def Dev.spdmMeasures (s : Dev) (port : Nat) : Bool := (s.hostPort port).spdm.testBit 4

/-- VERSION: 1.2 only; the port's negotiated state starts again. -/
def Dev.spdmVersion (s : Dev) (port : Nat) (m : List Byte) : Dev × List Byte :=
  let r := spdmMsg 0x10 0x04 0 0 [0, 1, 0, 0x12]
  (s.setHost port { s.hostPort port with spdm := 1, vca := m ++ r, certMsgs := [], measMsgs := [] }, r)

/-- CAPABILITIES. -/
def Dev.spdmCapabilities (s : Dev) (port : Nat) (m : List Byte) : Dev × List Byte :=
  if m.length ≠ 20 ∨ msgNum m 12 4 < 42 ∨ msgNum m 16 4 < msgNum m 12 4 then (s, spdmError errInvalid 0)
  else if s.spdmStage port ≠ 1 then (s, spdmError errUnexpected 0)
  else
    let r := spdmMsg 0x12 0x61 0 0 ([0, 16, 0, 0] ++ leBytes 4 0x16 ++ leBytes 4 4096 ++ leBytes 4 4096)
    let h := s.hostPort port
    (s.setHost port { h with spdm := 2, vca := h.vca ++ m ++ r }, r)

/-- ALGORITHMS: of each kind what the request offers and the TX4 supports. -/
def Dev.spdmAlgorithms (s : Dev) (port : Nat) (m : List Byte) : Dev × List Byte :=
  let ext := msgNum m 28 1 + msgNum m 29 1
  let spec := msgNum m 6 1 % 2
  let asym := bits (msgNum m 8 4) 11 11
  let hash := bits (msgNum m 12 4) 5 5
  if m.length < 32 ∨ msgNum m 4 2 ≠ m.length ∨ 128 < m.length ∨ m.length < 32 + 4 * ext ∨ spec + asym + hash = 0 then (s, spdmError errInvalid 0)
  else if s.spdmStage port ≠ 2 then (s, spdmError errUnexpected 0)
  else
    let r := spdmMsg 0x12 0x63 0 0 (leBytes 2 36 ++ leBytes 1 spec ++ [0] ++ leBytes 4 spec ++ leBytes 4 (asym * 2 ^ 11) ++ leBytes 4 (hash * 2 ^ 5)
      ++ zeros 16)
    let h := s.hostPort port
    (s.setHost port { h with spdm := 3 + 4 * asym + 8 * hash + 16 * spec, vca := h.vca ++ m ++ r }, r)

/-! ### Certificates -/

/-- Adds to the certificate messages of a port, which end its measurement messages. -/
def Dev.addCertMsgs (s : Dev) (port : Nat) (bs : List Byte) : Dev :=
  let h := s.hostPort port
  s.setHost port { h with certMsgs := h.certMsgs ++ bs, measMsgs := [] }

/-- DIGESTS of slot 0. -/
def Dev.spdmDigests (s : Dev) (port : Nat) (m : List Byte) : Dev × List Byte :=
  if m.length ≠ 4 then (s, spdmError errInvalid 0)
  else if s.spdmStage port ≠ 3 ∨ !s.spdmHashes port then (s, spdmError errUnexpected 0)
  else
    let r := spdmMsg 0x12 0x01 0 1 (sha3 certChain)
    (s.addCertMsgs port (m ++ r), r)

/-- A portion of the chain of slot 0. -/
def Dev.spdmCertificate (s : Dev) (port : Nat) (m : List Byte) : Dev × List Byte :=
  let off := msgNum m 4 2
  let chain := certChain
  if m.length ≠ 8 ∨ msgNum m 2 1 ≠ 0 ∨ chain.length ≤ off then (s, spdmError errInvalid 0)
  else if s.spdmStage port ≠ 3 then (s, spdmError errUnexpected 0)
  else
    let part := (chain.drop off).take (min (msgNum m 6 2) 4088)
    let r := spdmMsg 0x12 0x02 0 0 (leBytes 2 part.length ++ leBytes 2 (chain.length - off - part.length) ++ part)
    (s.addCertMsgs port (m ++ r), r)

/-! ### Measurements (R568) -/

/-- The type and value of a measurement index 1 to 13 for a port. -/
def Dev.measurement (s : Dev) (f : Flash) (port i : Nat) : Nat × List Byte :=
  let p := s.partOf port
  let words (k : RegKind) : List Byte := (List.range 8).flatMap (fun j => leBytes 8 (s.reg k (dieIdx k p j)))
  if i = 1 then (0x81, match s.sec.running with
    | some r => leBytes 64 r.digest
    | none => zeros 64)
  else if i ≤ 9 then (0x81, match f.bushels[i - 2]? with
    | some b => if b.valid then leBytes 64 b.digest else zeros 64
    | none => zeros 64)
  else if i = 10 then (0x83, if s.planState p = 0 then zeros 64 else words .PLAN_DIGEST)
  else if i = 11 then (0x83, if s.flag Fld.FAB_STAT_REV p then words .FAB_REVDIGEST else zeros 64)
  else if i = 12 then (0x82, leBytes 1 (s.secState f) ++ leBytes 1 s.level ++ leBytes 1 (s.fld Fld.DBG_STAT_D2SEEN 0)
    ++ leBytes 1 (s.fld Fld.PLAN_CTL_REQUIRE_SIGNED 0) ++ leBytes 2 f.floor ++ (match s.sec.running with
      | some r => leBytes 2 r.svn ++ leBytes 8 r.release
      | none => zeros 10))
  else (0x83, shake256 (f.keyTable.flatMap (fun k => leBytes 57 k.2 ++ leBytes 1 k.1 ++ zeros 6)))

/-- A DMTF measurement block. -/
def Dev.measBlock (s : Dev) (f : Flash) (port i : Nat) : List Byte :=
  let x := s.measurement f port i
  leBytes 1 i ++ [1] ++ leBytes 2 (x.2.length + 3) ++ leBytes 1 x.1 ++ leBytes 2 x.2.length ++ x.2

/-- The blocks of some indices. -/
def Dev.measBlocks (s : Dev) (f : Flash) (port : Nat) (is : List Nat) : List Byte := is.flatMap (fun i => s.measBlock f port i)

/-- A nonce of 32 fresh bytes. -/
def Dev.nonce32 (s : Dev) : List Byte × Dev :=
  ((List.range 4).flatMap (fun i => leBytes 8 (Config.nonce (s.fresh + i)).toNat), { s with fresh := s.fresh + 4 })

/-- The ASCII bytes of a string. -/
def asciiBytes (t : String) : List Byte := t.toList.map (fun c => BitVec.ofNat 8 c.toNat)

/-- The identity key's signature of a transcript under an SPDM 1.2 signing context. -/
def spdmSign (context : String) (transcript : List Byte) : List Byte :=
  let c := asciiBytes context
  let pre := (List.replicate 4 (asciiBytes "dmtf-spdm-v1.2.*")).flatten
  ((Config.sign (pre ++ zeros (36 - c.length) ++ c ++ sha3 transcript)) ++ zeros 114).take 114

/-- CHALLENGE_AUTH (R566). -/
def Dev.spdmChallengeAuth (s : Dev) (f : Flash) (port : Nat) (m : List Byte) : Dev × List Byte :=
  let kind := msgNum m 3 1
  if m.length ≠ 36 ∨ msgNum m 2 1 ≠ 0 ∨ !([0, 1, 0xFF].contains kind) then (s, spdmError errInvalid 0)
  else if !(s.spdmSigns port) then (s, spdmError errUnexpected 0)
  else if !s.flag Fld.SEC_STAT_IDOK 0 then (s, spdmError errUnspecified 0)
  else
    let n := s.nonce32
    let sum := if kind = 0 then [] else if kind = 1 then sha3 (s.measBlocks f port ((List.range 9).map (· + 1) ++ [12, 13]))
      else sha3 (s.measBlocks f port ((List.range 13).map (· + 1)))
    let r := spdmMsg 0x12 0x03 0 1 (sha3 certChain ++ n.1 ++ sum ++ leBytes 2 0)
    let h := s.hostPort port
    let sig := spdmSign "responder-challenge_auth signing" (h.vca ++ h.certMsgs ++ m ++ r)
    (n.2.setHost port { h with certMsgs := [], measMsgs := [] }, r ++ sig)

/-- MEASUREMENTS (R566, R568). -/
def Dev.spdmMeasurements (s : Dev) (f : Flash) (port : Nat) (m : List Byte) : Dev × List Byte :=
  let signed := (msgNum m 2 1).testBit 0
  let i := msgNum m 3 1
  if m.length ≠ (if signed then 37 else 4) ∨ (signed ∧ msgNum m 36 1 ≠ 0) ∨ (13 < i ∧ i ≠ 0xFF) then (s, spdmError errInvalid 0)
  else if s.spdmStage port ≠ 3 ∨ !s.spdmMeasures port ∨ (signed ∧ !(s.spdmSigns port)) then (s, spdmError errUnexpected 0)
  else if signed ∧ !s.flag Fld.SEC_STAT_IDOK 0 then (s, spdmError errUnspecified 0)
  else
    let is := if i = 0 then [] else if i = 0xFF then (List.range 13).map (· + 1) else [i]
    let blocks := s.measBlocks f port is
    let n := s.nonce32
    let r := spdmMsg 0x12 0x60 (if i = 0 then 13 else 0) 0 (leBytes 1 is.length ++ leBytes 3 blocks.length ++ blocks ++ n.1 ++ leBytes 2 0)
    let h := s.hostPort port
    if signed then
      (n.2.setHost port { h with measMsgs := [] }, r ++ spdmSign "responder-measurements signing" (h.vca ++ h.measMsgs ++ m ++ r))
    else (n.2.setHost port { h with measMsgs := h.measMsgs ++ m ++ r }, r)

/-! ### The responder -/

/-- The response to a request: an unknown code, a wrong version, or its own answer. -/
def Dev.spdmRespond (s : Dev) (f : Flash) (port : Nat) (m : List Byte) : Dev × List Byte :=
  let v := msgNum m 0 1
  let code := msgNum m 1 1
  if m.length < 4 ∨ 4096 < m.length then (s, spdmError errInvalid 0)
  else if !spdmCodes.contains code then (s, spdmError errUnsupported code)
  else if v ≠ (if code = spdmGetVersion then 0x10 else 0x12) then (s, spdmError errVersion 0)
  else if code = spdmGetVersion then (if m.length = 4 then s.spdmVersion port m else (s, spdmError errInvalid 0))
  else if code = spdmGetCapabilities then s.spdmCapabilities port m
  else if code = spdmNegotiateAlgorithms then s.spdmAlgorithms port m
  else if code = spdmGetDigests then s.spdmDigests port m
  else if code = spdmGetCertificate then s.spdmCertificate port m
  else if code = spdmChallenge then s.spdmChallengeAuth f port m
  else s.spdmMeasurements f port m

/-- A write of REQLEN: the request in the mailbox is taken up, to be answered; while one is, the write is refused (R567). A length that no mailbox
holds makes a malformed request. -/
def Dev.spdmSubmit (s : Dev) (port len : Nat) : Dev :=
  if s.flag Fld.SEC_SPDM_BUSY port then s.secRefuse
  else
    let s := ((s.setFld Fld.SEC_SPDM_READY port 0).setFld Fld.SEC_SPDM_REQLEN port len).setFld Fld.SEC_SPDM_BUSY port 1
    s.setHost port { s.hostPort port with asked := some (if len ≤ 4096 then s.spdmRequest port len else []) }

/-- The request that a port's mailbox waits for is answered, where its code is of a row (R566, R567). -/
def Dev.spdmRow (s : Dev) (f : Flash) (port : Nat) (codes : Nat → Bool) : Dev :=
  match (s.hostPort port).asked.filter (fun m => codes (msgNum m 1 1)) with
  | none => s
  | some m =>
    let r := (s.setHost port { s.hostPort port with asked := none }).spdmRespond f port m
    (r.1.spdmAnswer port r.2).setFld Fld.SEC_SPDM_BUSY port 0

/-- GET_VERSION (R566). -/
def execGetVersion (port : HostPort) (s : State) : Host.Outcome State Fault Refusal :=
  ok s (s.dev.spdmRow s.flash port (fun c => c == spdmGetVersion))

/-- GET_CAPABILITIES (R566). -/
def execGetCapabilities (port : HostPort) (s : State) : Host.Outcome State Fault Refusal :=
  ok s (s.dev.spdmRow s.flash port (fun c => c == spdmGetCapabilities))

/-- NEGOTIATE_ALGORITHMS (R566). -/
def execNegotiateAlgorithms (port : HostPort) (s : State) : Host.Outcome State Fault Refusal :=
  ok s (s.dev.spdmRow s.flash port (fun c => c == spdmNegotiateAlgorithms))

/-- GET_DIGESTS (R566). -/
def execGetDigests (port : HostPort) (s : State) : Host.Outcome State Fault Refusal :=
  ok s (s.dev.spdmRow s.flash port (fun c => c == spdmGetDigests))

/-- GET_CERTIFICATE (R566). -/
def execGetCertificate (port : HostPort) (s : State) : Host.Outcome State Fault Refusal :=
  ok s (s.dev.spdmRow s.flash port (fun c => c == spdmGetCertificate))

/-- CHALLENGE (R566). -/
def execChallenge (port : HostPort) (s : State) : Host.Outcome State Fault Refusal :=
  ok s (s.dev.spdmRow s.flash port (fun c => c == spdmChallenge))

/-- GET_MEASUREMENTS (R566, R568). -/
def execGetMeasurements (port : HostPort) (s : State) : Host.Outcome State Fault Refusal :=
  ok s (s.dev.spdmRow s.flash port (fun c => c == spdmGetMeasurements))

/-- SPDM_UNSUPPORTED_REQUEST (R566). -/
def execSpdmUnsupportedRequest (port : HostPort) (s : State) : Host.Outcome State Fault Refusal :=
  ok s (s.dev.spdmRow s.flash port (fun c => !spdmCodes.contains c))

end Sys2Proof.Machine
end

