-- ==== Sys2Proof/Machine/Windows.lean ====
section
/-!
DEFINITION. The control and status space as it is addressed, and what each of its registers reads (R20, R26, R30 to R36, R97, R192, R312,
R344, R423, R478, R502, R506, R507, R560, R567, R579).
-/
namespace Sys2Proof.Machine

/-- Where a device address lies in control and status space: a die's own registers, a core's window, the device-wide block, or nowhere. -/
inductive CtlPlace where
  | die (d off : Nat)
  | core (c off : Nat)
  | dev (off : Nat)
  | none
  deriving DecidableEq, Repr

/-- The place of an address in control and status space (R26, R97). -/
def ctlPlace (a : Nat) : CtlPlace :=
  if devBase ≤ a ∧ a < devBase + ctlSize then .dev (a - devBase)
  else if ctlBase ≤ a ∧ a < ctlBase + 6 * ctlSize then
    let d := (a - ctlBase) / ctlSize
    let o := (a - ctlBase) % ctlSize
    if 0x40000000 ≤ o ∧ o < 0x60000000 then
      let w := (o - 0x40000000) / 0x10000
      if w ≤ 4351 then .core (8192 * d + w) (o % 0x10000) else .none
    else .die d o
  else .none

/-- The register of the device-wide block at an offset, the mailboxes apart from each other (R567). -/
def devRegAt (off : Nat) : Option (RegKind × Nat) :=
  if 0x10000 ≤ off ∧ off < 0x1C000 then
    let p := (off - 0x10000) / 0x2000
    let o := (off - 0x10000) % 0x2000
    if off % 8 ≠ 0 then none
    else if o < 0x1000 then some (.SPDM_REQ, 512 * p + o / 8) else some (.SPDM_RSP, 512 * p + (o - 0x1000) / 8)
  else regAt .dev off

/-! ### Registers that other state gives their value -/

/-- The clusters of a die that are not short, and its unretired slots. -/
def Dev.dieClusters (s : Dev) (d : Nat) : Nat := ((List.range 272).filter (fun k => !s.isShort d k)).length
def Dev.dieRetired (s : Dev) (d : Nat) : Nat :=
  (List.range 272).foldl (fun n k => n + (setBits 17 (s.fld Fld.SPR_CLSTAT_RETIRED (clIdx d k))).length) 0
def Dev.dieSlots (s : Dev) (d : Nat) : Nat := 4624 - s.dieRetired d

/-- CTL_DIECFG (R30). -/
def Dev.dieCfg (s : Dev) (d : Nat) : Nat :=
  if s.fenced d then 16
  else
    let n := s.dieClusters d
    d + 8 * b2n (s.hasLead && s.leadDie == d) + 2 ^ 8 * n + 2 ^ 32 * (16 * n) + 2 ^ 48 * s.dieSlots d

/-- CTL_CLPRES (R31); the reserved bits of the last read as their reset values give them. -/
def Dev.clPres (s : Dev) (d n : Nat) : Nat := ofBits ((List.range 64).filter (fun b => decide (64 * n + b < 272) && !s.isShort d (64 * n + b)))

/-- CTL_DEVCFG (R32). -/
def Dev.devCfg (s : Dev) : Nat :=
  let ds := s.liveDies
  ds.foldl (fun n d => n + 16 * s.dieClusters d) 0 + 2 ^ 16 * ds.foldl (fun n d => n + s.dieSlots d) 0 + 2 ^ 32 * ofBits ds + 2 ^ 40 * s.leadDie
    + 2 ^ 44 * s.nparts

/-- CTL_ELECT (R507). -/
def Dev.electReg (s : Dev) : Nat :=
  putBits (s.reg .CTL_ELECT 0) 8 6 (ofBits (s.liveDies.filter (fun d => s.role d != rlDown)))

/-- CTL_JSTAT (R507). -/
def Dev.jstatReg (s : Dev) : Nat :=
  (s.ctl.journal.filter JRec.isOpen).length % 2 ^ 13 + 2 ^ 13 * s.fld Fld.CTL_JSTAT_SOLO 0 + 2 ^ 32 * (s.lastSeq % 2 ^ 32)

/-- SPR_REQ (R506). -/
def Dev.sprReq (s : Dev) : Nat :=
  match s.spr.requests with
  | [] => 0
  | r :: rs => r.1 + 2 ^ 17 * r.2 + 2 ^ 20 + 2 ^ 32 * (rs.length + 1)

/-- SPR_STAT (R507). -/
def Dev.sprStat (s : Dev) : Nat :=
  s.spr.fills.length + 2 ^ 16 * s.liveDies.foldl (fun n d => n + (272 - s.dieClusters d)) 0 + 2 ^ 32 * s.liveDies.foldl (fun n d => n + s.dieRetired d) 0

/-- TEST_BSLOT (R478). -/
def Flash.bslot (f : Flash) (n : Nat) : Nat :=
  match f.bushels[n]? with
  | some b => b.id % 2 ^ 32 + 2 ^ 32 * (b.version % 2 ^ 16) + 2 ^ 48 * b2n b.valid
  | none => 0

/-- SEC_STAT (R579). -/
def Dev.secStat (s : Dev) (f : Flash) : Nat :=
  let r := putBits (s.reg .SEC_STAT 0) 0 2 (s.secState f)
  putBits (putBits r 32 3 (f.keys 1).length) 35 5 (f.keys 2).length

/-- SEC_SVN (R579). -/
def Dev.secSvn (s : Dev) (f : Flash) : Nat :=
  f.floor % 2 ^ 7 + 2 ^ 16 * (match s.sec.running with
    | some r => r.svn % 2 ^ 7
    | none => 0)

/-- SEC_IDKEY (R564, R578). -/
def Flash.idKeyWord (f : Flash) (n : Nat) : Nat := f.certKey % 2 ^ 456 / 2 ^ (64 * n) % 2 ^ 64

/-- FMT_STAT, with the layers in fall-back (R192). -/
def Dev.fmtStat (s : Dev) (p : Nat) : Nat :=
  putBits (s.reg .FMT_STAT p) 32 11 ((monitors.filter (fun n => s.flag Fld.FMT_MON_STATE_FB (monIdx p n))).length)

/-- The value of a register of die or device-wide space; of a die other than the lowest of its partition, the registers of the partition read
zero, and the counters of its groups read zero while no plan is loaded, their counts kept (R191, R312, R342, R383, R414, R439, R477). -/
def Dev.regRead (s : Dev) (f : Flash) (k : RegKind) (d n : Nat) : Nat :=
  let i := dieIdx k d n
  if (regDesc k).writer = .lowest ∧ s.partOf d ≠ d then 0
  else match k with
    | .CTL_DIECFG => s.dieCfg d
    | .CTL_CLPRES => s.clPres d n
    | .CTL_DEVCFG => s.devCfg
    | .CTL_ELECT => s.electReg
    | .CTL_JSTAT => s.jstatReg
    | .SPR_REQ => s.sprReq
    | .SPR_STAT => s.sprStat
    | .TEST_BSLOT => f.bslot n
    | .SEC_STAT => s.secStat f
    | .SEC_SVN => s.secSvn f
    | .SEC_IDKEY => f.idKeyWord n
    | .FAB_RT => s.routeReg d n
    | .FAB_SERIAL => Config.serial.toNat
    | .FMT_STAT => s.fmtStat d
    | .CTX_SIZE => s.contextSize d % 2 ^ 32
    | .GRP_PC_ACCEPT | .GRP_PC_REJECT => if s.planState d < 2 then 0 else s.stored k i
    | k => s.stored k i

/-- What a place of control and status space reads; reserved offsets read zero. -/
def Dev.ctlRead (s : Dev) (f : Flash) (x : CtlPlace) : Nat :=
  match x with
  | .core c off => s.windowRead c off
  | .die d off => match regAt .die off with
    | some (k, n) => s.regRead f k d n
    | none => 0
  | .dev off => match devRegAt off with
    | some (k, n) => s.regRead f k 0 n
    | none => 0
  | .none => 0

/-! ### Windows (R35, R423, R515, R532, R560) -/

/-- The registers that every stage before READY serves, and those of RECOVERY. -/
def bootRegs : List RegKind := [.CTL_BOOT, .CTL_DBOOT, .HLK_PSTAT]
def recoveryRegs : List RegKind :=
  [.CTL_BOOT, .CTL_DBOOT, .HLK_PSTAT, .HLK_OWNSTAT, .HLK_OWNNONCE, .HLK_OWNCMD, .HLK_CLAIM, .SEC_STAT, .SEC_SVN, .SEC_FWUPD, .SEC_IDKEY,
   .DBG_STAT, .DBG_NONCE, .DBG_TOKEN]

/-- The kind of register at a place, cores' windows apart. -/
def CtlPlace.kind (x : CtlPlace) : Option RegKind :=
  match x with
  | .die _ off => (regAt .die off).map (fun r => r.1)
  | .dev off => (devRegAt off).map (fun r => r.1)
  | _ => Option.none

/-- Whether a place is a register that any host port reads in every stage (R526). -/
def CtlPlace.boot (x : CtlPlace) : Bool := x.kind.any (fun k => k == .CTL_BOOT || k == .CTL_DBOOT)

/-- Whether a place lies in the window of a port's partition, by the stage of bring-up; what a down bridge cuts off does not (R24, R36;
DESIGN CHOICE, assumption 74). -/
def Dev.ctlServed (s : Dev) (port : Nat) (x : CtlPlace) : Bool :=
  if x.boot then true
  else if s.bootStage = stReady then
    match x with
    | .core c _ => s.coreServed (s.partOf port) c && s.reaches port (coreDie c)
    | .die d _ => s.partOf d == s.partOf port && s.reaches port d
    | .dev _ => true
    | .none => false
  else
    match x.kind with
    | some k => (if s.bootStage = stRecovery then recoveryRegs else bootRegs).contains k
    | none => false

/-- Whether `n` bytes of memory from an address lie in the window of a port's partition, with no down bridge on the way (R24; assumption 74); in
SLEEP none do. -/
def Dev.memServed (s : Dev) (port a n : Nat) : Bool :=
  decide (s.bootStage = stReady) && decide (s.power ≤ pwrIdle) && (List.range ((n + 7) / 8)).all (fun i =>
    s.inMemWindow (s.partOf port) (a + 8 * i) && s.reaches port (addrDie (a + 8 * i)))

/-- Whether a range lies in the recovery buffer of a device in RECOVERY. -/
def Dev.inRecovery (s : Dev) (a n : Nat) : Bool :=
  decide (s.bootStage = stRecovery) && decide (s.recoveryBase ≤ a) && decide (a + n ≤ s.recoveryBase + recoverySize)

end Sys2Proof.Machine
end

