-- ==== Sys2Proof/Machine/HostWrites.lean ====
section
/-!
DEFINITION. A write of a register at its address: who may write it, and what the write does (R35, R38, R42, R102, R191 to R196, R312 to R316,
R331, R342, R344, R381 to R385, R423, R439 to R441, R477, R478, R506, R552, R554, R567, R570 to R580, R597).
-/
namespace Sys2Proof.Machine

/-- A free value of Config, and the counter moved on. -/
def Dev.freeNat (s : Dev) : Nat × Dev := (Config.free s.fresh, { s with fresh := s.fresh + 1 })

/-- Whether a write reaches a register of die `d`, from a port or, with none, from the TAP in D2: what only the owner port writes DBGMEM does not
write (R573, R576, R578). -/
def Dev.mayWrite (s : Dev) (port : Option Nat) (w : Writer) (d : Nat) : Bool :=
  match w with
  | .none => false
  | .partition => true
  | .lowest => s.partOf d == d
  | .owner => match port with
    | some p => s.isOwner p
    | none => false
  | .anyPort => true

/-- Whether a register has a CLR bit at 63. -/
def RegKind.hasClr (k : RegKind) : Bool := (regDesc k).fields.any (fun f => f.lo == 63 && f.acc == .wo)

/-- A write of a register with a CLR bit: its counts and OVF bits go to zero; of CTL_BRG, UP stays (R25, R39, R102, R382). -/
def Dev.writeClr (s : Dev) (k : RegKind) (i v : Nat) : Dev :=
  if !v.testBit 63 then s
  else if k = .CTL_BRG then (s.setFld Fld.CTL_BRG_RETRY i 0).setFld Fld.CTL_BRG_RETRY_OVF i 0
  else s.setReg k i 0

/-- A write of PLAN_CMD (R313). -/
def Dev.writePlanCmd (s : Dev) (f : Flash) (p v : Nat) : Dev :=
  match v % 4 with
  | 1 => s.planLoad (f.keys 2) p
  | 2 => s.planUnload p
  | 3 => s.planStop p
  | _ => s

/-- A write of STEP_CFG (R342): a zero leaves a field. -/
def Dev.writeStepCfg (s : Dev) (p v : Nat) : Dev :=
  (s.setIf (decide (bits v 7 0 ≠ 0)) Fld.STEP_CFG_HOLDQ p (bits v 7 0)).setIf (decide (bits v 15 8 ≠ 0)) Fld.STEP_CFG_HOLDMAX p (bits v 15 8)

/-- A write of a register of die space by the partition of die `d`; `i` is its place among its kind. -/
def Dev.dieWrite (s : Dev) (f : Flash) (k : RegKind) (d n v : Nat) : Dev :=
  let i := dieIdx k d n
  if k.hasClr then s.writeClr k i v
  else match k with
    | .PLAN_CMD => s.writePlanCmd f d v
    | .PLAN_RUN => s.planRun d v
    | .STEP_CFG => s.writeStepCfg d v
    | .STEP_CTAB => s.writeCtab d (bits v 51 0)
    | .STEP_CTR => s.writeCtr d (bits v 39 0)
    | .STEP_STREAM => s.writeStream d (bits v 15 0)
    | .CTX_CMD => match v % 4 with
      | 1 => s.ctxRestore d
      | 2 => s.ctxSave d
      | _ => s
    | .FMT_CTL => if s.planState d < 2 then s else s.writeFields k i v
    | .FMT_REVERT => s.revert d v
    | .FAB_CMD => match v % 4 with
      | 1 => s.fabCompare d
      | 2 => s.fabRetrain d
      | _ => s
    | .FAB_PLAN_ACK => s.fabRevise (f.keys 2) d v
    | .FAB_PORT_CTL => s.fabEnable i (v.testBit 0)
    | .HLK_Q_BASE => if s.flag Fld.HLK_Q_CFG_EN i then s else s.writeFields k i v
    | .HLK_Q_CBASE => if s.flag Fld.HLK_Q_CFG_EN i then s else s.writeFields k i v
    | .HLK_Q_CFG => s.queueCfg d n v
    | .HLK_Q_DB => s.doorbell d n (bits v 15 0)
    | .CHK_LOGACK => s.logAck d (bits v 5 0)
    | k => s.writeFields k i v

/-- A write of SPR_CMD (R506). -/
def Dev.writeSprCmd (s : Dev) (f : Flash) (v : Nat) : Dev × Flash :=
  match v % 4 with
  | 1 => Dev.lead (s.cmdRetire (bits v 48 32), f)
  | 2 => Dev.lead (s.cmdApprove, f)
  | 3 => (s.cmdDecline, f)
  | _ => (s, f)

/-- A write of a port's own SPDM request area or length; the TAP reaches every port's. -/
def ownMailbox (port : Option Nat) (p : Nat) : Bool :=
  match port with
  | some q => p == q
  | none => true

/-- A write of a port's own HLK_OWNCMD (R441). -/
def Dev.writeOwncmd (s : Dev) (port : Option Nat) (v : Nat) : Dev :=
  match port, v % 4 with
  | some p, 1 => s.claim p
  | some p, 2 => s.release p
  | _, _ => s

/-- A write of DBG_TOKENj by the owner port; the last one submits the token (R571). -/
def Dev.writeToken (s : Dev) (port n v : Nat) : Dev := if n = 19 then s.tokenWritten port v else s.setReg .DBG_TOKEN n v

/-- A write of a register of the device-wide block; what only the owner port writes comes from a port. -/
def Dev.devWrite (s : Dev) (f : Flash) (port : Option Nat) (k : RegKind) (n v : Nat) : Dev × Flash :=
  if k.hasClr then (s.writeClr k n v, f)
  else match k with
    | .SPR_CMD => s.writeSprCmd f v
    | .SPR_POLICY => Dev.lead (s.writePolicy v, f)
    | .FAB_CTL => (s.setIf (decide (bits v 15 0 ≠ 0)) Fld.FAB_CTL_STALLT 0 (bits v 15 0), f)
    | .FAB_PARTSLICE => (s.setSlice n (bits v 7 0), f)
    | .TEST_CMD => (s.testCmd f v, f)
    | .TEST_BINST => (s.installBushel f (s.partOf (port.getD 0)) v, f)
    | .HLK_PARTCMD => (s.partCmd v, f)
    | .HLK_OWNCMD => (s.writeOwncmd port v, f)
    | .HLK_CLAIM => (match port with
        | some p => s.setReg .HLK_CLAIM (claimIdx p n) v
        | none => s, f)
    | .PWR_CMD => (s.pwrCmd (bits v 2 0), f)
    | .PWR_COOLCFG => (s.setIf (decide (1 ≤ bits v 9 0) && decide (bits v 9 0 ≤ 1000)) Fld.PWR_COOLCFG_KFLOW 0 (bits v 9 0), f)
    | .SEC_FWUPD => (s.writeFwupd f (port.getD 0) v, f)
    | .SEC_KEYCMD => (s.keyCmd f (bits v 2 0), f)
    | .SEC_KEY => (s.setReg .SEC_KEY n v, f)
    | .SEC_SPDM => (if ownMailbox port n then s.spdmSubmit n (bits v 12 0) else s, f)
    | .SPDM_REQ => (if ownMailbox port (n / 512) then s.setReg .SPDM_REQ n v else s, f)
    | .DBG_CTL => (s.dbgCtl f v, f)
    | .DBG_TOKEN => (s.writeToken (port.getD 0) n v, f)
    | k => (s.writeFields k n v, f)

/-- A write of a place of control and status space: a register its writer may write; anything else ignores it (R38, R423). -/
def Dev.ctlWrite (s : Dev) (f : Flash) (port : Option Nat) (x : CtlPlace) (v : Nat) : Dev × Flash :=
  match x with
  | .core c off => (s.windowWrite c off v, f)
  | .die d off => match regAt .die off with
    | some (k, n) => if s.mayWrite port (regDesc k).writer d then (s.dieWrite f k d n v, f) else (s, f)
    | none => (s, f)
  | .dev off => match devRegAt off with
    | some (k, n) => if s.mayWrite port (regDesc k).writer 0 then s.devWrite f port k n v else (s, f)
    | none => (s, f)
  | .none => (s, f)

end Sys2Proof.Machine
end

