-- ==== Sys2Proof/Machine/HostRequests.lean ====
section
/-!
DEFINITION. What arrives on a host port: the flits of the Melard link layer, packets in their order, and the requests they carry (R349 to
R356, R417 to R426, R448, R515, R532, R560).
-/
namespace Sys2Proof.Machine

/-! ### Requests (R423, R426) -/

/-- Whether a request breaks R421 or R423. -/
def reqMalformed (a len : Nat) : Bool :=
  decide (a % 8 ≠ 0) || decide (len % 8 ≠ 0) || decide (len < 8) || decide (tileSize < len) || decide (tileSize < a % tileSize + len)
    || (isCtl a && decide (len ≠ 8))

/-- Sends a completion. -/
def Dev.complete8 (s : Dev) (port tag status : Nat) (data : List Byte) : Dev :=
  s.hostSend port { op := 4, tag := tag, len := data.length, status := status, data := data }

/-- A read of memory; a whole payload tile goes with its scruple, poison where the read met an uncorrectable error (R426, R448). -/
def Dev.readMem (s : Dev) (port tag a len : Nat) (ue : Bool) : Dev :=
  let s := { s with ue := if ue then [a] else [] }.hbmErrors [a]
  let data := Memory.bytes s.mem a len
  let t := if len = tileSize ∧ s.payloadTile (s.partOf port) a then
      s.hostSend port { op := 4, tag := tag, len := len, sv := true, data := data, scruple := s.scrupleOf a }
    else s.complete8 port tag 0 data
  { t with ue := [] }

/-- A read request; on an OFF port it is discarded, but for the registers that every port reads (R417, R423, R526; DEDUCED, assumption 81). -/
def Dev.hostRead (s : Dev) (f : Flash) (port tag addr len : Nat) (ue : Bool) : Dev :=
  let a := addr % 2 ^ 52
  if s.fld Fld.HLK_PSTAT_ROLE port = 0 ∧ !(isCtl a && (ctlPlace a).boot) then s.raise port Ev.HLK_MALFORMED
  else if reqMalformed a len then (s.raise port Ev.HLK_MALFORMED).complete8 port tag 2 []
  else if s.inRecovery a len then s.complete8 port tag 0 (Memory.bytes s.mem a len)
  else if isCtl a ∧ s.ctlServed port (ctlPlace a) then s.complete8 port tag 0 (leBytes 8 (s.ctlRead f (ctlPlace a)))
  else if s.memServed port a len then s.readMem port tag a len ue
  else (s.raise port Ev.HLK_UNMAPPED).complete8 port tag 1 (zeros len)

/-- A write of memory (R138, R426): a whole tile takes the scruple it carries; another write into payload has the scruple recomputed over
the tile, a poisoned tile written in part apart; sideband is data; the gill buffer takes no writes. -/
def Dev.writeMem (s : Dev) (a : Nat) (bs : List Byte) (sv : Bool) (scr : Nat) : Dev :=
  match memPlace a with
  | .gill _ => s
  | .hbmPayload _ _ | .corePayload _ _ =>
    if bs.length = tileSize then s.writeTile a bs (if sv then scr else tileScruple bs)
    else
      let t := a / tileSize * tileSize
      let tile := setBytes (s.tile t) (a - t) bs
      let scr := if Memory.scruple s.mem t = poisonScruple then poisonScruple else tileScruple tile
      ({ s with mem := Memory.putTile s.mem t tile scr } : Dev).wrote a bs.length
  | _ => ({ s with mem := Memory.put s.mem a bs } : Dev).wrote a bs.length

/-- A write request (R423, R560). -/
def Dev.hostWrite (s : Dev) (f : Flash) (port addr len : Nat) (sv : Bool) (scr : Nat) (data : List Byte) : Dev × Flash :=
  let a := addr % 2 ^ 52
  let bs := (data ++ zeros len).take len
  if s.fld Fld.HLK_PSTAT_ROLE port = 0 ∨ reqMalformed a len then (s.raise port Ev.HLK_MALFORMED, f)
  else if s.inRecovery a len then (if s.isOwner port then { s with mem := Memory.put s.mem a bs } else s, f)
  else if isCtl a ∧ s.ctlServed port (ctlPlace a) then s.ctlWrite f (some port) (ctlPlace a) (leNat bs)
  else if s.memServed port a len then (s.writeMem a bs sv scr, f)
  else (s.raise port Ev.HLK_UNMAPPED, f)

/-! ### Packets in order (R353, R425) -/

/-- Takes SEQ-ordered packets off those received whole. -/
def Link.takeWhole : Nat → HostPortSt → List HOpen → HostPortSt × List HOpen
  | 0, h, ps => (h, ps)
  | fuel + 1, h, ps =>
    match h.whole.find? (fun o => o.seq == h.link.expected) with
    | none => (h, ps)
    | some o => Link.takeWhole fuel { h with link := { h.link with lastSeq := some o.seq }, whole := h.whole.erase o } (ps ++ [o])

/-- Carries out an accepted packet, and owes its buffer back; the adapter sends no other kinds, and one is discarded. -/
def Dev.hostPacket (port : Nat) (o : HOpen) (r : Dev × Flash) : Dev × Flash :=
  let p := o.pkt
  let r : Dev × Flash := match p.op with
    | 1 => (r.1.hostRead r.2 port p.tag p.addr p.len o.ue, r.2)
    | 2 => r.1.hostWrite r.2 port p.addr p.len p.sv p.scruple o.got
    | 4 => (r.1.completion port p.tag p.status p.sv p.scruple (o.got.take p.len), r.2)
    | _ => r
  (if r.1.fld Fld.HLK_PSTAT_LINK port = 2 then r.1.oweHost port p.vc (1 + (o.got.length + 63) / 64) else r.1, r.2)

/-- Takes a whole packet in, and carries out what SEQ order now allows. -/
def Dev.hostComplete (s : Dev) (f : Flash) (port : Nat) (o : HOpen) : Dev × Flash :=
  let h := s.hostPort port
  let r := Link.takeWhole (h.whole.length + 1) { h with whole := h.whole ++ [o] } []
  r.2.foldl (fun x o => Dev.hostPacket port o x) (s.setHost port r.1, f)

/-! ### Flits (R349, R351, R354, R418, R419, R421) -/

/-- The packet a HEAD flit opens. -/
def hostHeadPkt (fl : Flit) : HPkt :=
  { op := flitNum fl 8 1 % 16, tag := flitNum fl 10 2 % 4096, len := flitNum fl 12 4, addr := flitNum fl 16 8, scruple := flitNum fl 24 8
    sv := (flitNum fl 32 1).testBit 3, status := flitNum fl 32 1 % 8, vector := flitNum fl 33 1 % 32, event := flitNum fl 34 2 }

/-- The data flits that follow a HEAD. -/
def HPkt.dataFlits (p : HPkt) : Nat :=
  if p.op = 2 ∨ (p.op = 4 ∧ p.status ≤ 1) then (p.len + 63) / 64 else 0

/-- A HEAD flit that passed its CRC. -/
def Dev.hostHead (s : Dev) (f : Flash) (port : Nat) (fl : Flit) : Dev × Flash :=
  let seq := flitNum fl 2 2 % 4096
  let vc := flitNum fl 9 1 % 4
  let p := hostHeadPkt fl
  let open_ := (SMap.read none (s.hostPort port).opened vc).isSome
  if open_ || !(s.hostPort port).link.takesHead seq vc then (s.hostError port, f)
  else
    let s := (s.hostAck port fl).hostPump port
    let h := s.hostPort port
    let l := { h.link with discarding := false, nakHeld := false, nextHead := (seq + 1) % 4096 }
    if p.dataFlits = 0 then (s.setHost port { h with link := l }).hostComplete f port ⟨seq, p, [], false⟩
    else (s.setHost port { h with link := l, opened := SMap.write none h.opened vc (some ⟨seq, p, [], false⟩) }, f)

/-- A data flit, whose byte 3 returns credits for VC0 in units of 8 flits. -/
def Dev.hostData (s : Dev) (f : Flash) (port : Nat) (fl : Flit) : Dev × Flash :=
  let h := s.hostPort port
  let b1 := flitNum fl 1 1
  let vc := b1 % 4
  let last := b1.testBit 2
  if h.link.discarding then (s.hostError port, f)
  else if flitNum fl 2 1 ≠ 255 - b1 ∨ 8 ≤ b1 then (s.hostError port, f)
  else match SMap.read none h.opened vc with
    | none => (s.hostError port, f)
    | some o =>
      let got := o.got ++ (flitBytes fl).drop 4
      if last != decide (got.length = 64 * o.pkt.dataFlits) then (s.hostError port, f)
      else
        let keep : Option HOpen := if last then none else some { o with got := got }
        let s := s.setHost port { h with opened := SMap.write none h.opened vc keep }
        let s := (s.hostCredit port 0 (8 * (flitNum fl 3 1 % 64))).perf .HLK_PC_RX port port 1
        let r := if last then s.hostComplete f port { o with got := got } else (s, f)
        (r.1.hostPump port, r.2)

/-- A control flit that passed its CRC. -/
def Dev.hostControl (s : Dev) (f : Flash) (port : Nat) (fl : Flit) : Dev × Flash :=
  let up := s.fld Fld.HLK_PSTAT_LINK port == 2
  let acked := if up then (s.hostAck port fl).hostPump port else s
  match flitNum fl 1 1 with
  | 1 => (if up then acked.hostLinkIn port fl else s, f)
  | 2 => if up then s.hostHead f port fl else (s, f)
  | 4 => (if (s.hostPort port).link.discarding then s else acked.identArrives port (flitNum fl 8 8) (flitNum fl 16 1 % 8), f)
  | _ => (s.raise port Ev.HLK_PROTOCOL, f)

/-- One flit arriving on a host port that trains or is UP. -/
def Dev.hostFlit (s : Dev) (f : Flash) (port : Nat) (fl : Flit) : Dev × Flash :=
  let link := s.fld Fld.HLK_PSTAT_LINK port
  if link ≠ 1 ∧ link ≠ 2 then (s, f)
  else match flitNum fl 0 1 with
    | 0x3C => if flitCrcOk fl then s.hostControl f port fl else (if link = 2 then s.hostError port else s, f)
    | 0xC3 => if link = 2 then s.hostData f port fl else (s, f)
    | _ => (if link = 2 then s.hostError port else s, f)

/-- HLK_LINK_FLIT: a flit of the link layer (R418 to R421). -/
def execHlkLinkFlit (port : HostPort) (flit : Flit) (s : State) : Host.Outcome State Fault Refusal := okFlash s (s.dev.hostFlit s.flash port flit)

/-- A packet that arrived whole, with the next SEQ, on a port that is UP. -/
def Dev.hostArrive (s : Dev) (f : Flash) (port : Nat) (p : HPkt) (data : List Byte) (ue : Bool) : Dev × Flash :=
  if s.fld Fld.HLK_PSTAT_LINK port ≠ 2 then (s, f)
  else
    let h := s.hostPort port
    let seq := h.link.nextHead
    let s := s.setHost port { h with link := { h.link with nextHead := (seq + 1) % 4096, discarding := false, nakHeld := false } }
    (s.perf .HLK_PC_RX port port ((data.length + 63) / 64)).hostComplete f port ⟨seq, p, data, ue⟩

/-- HLK_MRD (R423, R424, R426). `ue` says that the stack reports an uncorrectable error for what is read (R448). -/
def execHlkMrd (port : HostPort) (tag : BitVec 12) (addr : Word) (len : BitVec 32) (ue : Bool) (s : State) : Host.Outcome State Fault Refusal :=
  okFlash s (s.dev.hostArrive s.flash port { op := 1, tag := tag.toNat, len := len.toNat, addr := addr.toNat } [] ue)

/-- HLK_MWR (R423, R426). -/
def execHlkMwr (port : HostPort) (addr : Word) (len : BitVec 32) (sv : Bool) (scruple : Word) (data : List Byte) (s : State) :
    Host.Outcome State Fault Refusal :=
  okFlash s (s.dev.hostArrive s.flash port { op := 2, len := len.toNat, addr := addr.toNat, sv := sv, scruple := scruple.toNat } data false)

/-- HLK_CPL: the adapter's completion of a TX4 read (R424, R429). -/
def execHlkCpl (port : HostPort) (tag : BitVec 12) (status : BitVec 3) (sv : Bool) (scruple : Word) (data : List Byte) (s : State) :
    Host.Outcome State Fault Refusal :=
  okFlash s (s.dev.hostArrive s.flash port
    { op := 4, tag := tag.toNat, len := data.length, status := status.toNat, sv := sv, scruple := scruple.toNat } data false)

/-! ### Register writes as commands (R39, R42, R423) -/

/-- An 8-byte write of a device address by a host port that is UP. -/
def Dev.writeReg (s : Dev) (f : Flash) (port addr v : Nat) : Dev × Flash :=
  if s.fld Fld.HLK_PSTAT_LINK port ≠ 2 then (s, f) else s.hostWrite f port addr 8 false 0 (leBytes 8 v)

/-- REGISTER_WRITE (R423). -/
def execRegisterWrite (port : HostPort) (addr : BitVec 52) (value : Word) (s : State) : Host.Outcome State Fault Refusal :=
  okFlash s (s.dev.writeReg s.flash port addr.toNat value.toNat)

/-- The registers of event counters, of link error counters, and of performance counters (R39, R42). -/
def eventRegs : List RegKind := [.CTL_EVCNT, .CTL_EVCNT_DEV, .GILL_OVF]
def linkRegs : List RegKind := [.CTL_BRG, .FAB_PORT_ERR, .FAB_PORT_DROP, .FAB_INJDROP, .HLK_PERR]

/-- The kind of register at a place, the cores' windows among them. -/
def CtlPlace.reg (x : CtlPlace) : Option RegKind :=
  match x with
  | .core _ off => (regAt .core off).map (fun r => r.1)
  | x => x.kind

/-- A write of CLR = 1 to a counter of a class; another address is not that class's. -/
def Dev.clearCounter (s : Dev) (f : Flash) (port addr : Nat) (cls : RegKind → Bool) : Dev × Flash :=
  match (ctlPlace addr).reg with
  | some k => if cls k then s.writeReg f port addr (2 ^ 63) else (s, f)
  | none => (s, f)

/-- EVENT_COUNTER_CLEAR (R39, R167). -/
def execEventCounterClear (port : HostPort) (addr : BitVec 52) (s : State) : Host.Outcome State Fault Refusal :=
  okFlash s (s.dev.clearCounter s.flash port addr.toNat eventRegs.contains)

/-- PERF_COUNTER_CLEAR (R43, R102). -/
def execPerfCounterClear (port : HostPort) (addr : BitVec 52) (s : State) : Host.Outcome State Fault Refusal :=
  okFlash s (s.dev.clearCounter s.flash port addr.toNat RegKind.perfCounter)

/-- LINK_ERROR_COUNTER_CLEAR (R25, R382, R439). -/
def execLinkErrorCounterClear (port : HostPort) (addr : BitVec 52) (s : State) : Host.Outcome State Fault Refusal :=
  okFlash s (s.dev.clearCounter s.flash port addr.toNat linkRegs.contains)

end Sys2Proof.Machine
end

