-- ==== Sys2Proof/Machine/Tap.lean ====
section
/-!
DEFINITION. The TAP (R569, R574, R575, R576): the IEEE 1149.1 instructions and the debug extensions. What a command shifts out leaves the
module as a value of a width, with DBGMEM's error bit.
-/
namespace Sys2Proof.Machine

/-- SAMPLE/PRELOAD is selected, which DEEP and OFF do not serve. -/
def Dev.scanGate (s : Dev) (f : Dev → Dev) : Dev :=
  let s := s.tapSelect 0x01
  if pwrDeep ≤ s.power then s.tapBypass else f s

/-- TAP_BYPASS. -/
def execTapBypass (s : State) : Host.Outcome State Fault Refusal := ok s (s.dev.tapSelect 0xFF).tapBypass

/-- SAMPLE/PRELOAD: the boundary register, whose length and content the spec does not give (free values). -/
def Dev.samplePreload (s : Dev) : Dev :=
  let v := s.freeNat
  let w := v.2.freeNat
  w.2.emit (.tap v.1 w.1 false)

/-- TAP_SAMPLE_PRELOAD. -/
def execTapSamplePreload (s : State) : Host.Outcome State Fault Refusal := ok s (s.dev.scanGate Dev.samplePreload)

/-- EXTEST: every die is held in reset until a module reset. -/
def Dev.extest (s : Dev) : Dev :=
  let d := s.heldState
  { d with sby := { d.sby with extest := true, pwrGood := s.sby.pwrGood } }

/-- TAP_EXTEST. -/
def execTapExtest (s : State) : Host.Outcome State Fault Refusal :=
  let d := s.dev.tapSelect 0x00
  if pwrDeep ≤ d.power then ok s d.tapBypass else okFlash s (d.extest, d.cutFlash s.flash)

/-- DBGSTAT. -/
def execDbgstat (s : State) : Host.Outcome State Fault Refusal :=
  ok s (s.dev.tapGate 0x10 0 (fun d => d.emit (.tap (d.stored .DBG_STAT 0 + 2 ^ 64 * Config.serial.toNat) 128 false)))

/-- DBGNONCE. -/
def execDbgnonce (s : State) : Host.Outcome State Fault Refusal :=
  ok s (s.dev.tapGate 0x11 0 (fun d => d.emit (.tap (d.reg .DBG_NONCE 0) 64 false)))

/-! ### Addresses over the TAP -/

/-- Whether a place of control and status space exists: absent cores have no window (R20). -/
def Dev.tapPlace (s : Dev) (x : CtlPlace) : Bool :=
  match x with
  | .core c _ => s.present c
  | _ => true

/-- The die of a place in memory. -/
def placeDie (a : Nat) : Nat :=
  match memPlace a with
  | .hbmPayload st _ => st / 4
  | .hbmSideband st => st / 4
  | .corePayload c _ => coreDie c
  | .coreSideband c => coreDie c
  | .staging c => coreDie c
  | .gill c => coreDie c
  | .other => 0

/-- Whether an address is memory of the module, in whatever partition. -/
def Dev.tapMem (s : Dev) (a : Nat) : Bool := s.inMemWindow (s.partOf (placeDie a)) a

/-- Whether memory does not answer: SLEEP keeps the stacks in self-refresh and the core stores off, and what a fence or a shortfall took is lost
(R575, R576; DEDUCED, assumption 32). -/
def Dev.tapLost (s : Dev) (a : Nat) : Bool := memPlace a != .other && (!s.tapMem a || decide (s.power = pwrSleep))

/-- The registers DBGCTR reads: event counters and those of the performance class (R42, R175, R569). -/
def isCounter (k : RegKind) : Bool := k == .CTL_EVCNT || k == .CTL_EVCNT_DEV || k.perfCounter || formatCounters.contains k

/-- What DBGCTR reads. -/
def Dev.tapCounter (s : Dev) (f : Flash) (a : Nat) : Nat :=
  match (ctlPlace a).reg with
  | some k => if isCounter k ∧ s.tapPlace (ctlPlace a) then s.ctlRead f (ctlPlace a) else 0
  | none => 0

/-- DBGCTR. -/
def execDbgctr (addr : BitVec 52) (s : State) : Host.Outcome State Fault Refusal :=
  ok s (s.dev.tapGate 0x13 1 (fun d => d.emit (.tap (d.tapCounter s.flash addr.toNat) 64 false)))

/-- What DBGMEM reads: a register, memory, or zero. -/
def Dev.tapRead (s : Dev) (f : Flash) (a : Nat) : Dev :=
  if s.tapLost a then s.emit (.tap 0 64 true)
  else
    let v := if s.tapMem a then Memory.num s.mem a 8 else if isCtl a ∧ s.tapPlace (ctlPlace a) then s.ctlRead f (ctlPlace a) else 0
    s.emit (.tap v 64 false)

/-- DBGMEM_READ. -/
def execDbgmemRead (addr : BitVec 52) (s : State) : Host.Outcome State Fault Refusal := ok s (s.dev.tapGate 0x14 2 (fun d => d.tapRead s.flash addr.toNat))

/-- A write of DBGMEM into memory; the gill buffer takes none (R137). -/
def Dev.tapStore (s : Dev) (a : Nat) (bs : List Byte) : Dev :=
  match memPlace a with
  | .gill _ => s
  | _ => s.write a bs

/-- A write of DBGMEM. -/
def Dev.tapWrite (s : Dev) (f : Flash) (a v : Nat) : Dev × Flash :=
  if s.tapLost a then (s.emit (.tap 0 64 true), f)
  else
    let s := s.emit (.tap 0 64 false)
    if s.tapMem a then (s.tapStore a (leBytes 8 v), f)
    else if isCtl a ∧ s.tapPlace (ctlPlace a) then s.ctlWrite f none (ctlPlace a) v
    else (s, f)

/-- DBGMEM_WRITE. -/
def execDbgmemWrite (addr : BitVec 52) (value : Word) (s : State) : Host.Outcome State Fault Refusal :=
  let d := s.dev.tapSelect 0x14
  okFlash s (if d.tapServed ∧ 2 ≤ d.level then d.tapWrite s.flash addr.toNat value.toNat else (d.tapBypass, s.flash))

/-! ### DBGCORE (R574) -/

/-- Halts or resumes a present core. -/
def Dev.setHalted (s : Dev) (c : Nat) (h : Bool) : Dev := if s.present c then s.setCore c { s.core c with halted := h } else s

/-- DBGCORE_HALT. -/
def execDbgcoreHalt (core : CoreId) (s : State) : Host.Outcome State Fault Refusal :=
  ok s (s.dev.tapGate 0x15 2 (fun d => d.setHalted core.toNat true))

/-- DBGCORE_RESUME. -/
def execDbgcoreResume (core : CoreId) (s : State) : Host.Outcome State Fault Refusal :=
  ok s (s.dev.tapGate 0x15 2 (fun d => d.setHalted core.toNat false))

/-- A halted core issues the instruction at its program counter. -/
def Dev.debugStep (s : Dev) (c : Nat) : Dev :=
  let x := s.core c
  if !x.halted then s
  else
    let s := s.fetch c
    let s := (s.setCore c { s.core c with halted := false }).stepWord c (s.nextWord c)
    s.setCore c { s.core c with halted := true }

/-- DBGCORE_STEP. -/
def execDbgcoreStep (core : CoreId) (s : State) : Host.Outcome State Fault Refusal := ok s (s.dev.tapGate 0x15 2 (fun d => d.debugStep core.toNat))

/-- DBGCORE_REG_READ. -/
def execDbgcoreRegRead (core : CoreId) (offset : BitVec 13) (s : State) : Host.Outcome State Fault Refusal :=
  ok s (s.dev.tapGate 0x15 2 (fun d => d.emit (.tap (if d.present core.toNat then d.windowRead core.toNat offset.toNat else 0) 64 false)))

/-- DBGCORE_REG_WRITE. -/
def execDbgcoreRegWrite (core : CoreId) (offset : BitVec 13) (value : Word) (s : State) : Host.Outcome State Fault Refusal :=
  ok s (s.dev.tapGate 0x15 2 (fun d => if d.present core.toNat then d.windowWrite core.toNat offset.toNat value.toNat else d))

end Sys2Proof.Machine
end

