-- ==== Sys2Proof/Machine/Dispatch.lean ====
section
/-!
DEFINITION. The dispatch: each command's meaning, by one direct call.
-/
namespace Sys2Proof.Machine

def exec (i : Instr) (s : State) : Host.Outcome State Fault Refusal :=
  match i with
  | .powerApplication addr0 addr1 => Sys2Proof.Machine.execPowerApplication addr0 addr1 s
  | .resetN => Sys2Proof.Machine.execResetN s
  | .resetNRelease => Sys2Proof.Machine.execResetNRelease s
  | .railsGood => Sys2Proof.Machine.execRailsGood s
  | .railsTimeout => Sys2Proof.Machine.execRailsTimeout s
  | .railsRetry => Sys2Proof.Machine.execRailsRetry s
  | .romVerify die response => Sys2Proof.Machine.execRomVerify die response s
  | .romDeadline => Sys2Proof.Machine.execRomDeadline s
  | .electionAnnounce die term => Sys2Proof.Machine.execElectionAnnounce die term s
  | .electionWindowClose => Sys2Proof.Machine.execElectionWindowClose s
  | .remapStageDone die badA badB => Sys2Proof.Machine.execRemapStageDone die badA badB s
  | .memoryStageDone die hbmOk => Sys2Proof.Machine.execMemoryStageDone die hbmOk s
  | .coresStageDone die fails => Sys2Proof.Machine.execCoresStageDone die fails s
  | .stageBoundExpiry die => Sys2Proof.Machine.execStageBoundExpiry die s
  | .smbCstatus addr pec => Sys2Proof.Machine.execSmbCstatus addr pec s
  | .smbHbage addr pec => Sys2Proof.Machine.execSmbHbage addr pec s
  | .smbReset addr b pec => Sys2Proof.Machine.execSmbReset addr b pec s
  | .smbPwrcycle addr b pec => Sys2Proof.Machine.execSmbPwrcycle addr b pec s
  | .pwrCmdRun port => Sys2Proof.Machine.execPwrCmdRun port s
  | .pwrCmdIdle port => Sys2Proof.Machine.execPwrCmdIdle port s
  | .pwrCmdSleep port => Sys2Proof.Machine.execPwrCmdSleep port s
  | .pwrCmdDeep port => Sys2Proof.Machine.execPwrCmdDeep port s
  | .pwrCmdOff port => Sys2Proof.Machine.execPwrCmdOff port s
  | .powerEntryComplete => Sys2Proof.Machine.execPowerEntryComplete s
  | .wake => Sys2Proof.Machine.execWake s
  | .sleepWakePllSwitch die => Sys2Proof.Machine.execSleepWakePllSwitch die s
  | .inputSample vin power => Sys2Proof.Machine.execInputSample vin power s
  | .sagReset => Sys2Proof.Machine.execSagReset s
  | .inputRestored => Sys2Proof.Machine.execInputRestored s
  | .standbyStop => Sys2Proof.Machine.execStandbyStop s
  | .droopDetect die cluster => Sys2Proof.Machine.execDroopDetect die cluster s
  | .stretchEnd die cluster => Sys2Proof.Machine.execStretchEnd die cluster s
  | .brownout die => Sys2Proof.Machine.execBrownout die s
  | .coolantSensorRead tin tout pulses tj => Sys2Proof.Machine.execCoolantSensorRead tin tout pulses tj s
  | .thermalTrip => Sys2Proof.Machine.execThermalTrip s
  | .heartbeatSend => Sys2Proof.Machine.execHeartbeatSend s
  | .heartbeatMiss die => Sys2Proof.Machine.execHeartbeatMiss die s
  | .controllerRejoinTimeout die => Sys2Proof.Machine.execControllerRejoinTimeout die s
  | .controllerRejoin die => Sys2Proof.Machine.execControllerRejoin die s
  | .dieHwFault die => Sys2Proof.Machine.execDieHwFault die s
  | .journalMirrorAck seq closed => Sys2Proof.Machine.execJournalMirrorAck seq closed s
  | .journalAckTimeout => Sys2Proof.Machine.execJournalAckTimeout s
  | .retirement => Sys2Proof.Machine.execRetirement s
  | .sprCmdRetire port pcore => Sys2Proof.Machine.execSprCmdRetire port pcore s
  | .sprCmdApprove port => Sys2Proof.Machine.execSprCmdApprove port s
  | .sprCmdDecline port => Sys2Proof.Machine.execSprCmdDecline port s
  | .fillSelfTestDone die cluster pass => Sys2Proof.Machine.execFillSelfTestDone die cluster pass s
  | .fillBushelDone die cluster sound => Sys2Proof.Machine.execFillBushelDone die cluster sound s
  | .fillContentDone die cluster ue => Sys2Proof.Machine.execFillContentDone die cluster ue s
  | .planLoad port ue => Sys2Proof.Machine.execPlanLoad port ue s
  | .planLoadComplete part ue => Sys2Proof.Machine.execPlanLoadComplete part ue s
  | .planUnload port => Sys2Proof.Machine.execPlanUnload port s
  | .planStop port => Sys2Proof.Machine.execPlanStop port s
  | .planRun port beat => Sys2Proof.Machine.execPlanRun port beat s
  | .chainSymbol arrival residence => Sys2Proof.Machine.execChainSymbol arrival residence s
  | .chainConflict => Sys2Proof.Machine.execChainConflict s
  | .chainBeatApply => Sys2Proof.Machine.execChainBeatApply s
  | .localMasterBeat => Sys2Proof.Machine.execLocalMasterBeat s
  | .chainWindowMiss => Sys2Proof.Machine.execChainWindowMiss s
  | .holdoverBeat => Sys2Proof.Machine.execHoldoverBeat s
  | .chainLost => Sys2Proof.Machine.execChainLost s
  | .stepStart part => Sys2Proof.Machine.execStepStart part s
  | .scheduleBeat part ue => Sys2Proof.Machine.execScheduleBeat part ue s
  | .voteDeadline part => Sys2Proof.Machine.execVoteDeadline part s
  | .flipBeat part => Sys2Proof.Machine.execFlipBeat part s
  | .holdRound part => Sys2Proof.Machine.execHoldRound part s
  | .drainComplete part => Sys2Proof.Machine.execDrainComplete part s
  | .stepCtabWrite port value => Sys2Proof.Machine.execStepCtabWrite port value s
  | .stepStreamWrite port value => Sys2Proof.Machine.execStepStreamWrite port value s
  | .stepCtrWrite port value => Sys2Proof.Machine.execStepCtrWrite port value s
  | .ctxSave port ue => Sys2Proof.Machine.execCtxSave port ue s
  | .ctxRestore port ue => Sys2Proof.Machine.execCtxRestore port ue s
  | .ctxRestoreComplete part => Sys2Proof.Machine.execCtxRestoreComplete part s
  | .fmtRevertWrite port value => Sys2Proof.Machine.execFmtRevertWrite port value s
  | .rngBackstepWrite port core value => Sys2Proof.Machine.execRngBackstepWrite port core value s
  | .backstepComplete core => Sys2Proof.Machine.execBackstepComplete core s
  | .gillResetWrite port core => Sys2Proof.Machine.execGillResetWrite port core s
  | .gillResetApply core => Sys2Proof.Machine.execGillResetApply core s
  | .sop core w => Sys2Proof.Machine.execSop core w s
  | .sopi core w => Sys2Proof.Machine.execSopi core w s
  | .slih core w => Sys2Proof.Machine.execSlih core w s
  | .scmp core w => Sys2Proof.Machine.execScmp core w s
  | .scsr core w => Sys2Proof.Machine.execScsr core w s
  | .br core w => Sys2Proof.Machine.execBr core w s
  | .brr core w => Sys2Proof.Machine.execBrr core w s
  | .wbeat core w => Sys2Proof.Machine.execWbeat core w s
  | .bar core w => Sys2Proof.Machine.execBar core w s
  | .fence core w => Sys2Proof.Machine.execFence core w s
  | .lfmt core w => Sys2Proof.Machine.execLfmt core w s
  | .loss core w => Sys2Proof.Machine.execLoss core w s
  | .stepend core w => Sys2Proof.Machine.execStepend core w s
  | .nop core w => Sys2Proof.Machine.execNop core w s
  | .illegalInstruction core w => Sys2Proof.Machine.execIllegalInstruction core w s
  | .lds core w => Sys2Proof.Machine.execLds core w s
  | .sts core w => Sys2Proof.Machine.execSts core w s
  | .vld core w => Sys2Proof.Machine.execVld core w s
  | .vst core w => Sys2Proof.Machine.execVst core w s
  | .dma core w => Sys2Proof.Machine.execDma core w s
  | .dmaDescriptorComplete core index ue => Sys2Proof.Machine.execDmaDescriptorComplete core index ue s
  | .dmaw core w => Sys2Proof.Machine.execDmaw core w s
  | .wload core w => Sys2Proof.Machine.execWload core w s
  | .amul core w => Sys2Proof.Machine.execAmul core w s
  | .arrayQueueDispatch core => Sys2Proof.Machine.execArrayQueueDispatch core s
  | .bankLoadComplete core array bank => Sys2Proof.Machine.execBankLoadComplete core array bank s
  | .accumulatorRowWriteback core upset => Sys2Proof.Machine.execAccumulatorRowWriteback core upset s
  | .pspill core w => Sys2Proof.Machine.execPspill core w s
  | .presume core w => Sys2Proof.Machine.execPresume core w s
  | .pout core w => Sys2Proof.Machine.execPout core w s
  | .edgeQueueDispatch core ue => Sys2Proof.Machine.execEdgeQueueDispatch core ue s
  | .narrow core w => Sys2Proof.Machine.execNarrow core w s
  | .widen core w => Sys2Proof.Machine.execWiden core w s
  | .vf core w => Sys2Proof.Machine.execVf core w s
  | .vcmp core w => Sys2Proof.Machine.execVcmp core w s
  | .vcvt core w => Sys2Proof.Machine.execVcvt core w s
  | .vred core w => Sys2Proof.Machine.execVred core w s
  | .vprd core w => Sys2Proof.Machine.execVprd core w s
  | .vssq core w => Sys2Proof.Machine.execVssq core w s
  | .nrd core w => Sys2Proof.Machine.execNrd core w s
  | .vopt core w => Sys2Proof.Machine.execVopt core w s
  | .vi core w => Sys2Proof.Machine.execVi core w s
  | .vsel core w => Sys2Proof.Machine.execVsel core w s
  | .vbcast core w => Sys2Proof.Machine.execVbcast core w s
  | .vidx core w => Sys2Proof.Machine.execVidx core w s
  | .vmovs core w => Sys2Proof.Machine.execVmovs core w s
  | .plog core w => Sys2Proof.Machine.execPlog core w s
  | .vrand core w => Sys2Proof.Machine.execVrand core w s
  | .vgumbel core w => Sys2Proof.Machine.execVgumbel core w s
  | .fabLinkFlit port flit => Sys2Proof.Machine.execFabLinkFlit port flit s
  | .fabHeadFlit port flit => Sys2Proof.Machine.execFabHeadFlit port flit s
  | .fabDataFlit port flit => Sys2Proof.Machine.execFabDataFlit port flit s
  | .packetSend port => Sys2Proof.Machine.execPacketSend port s
  | .fabStallDrop port vc => Sys2Proof.Machine.execFabStallDrop port vc s
  | .fabReplayTimeout port => Sys2Proof.Machine.execFabReplayTimeout port s
  | .fabNakHoldoffExpiry port => Sys2Proof.Machine.execFabNakHoldoffExpiry port s
  | .fabLaneSignalLoss port => Sys2Proof.Machine.execFabLaneSignalLoss port s
  | .fabSignalAppear port => Sys2Proof.Machine.execFabSignalAppear port s
  | .fabTrainingRetry port => Sys2Proof.Machine.execFabTrainingRetry port s
  | .fabLaneLockDone port => Sys2Proof.Machine.execFabLaneLockDone port s
  | .fabTrainingTimeout port => Sys2Proof.Machine.execFabTrainingTimeout port s
  | .fabDiscFlit port flit => Sys2Proof.Machine.execFabDiscFlit port flit s
  | .fabProbeFlit port flit => Sys2Proof.Machine.execFabProbeFlit port flit s
  | .fabEchoFlit port flit => Sys2Proof.Machine.execFabEchoFlit port flit s
  | .fabCompare port => Sys2Proof.Machine.execFabCompare port s
  | .fabRetrain port => Sys2Proof.Machine.execFabRetrain port s
  | .fabPlanAck port value ue => Sys2Proof.Machine.execFabPlanAck port value ue s
  | .fabPortEnable host port => Sys2Proof.Machine.execFabPortEnable host port s
  | .fabPortDisable host port => Sys2Proof.Machine.execFabPortDisable host port s
  | .fabPartsliceWrite port part slice => Sys2Proof.Machine.execFabPartsliceWrite port part slice s
  | .retractMessage part body src => Sys2Proof.Machine.execRetractMessage part body src s
  | .degradeMessage part body src => Sys2Proof.Machine.execDegradeMessage part body src s
  | .scopeVote part src sender scruple tile => Sys2Proof.Machine.execScopeVote part src sender scruple tile s
  | .updeadlineExpiry part => Sys2Proof.Machine.execUpdeadlineExpiry part s
  | .scopeDecision part src sender scruple tile => Sys2Proof.Machine.execScopeDecision part src sender scruple tile s
  | .scopeDone part src sender scruple tile => Sys2Proof.Machine.execScopeDone part src sender scruple tile s
  | .scopeAlldone part src sender scruple tile => Sys2Proof.Machine.execScopeAlldone part src sender scruple tile s
  | .hlkLinkFlit port flit => Sys2Proof.Machine.execHlkLinkFlit port flit s
  | .hlkIdentFlit port serial sender => Sys2Proof.Machine.execHlkIdentFlit port serial sender s
  | .hlkIdentTimer port => Sys2Proof.Machine.execHlkIdentTimer port s
  | .hlkMrd port tag addr len ue => Sys2Proof.Machine.execHlkMrd port tag addr len ue s
  | .hlkMwr port addr len sv scruple data => Sys2Proof.Machine.execHlkMwr port addr len sv scruple data s
  | .hlkCpl port tag status sv scruple data => Sys2Proof.Machine.execHlkCpl port tag status sv scruple data s
  | .hlkReadTimeout port tag => Sys2Proof.Machine.execHlkReadTimeout port tag s
  | .hlkLaneSignalLoss port => Sys2Proof.Machine.execHlkLaneSignalLoss port s
  | .hlkRetrainTimer port => Sys2Proof.Machine.execHlkRetrainTimer port s
  | .hlkDoorbell port queue value => Sys2Proof.Machine.execHlkDoorbell port queue value s
  | .queueEnable port queue value => Sys2Proof.Machine.execQueueEnable port queue value s
  | .queueDisable port queue value => Sys2Proof.Machine.execQueueDisable port queue value s
  | .queueEntryStart part queue => Sys2Proof.Machine.execQueueEntryStart part queue s
  | .queueEntryComplete part queue ue => Sys2Proof.Machine.execQueueEntryComplete part queue ue s
  | .ownerClaim port => Sys2Proof.Machine.execOwnerClaim port s
  | .ownerClaimDecide => Sys2Proof.Machine.execOwnerClaimDecide s
  | .ownerRelease port => Sys2Proof.Machine.execOwnerRelease port s
  | .partitionLayoutChange port value => Sys2Proof.Machine.execPartitionLayoutChange port value s
  | .partitionRoleChange port value => Sys2Proof.Machine.execPartitionRoleChange port value s
  | .partitionCommandComplete => Sys2Proof.Machine.execPartitionCommandComplete s
  | .diagnosis part index failing taken => Sys2Proof.Machine.execDiagnosis part index failing taken s
  | .chkLogack port die value => Sys2Proof.Machine.execChkLogack port die value s
  | .testBinst port value ue => Sys2Proof.Machine.execTestBinst port value ue s
  | .flashWriteComplete => Sys2Proof.Machine.execFlashWriteComplete s
  | .rollingCopyComplete die cluster => Sys2Proof.Machine.execRollingCopyComplete die cluster s
  | .rollingTestComplete die cluster defect => Sys2Proof.Machine.execRollingTestComplete die cluster defect s
  | .swapBackCopyComplete die cluster => Sys2Proof.Machine.execSwapBackCopyComplete die cluster s
  | .testCmd port value => Sys2Proof.Machine.execTestCmd port value s
  | .deviceTestStart => Sys2Proof.Machine.execDeviceTestStart s
  | .deviceTestComplete defects ue => Sys2Proof.Machine.execDeviceTestComplete defects ue s
  | .fwUpdate port value ue => Sys2Proof.Machine.execFwUpdate port value ue s
  | .keyAddOwner port => Sys2Proof.Machine.execKeyAddOwner port s
  | .keyAddOperator port => Sys2Proof.Machine.execKeyAddOperator port s
  | .keyRemove port => Sys2Proof.Machine.execKeyRemove port s
  | .deprovision port => Sys2Proof.Machine.execDeprovision port s
  | .getVersion port => Sys2Proof.Machine.execGetVersion port s
  | .getCapabilities port => Sys2Proof.Machine.execGetCapabilities port s
  | .negotiateAlgorithms port => Sys2Proof.Machine.execNegotiateAlgorithms port s
  | .getDigests port => Sys2Proof.Machine.execGetDigests port s
  | .getCertificate port => Sys2Proof.Machine.execGetCertificate port s
  | .challenge port => Sys2Proof.Machine.execChallenge port s
  | .getMeasurements port => Sys2Proof.Machine.execGetMeasurements port s
  | .spdmUnsupportedRequest port => Sys2Proof.Machine.execSpdmUnsupportedRequest port s
  | .dbgSetD1 port => Sys2Proof.Machine.execDbgSetD1 port s
  | .dbgSetD0 port => Sys2Proof.Machine.execDbgSetD0 port s
  | .dbgAllowd2Clear port => Sys2Proof.Machine.execDbgAllowd2Clear port s
  | .dbgTokenSubmit token => Sys2Proof.Machine.execDbgTokenSubmit token s
  | .dbgTokenDecide => Sys2Proof.Machine.execDbgTokenDecide s
  | .d2ZeroingComplete => Sys2Proof.Machine.execD2ZeroingComplete s
  | .tapBypass => Sys2Proof.Machine.execTapBypass s
  | .tapSamplePreload => Sys2Proof.Machine.execTapSamplePreload s
  | .tapExtest => Sys2Proof.Machine.execTapExtest s
  | .dbgstat => Sys2Proof.Machine.execDbgstat s
  | .dbgnonce => Sys2Proof.Machine.execDbgnonce s
  | .dbgctr addr => Sys2Proof.Machine.execDbgctr addr s
  | .dbgmemRead addr => Sys2Proof.Machine.execDbgmemRead addr s
  | .dbgmemWrite addr value => Sys2Proof.Machine.execDbgmemWrite addr value s
  | .dbgcoreHalt core => Sys2Proof.Machine.execDbgcoreHalt core s
  | .dbgcoreStep core => Sys2Proof.Machine.execDbgcoreStep core s
  | .dbgcoreResume core => Sys2Proof.Machine.execDbgcoreResume core s
  | .dbgcoreRegRead core offset => Sys2Proof.Machine.execDbgcoreRegRead core offset s
  | .dbgcoreRegWrite core offset value => Sys2Proof.Machine.execDbgcoreRegWrite core offset value s
  | .bridgeControlFlit bridge crcOk => Sys2Proof.Machine.execBridgeControlFlit bridge crcOk s
  | .eventCounterClear port addr => Sys2Proof.Machine.execEventCounterClear port addr s
  | .perfCounterClear port addr => Sys2Proof.Machine.execPerfCounterClear port addr s
  | .linkErrorCounterClear port addr => Sys2Proof.Machine.execLinkErrorCounterClear port addr s
  | .registerWrite port addr value => Sys2Proof.Machine.execRegisterWrite port addr value s
  | .hlkLinkUp port => Sys2Proof.Machine.execHlkLinkUp port s
  | .hlkReplayTimeout port => Sys2Proof.Machine.execHlkReplayTimeout port s
  | .hlkNakHoldoffExpiry port => Sys2Proof.Machine.execHlkNakHoldoffExpiry port s
  | .edgeOperationComplete core => Sys2Proof.Machine.execEdgeOperationComplete core s

end Sys2Proof.Machine
end

