-- ==== Sys2Proof/Safety.lean ====
section
/-!
DEFINITION. What counts as a safe run, in the terms that statements use: outcomes that go on, what events and counts leave alone, and
when an instruction of a core is carried out.
-/
namespace Sys2Proof.Machine

/-- An outcome that goes on with a state of which `P` holds. -/
def leadsTo (o : Host.Outcome State Fault Refusal) (P : State → Prop) : Prop := ∃ t, o = .next t ∧ P t

/-- Runs of commands: `s` leads to `t` in any number of steps. -/
inductive Reaches : State → State → Prop
  | refl (s : State) : Reaches s s
  | step {s t u : State} (h : Sys2Proof.Machine.step s = .next t) (r : Reaches t u) : Reaches s u

/-- The registers that raising an event counts in: the event counters, and the flits an interrupt sends (R39, R432, R439). -/
def RegKind.counting (k : RegKind) : Bool := k == .CTL_EVCNT || k == .CTL_EVCNT_DEV || k == .HLK_PC_TX

/-- Occurrences of an event counted in a die's array and in the device-wide array (R39). -/
def Dev.events (s : Dev) (die code : Nat) : Nat := s.fld Fld.CTL_EVCNT_COUNT (dieIdx .CTL_EVCNT die code)
def Dev.eventsDev (s : Dev) (code : Nat) : Nat := s.fld Fld.CTL_EVCNT_DEV_COUNT code

/-- What an event leaves alone: all but its counters, the host ports' packets and what is sent (R39, R432). -/
structure Quiet (s t : Dev) : Prop where
  reg : ∀ k i, k.counting = false → t.reg k i = s.reg k i
  mem : t.mem = s.mem
  cores : t.cores = s.cores
  parts : t.parts = s.parts
  fab : t.fab = s.fab
  chain : t.chain = s.chain
  spr : t.spr = s.spr
  ctl : t.ctl = s.ctl
  sby : t.sby = s.sby
  sec : t.sec = s.sec
  now : t.now = s.now
  fresh : t.fresh = s.fresh
  ue : t.ue = s.ue

/-- An instruction word of a core is carried out: its sequencer issues, the byte offset lies in the payload, the guard lets it
through, it keeps the rules of R234, and no register it names is awaited (R231, R234, R235, R263, R274, R311). -/
structure Issues (s : Dev) (c i : Nat) (legal : Bool) (uses : List Nat) : Prop where
  may : s.mayIssue c = true
  pc : (s.core c).pc.toNat < payloadEnd
  guard : opOf i < 0xA0 → ((s.core c).guard i).testBit 0 = true
  legal : legal = true
  free : uses.any (s.core c).pend.contains = false

/-- The same of a standard word, with the further rules `more` on it, and of a long word. -/
def IssuesS (s : Dev) (c i : Nat) (m : Form) (more : Bool) : Prop := Issues s c i (m.ok i && more) (m.uses i)
def IssuesL (s : Dev) (c i : Nat) (d a : Slot) (useF8 more : Bool) : Prop := Issues s c i (longOk d a useF8 i && more) (({ d := d, a := a } : Form).uses i)

/-- A core's byte offset. -/
def Dev.pcOf (s : Dev) (c : Nat) : Nat := (s.core c).pc.toNat

/-- An instruction is carried out with effect `t` and the sequencer moves on by one word (R231, R239). -/
def after (s : State) (c : Nat) (t : Dev) : Host.Outcome State Fault Refusal := .next { s with dev := t.issued c (s.dev.pcOf c + 8) }

/-- A port whose requests are carried out: UP, not OFF, in READY (R417, R435, R515). -/
def Dev.serves (s : Dev) (port : Nat) : Prop :=
  s.fld Fld.HLK_PSTAT_LINK port = 2 ∧ s.fld Fld.HLK_PSTAT_ROLE port ≠ 0 ∧ s.fld Fld.CTL_BOOT_STAGE 0 = 6

/-- A port whose requests to the registers of a die, of its partition, or of a core reach them (R20, R24, R35, R423). -/
def Dev.servesDie (s : Dev) (port d : Nat) : Prop := s.serves port ∧ s.partOf d = s.partOf port ∧ s.reaches port d = true
def Dev.servesPart (s : Dev) (port : Nat) : Prop := s.serves port ∧ s.reaches port (s.partOf port) = true
def Dev.servesCore (s : Dev) (port c : Nat) : Prop := s.serves port ∧ s.coreServed (s.partOf port) c = true ∧ s.reaches port (coreDie c) = true

/-- A lead carries out what waits for one: the fences in `fences`, the retirements in `due` and the rolling tests in `swaps`, no policy; the
open records of its journal are of fills, which go on by their own commands, or in `rs`; no load and no die waits for a fill (R486, R492,
R496, R519). -/
structure Leads (s : Dev) (fences due : List Nat) (swaps : List SwapTest) (rs : List JRec) : Prop where
  lead : s.hasLead = true
  fences : s.ctl.fences = fences
  due : s.spr.due = due
  swaps : s.spr.swaps = swaps
  policies : s.spr.policies = []
  records : ∀ r ∈ s.ctl.journal, r.isOpen = true → r.type = 2 ∨ r ∈ rs
  loads : ∀ p pl, (s.part p).loading = some pl → pl.bound = true
  dies : ∀ d, d < 6 → s.leaveCores d = s

/-- A lead for which nothing waits. -/
def Dev.settled (s : Dev) : Prop := Leads s [] [] [] []

/-- The lead has taken up the fence of a die: carried out where it acts unmirrored, else recorded, waiting for NEXT (R496, R502). -/
def FenceTaken (s t : State) (d : Nat) : Prop :=
  t.flash = s.flash ∧ t.pending = s.pending ∧ (s.dev.solo = true → t.dev.fenced d = true) ∧
    (s.dev.solo = false → t.dev.fenced d = false ∧ t.dev.isOpenFor 6 d = true)

/-- What a command may change of the module: the registers, cores, partitions, fabric ports and bytes of memory named, and the parts
that are one each. -/
structure Touches where
  reg : RegKind → Nat → Prop := fun _ _ => False
  core : Nat → Prop := fun _ => False
  part : Nat → Prop := fun _ => False
  fab : Nat → Prop := fun _ => False
  byte : Nat → Prop := fun _ => False
  chain : Prop := False
  spr : Prop := False
  ctl : Prop := False
  sby : Prop := False
  sec : Prop := False

/-- The frame of a command: all but what `m` names, the event counters, and the packets of host ports is as it was, and so is the
time. -/
structure Frame (m : Touches) (s t : Dev) : Prop where
  reg : ∀ k i, k.counting = false → ¬ m.reg k i → t.reg k i = s.reg k i
  core : ∀ c, ¬ m.core c → t.core c = s.core c
  part : ∀ p, ¬ m.part p → t.part p = s.part p
  fab : ∀ p, ¬ m.fab p → t.fabPort p = s.fabPort p
  byte : ∀ a, ¬ m.byte a → Memory.byte t.mem a = Memory.byte s.mem a
  chain : ¬ m.chain → t.chain = s.chain
  spr : ¬ m.spr → t.spr = s.spr
  ctl : ¬ m.ctl → t.ctl = s.ctl
  sby : ¬ m.sby → t.sby = s.sby
  sec : ¬ m.sec → t.sec = s.sec
  now : t.now = s.now

/-- What the uncorrectable errors of a command's reads touch besides: the fault logs (R448, R463). -/
def Touches.withLog (m : Touches) (ue : List (BitVec 52)) : Touches :=
  { m with reg := fun k i => m.reg k i ∨ (ue ≠ [] ∧ (k = .CHK_LOG ∨ k = .CHK_LOGSTAT)), ctl := m.ctl ∨ ue ≠ [] }

/-- The core and whole word of a command that gives a core its next instruction (R233, R236). -/
def commandWord (i : Instr) : Option (CoreId × Nat) :=
  match i with
  | .sop c w => some (c, insn 0x01 w)
  | .sopi c w => some (c, insn 0x02 w)
  | .slih c w => some (c, insn 0x03 w)
  | .scmp c w => some (c, insn 0x04 w)
  | .scsr c w => some (c, insn 0x05 w)
  | .br c w => some (c, insn 0x20 w)
  | .brr c w => some (c, insn 0x21 w)
  | .wbeat c w => some (c, insn 0x22 w)
  | .bar c w => some (c, insn 0x23 w)
  | .fence c w => some (c, insn 0x24 w)
  | .lfmt c w => some (c, insn 0x25 w)
  | .loss c w => some (c, insn 0x26 w)
  | .stepend c w => some (c, insn 0x27 w)
  | .nop c w => some (c, insn 0x2F w)
  | .lds c w => some (c, insn 0x40 w)
  | .sts c w => some (c, insn 0x41 w)
  | .vld c w => some (c, insn 0x42 w)
  | .vst c w => some (c, insn 0x43 w)
  | .dma c w => some (c, insn 0x44 w)
  | .dmaw c w => some (c, insn 0x45 w)
  | .wload c w => some (c, insn 0x60 w)
  | .amul c w => some (c, insn 0x61 w)
  | .pspill c w => some (c, insn 0x62 w)
  | .presume c w => some (c, insn 0x63 w)
  | .pout c w => some (c, insn 0x64 w)
  | .narrow c w => some (c, insn 0x80 w)
  | .widen c w => some (c, insn 0x81 w)
  | .vf c w => some (c, insn 0xA0 w)
  | .vcmp c w => some (c, insn 0xA1 w)
  | .vcvt c w => some (c, insn 0xA2 w)
  | .vred c w => some (c, insn 0xA3 w)
  | .vprd c w => some (c, insn 0xA4 w)
  | .vssq c w => some (c, insn 0xA5 w)
  | .nrd c w => some (c, insn 0xA6 w)
  | .vopt c w => some (c, insn 0xA7 w)
  | .vi c w => some (c, insn 0xC0 w)
  | .vsel c w => some (c, insn 0xC1 w)
  | .vbcast c w => some (c, insn 0xC2 w)
  | .vidx c w => some (c, insn 0xC3 w)
  | .vmovs c w => some (c, insn 0xC4 w)
  | .plog c w => some (c, insn 0xC5 w)
  | .vrand c w => some (c, insn 0xC6 w)
  | .vgumbel c w => some (c, insn 0xC7 w)
  | _ => none

/-- The opcodes of the table of R236. -/
def inTable (op : Nat) : Bool :=
  [0x01, 0x02, 0x03, 0x04, 0x05, 0x20, 0x21, 0x22, 0x23, 0x24, 0x25, 0x26, 0x27, 0x2F, 0x40, 0x41, 0x42, 0x43, 0x44, 0x45, 0x60, 0x61, 0x62, 0x63,
    0x64, 0x80, 0x81, 0xA0, 0xA1, 0xA2, 0xA3, 0xA4, 0xA5, 0xA6, 0xA7, 0xC0, 0xC1, 0xC2, 0xC3, 0xC4, 0xC5, 0xC6, 0xC7].contains op

/-- The fields of the standard form that an instruction uses, by its opcode, and the bits of F and IMM16 it uses; none for the long form (R233,
R234, R236 to R259). -/
def wordForm (i : Nat) : Option Form :=
  match opOf i with
  | 0x01 => some { d := .s, a := .s, b := .s, f := 0x3F }
  | 0x04 => some { d := .p, a := .s, b := .s, f := 0x3F }
  | 0x05 => some (formScsr i)
  | 0x21 => some { d := .s, a := .s }
  | 0x23 => some { imm := 0x3F }
  | 0x24 => some { imm := 0x1F }
  | 0x25 => some { d := .s, imm := 0x3FF }
  | 0x26 => some { a := .v, imm := 0x1F }
  | 0x27 => some {}
  | 0x2F => some {}
  | 0x44 => some { a := .s, imm := 0xF }
  | 0x45 => some { imm := 0xFFFF }
  | 0x60 => some { a := .s, b := .s, f := 1, imm := 0x307C }
  | 0x61 => some { a := .s, b := .s, f := 0x3F, imm := 0xFFFC }
  | 0x62 => some { a := .s, f := 0x1C }
  | 0x63 => some { a := .s, f := 0x1C }
  | 0x64 => some { d := .s, a := .s, b := .s, c := .s, x := .s, f := 0x1F }
  | 0x80 => some { d := .s, a := .s, b := .s, c := .s, x := .s }
  | 0x81 => some { a := .s, b := .s, c := .s, x := .s }
  | 0xA0 => some (formVf i)
  | 0xA1 => some { d := .p, a := fpSlot (wideOf i), b := fpSlot (wideOf i), f := 0xF, imm := 8 }
  | 0xA2 => some (formVcvt i)
  | 0xA3 => some { d := .v, a := .v, b := if fF i = 4 then .v else .unused, c := if fF i = 4 then .v else .unused, f := 7, imm := if fF i = 0 then 7 else 0 }
  | 0xA4 => some { d := .v, f := 0x1C, imm := 0xFF }
  | 0xA5 => some { a := .v, f := 3 }
  | 0xA6 => some { d := .s, f := 7 }
  | 0xA7 => some (formVopt i)
  | 0xC0 => some { d := .v, a := .v, b := .v, f := 0xF }
  | 0xC1 => some { d := .v, a := .v, b := .v, c := .p }
  | 0xC2 => some { d := .v, a := .s }
  | 0xC3 => some { d := .v, a := .s }
  | 0xC4 => some { d := .s, a := .v, imm := 0x1F }
  | 0xC5 => some (formPlog i)
  | 0xC6 => some { d := .v, a := .s, b := .s, c := if fF i % 8 = 3 then .s else .unused, f := 0xF }
  | 0xC7 => some { d := .v, a := .v, b := .s, c := .s, x := .s, f := 8 }
  | _ => none

/-- Whether a word keeps the rules of R234 on its opcode, its register fields and the bits it does not use. -/
def wordFits (i : Nat) : Bool :=
  match wordForm i with
  | some m => m.ok i
  | none =>
    match opOf i with
    | 0x02 => longOk .s .s true i
    | 0x03 => longOk .s .s false i
    | 0x20 => longOk .s .unused false i
    | 0x22 => longOk .unused .unused false i
    | 0x40 => longOk .s .s false i
    | 0x41 => longOk .s .s false i
    | 0x42 => longOk .v .s false i
    | 0x43 => longOk .v .s false i
    | _ => false

/-! ### Requests of host ports -/

/-- The port of a command that only the owner port has carried out (R423, R433). -/
def ownerRequest (i : Instr) : Option HostPort :=
  match i with
  | .pwrCmdRun port => some port
  | .pwrCmdIdle port => some port
  | .pwrCmdSleep port => some port
  | .pwrCmdDeep port => some port
  | .pwrCmdOff port => some port
  | .sprCmdRetire port _ => some port
  | .sprCmdApprove port => some port
  | .sprCmdDecline port => some port
  | .fabPartsliceWrite port _ _ => some port
  | .partitionLayoutChange port _ => some port
  | .partitionRoleChange port _ => some port
  | .testBinst port _ _ => some port
  | .testCmd port _ => some port
  | .keyAddOwner port => some port
  | .keyAddOperator port => some port
  | .keyRemove port => some port
  | .deprovision port => some port
  | .dbgSetD1 port => some port
  | .dbgSetD0 port => some port
  | .dbgAllowd2Clear port => some port
  | _ => none

/-- The port of a command that a host sends as a request of its window. -/
def hostRequest (i : Instr) : Option HostPort :=
  match i with
  | .planLoad port _ => some port
  | .planUnload port => some port
  | .planStop port => some port
  | .planRun port _ => some port
  | .stepCtabWrite port _ => some port
  | .stepStreamWrite port _ => some port
  | .stepCtrWrite port _ => some port
  | .ctxSave port _ => some port
  | .ctxRestore port _ => some port
  | .fmtRevertWrite port _ => some port
  | .fabCompare port => some port
  | .fabRetrain port => some port
  | .fabPlanAck port _ _ => some port
  | .fabPortEnable port _ => some port
  | .fabPortDisable port _ => some port
  | .hlkDoorbell port _ _ => some port
  | .queueEnable port _ _ => some port
  | .queueDisable port _ _ => some port
  | .ownerClaim port => some port
  | .ownerRelease port => some port
  | .chkLogack port _ _ => some port
  | .fwUpdate port _ _ => some port
  | .registerWrite port _ _ => some port
  | i => ownerRequest i

/-! ### Flash -/

/-- What always holds of flash: eight bushel slots, no two valid bushels of one ID, and a fuse floor of at most 64 (R467, R469, R557). -/
structure Flash.Sound (f : Flash) : Prop where
  slots : f.bushels.length = 8
  ids : ∀ (i j : Nat) (a b : BushelRec), f.bushels[i]? = some a → f.bushels[j]? = some b → i ≠ j → a.valid = true → b.valid = true → a.id ≠ b.id
  floor : f.floor ≤ 64

/-! ### The tables of R237 and R254 over bit vectors -/

/-- The scalar functions of R237. -/
def scalarOp (f : Nat) (a b : BitVec 64) : Option (BitVec 64) :=
  match f with
  | 0x00 => some (a + b)
  | 0x01 => some (a - b)
  | 0x02 => some (a &&& b)
  | 0x03 => some (a ||| b)
  | 0x04 => some (a ^^^ b)
  | 0x05 => some (a <<< (b.toNat % 64))
  | 0x06 => some (a >>> (b.toNat % 64))
  | 0x07 => some (a.sshiftRight (b.toNat % 64))
  | 0x08 => some (a * b)
  | 0x09 => some (if b.slt a then b else a)
  | 0x0A => some (if b.slt a then a else b)
  | 0x0B => some (if b.ult a then b else a)
  | 0x0C => some (if b.ult a then a else b)
  | _ => none

/-- The conditions of SCMP (R237). -/
def scalarCond (f : Nat) (a b : BitVec 64) : Option Bool :=
  match f with
  | 0 => some (a == b)
  | 1 => some (a != b)
  | 2 => some (a.slt b)
  | 3 => some (a.ult b)
  | 4 => some (!a.slt b)
  | 5 => some (!a.ult b)
  | _ => none

/-- The functions of VI (R254). -/
def laneOp (f : Nat) (a b : BitVec 32) : Option (BitVec 32) :=
  match f with
  | 0x0 => some (a + b)
  | 0x1 => some (a - b)
  | 0x2 => some (a &&& b)
  | 0x3 => some (a ||| b)
  | 0x4 => some (a ^^^ b)
  | 0x5 => some (a <<< (b.toNat % 32))
  | 0x6 => some (a >>> (b.toNat % 32))
  | 0x7 => some (a.sshiftRight (b.toNat % 32))
  | 0x8 => some (a * b)
  | 0x9 => some (if b.slt a then b else a)
  | 0xA => some (if b.slt a then a else b)
  | 0xB => some (if b.ult a then b else a)
  | 0xC => some (if b.ult a then a else b)
  | _ => none

/-- What a core keeps: all but the program counter, the tiles it has used and the registers named. -/
structure CoreKeeps (sregs vregs pregs nregs : Nat → Prop) (x y : Core) : Prop where
  s : ∀ i, ¬ sregs i → y.s i = x.s i
  v : ∀ r, ¬ vregs r → y.v r = x.v r
  p : ∀ i, ¬ pregs i → y.p i = x.p i
  n : ∀ i, ¬ nregs i → y.n i = x.n i
  panels : y.panels = x.panels
  banks : y.banks = x.banks
  arrayQ : y.arrayQ = x.arrayQ
  flights : y.flights = x.flights
  loads : y.loads = x.loads
  edgeQ : y.edgeQ = x.edgeQ
  edgeFlights : y.edgeFlights = x.edgeFlights
  dmas : y.dmas = x.dmas
  lanes : y.lanes = x.lanes
  committed : y.committed = x.committed
  barrier : y.barrier = x.barrier

/-- A core keeps its registers, program counter, panels and queues. -/
def CoreKeepsRegisters (x y : Core) : Prop :=
  y.pc = x.pc ∧ y.sregs = x.sregs ∧ y.vregs = x.vregs ∧ y.pregs = x.pregs ∧ y.nregs = x.nregs ∧ y.panels = x.panels ∧ y.arrayQ = x.arrayQ ∧
    y.flights = x.flights ∧ y.edgeQ = x.edgeQ ∧ y.edgeFlights = x.edgeFlights ∧ y.dmas = x.dmas ∧ y.lanes = x.lanes

/-- A core that has moved on by one word with registers `x`. -/
def Core.moved (x : Core) : Core := { x with pc := x.pc + 8 }

/-- An instruction of core `c` has been carried out: the core is now `x`, with the group of its next instruction fetched, its issue is
counted, and beside the core, its count and what `m` names all is as it was. -/
structure Carried (s t : State) (c : Nat) (x : Core) (m : Touches) : Prop where
  core : t.dev.core c = x.fetchFrom t.dev.mem c
  count : t.dev.reg .CORE_PC_ISSUE c % 2 ^ 48 = (s.dev.reg .CORE_PC_ISSUE c + 1) % 2 ^ 48
  frame : Frame { m with
    core := fun j => m.core j ∨ j = c
    reg := fun k i => m.reg k i ∨ (k = .CORE_PC_ISSUE ∧ i = c) } s.dev t.dev
  flash : t.flash = s.flash
  pending : t.pending = s.pending

/-- An instruction of core `c` stopped it: its state, cause, offset and address, its event counted, its queues empty, its registers
and memory as they were, and its partition's verdict unclean where a step awaits its vote (R272). -/
structure Stopped (s t : State) (c code fpc addr : Nat) : Prop where
  state : t.dev.fld Fld.CORE_STAT_STATE c = coreStopped
  cause : t.dev.fld Fld.CORE_STAT_CAUSE c = code
  fpc : t.dev.reg .CORE_FPC c = fpc
  faddr : t.dev.reg .CORE_FADDR c = addr
  event : t.dev.events (coreDie c) code = min 0xFFFFFFFF (s.dev.events (coreDie c) code + 1)
  core : t.dev.core c = { s.dev.core c with arrayQ := [], edgeQ := [], barrier := none }
  cores : ∀ j, j ≠ c → t.dev.core j = s.dev.core j
  byte : ∀ a, Memory.byte t.dev.mem a = Memory.byte s.dev.mem a
  unclean : (s.dev.part (s.dev.corePart c)).stepping = true → (s.dev.part (s.dev.corePart c)).voteFired = false →
    t.dev.flag Fld.STEP_STAT_UNCLEAN (s.dev.corePart c) = true
  flash : t.flash = s.flash
  pending : t.pending = s.pending

end Sys2Proof.Machine
end

