-- ==== Sys2Proof/Certificates/Slice0/Obligations.lean ====
section
/-!
DEFINITION. The statements for the provers.
-/
open Sys2Proof Sys2Proof.Machine

/-! ### Scalar and control instructions of a core -/

/-- R237: SOP, SOPI and SCMP give the results of its tables over 64-bit vectors, in the destination register and nowhere else; every
other function code stops the core as illegal. -/
def Obligations.ScalarFunctionsOfR237 : Prop :=
  ∀ (core : CoreId) (w : BitVec 56) (s : State),
    let c := core.toNat
    let x := s.dev.core c;
    (let i := insn 0x01 w;
      IssuesS s.dev c i formSop true →
        match scalarOp (fF i) (BitVec.ofNat 64 (x.s (fA i))) (BitVec.ofNat 64 (x.s (fB i))) with
        | some v => leadsTo (exec (.sop core w) s) (fun t => Carried s t c (x.setS (fD i) v.toNat).moved {})
        | none => leadsTo (exec (.sop core w) s) (fun t => Stopped s t c Ev.CORE_ILLEGAL (s.dev.pcOf c) 0)) ∧
    (let i := insn 0x02 w;
      IssuesL s.dev c i .s .s true true →
        match scalarOp (f8 i) (BitVec.ofNat 64 (x.s (fA i))) ((BitVec.ofNat 32 (imm32 i)).signExtend 64) with
        | some v => leadsTo (exec (.sopi core w) s) (fun t => Carried s t c (x.setS (fD i) v.toNat).moved {})
        | none => leadsTo (exec (.sopi core w) s) (fun t => Stopped s t c Ev.CORE_ILLEGAL (s.dev.pcOf c) 0)) ∧
    (let i := insn 0x04 w;
      IssuesS s.dev c i { d := .p, a := .s, b := .s, f := 0x3F } true →
        match scalarCond (fF i) (BitVec.ofNat 64 (x.s (fA i))) (BitVec.ofNat 64 (x.s (fB i))) with
        | some b => leadsTo (exec (.scmp core w) s) (fun t =>
            Carried s t c (x.setP (fD i) 0xFFFFFFFF (if b then 0xFFFFFFFF else 0)).moved {})
        | none => leadsTo (exec (.scmp core w) s) (fun t => Stopped s t c Ev.CORE_ILLEGAL (s.dev.pcOf c) 0))

/-- R229 and R235: a read after a write of a scalar, predicate or vector register. s0 reads zero and p0 all ones whatever is written;
every other register reads what was written to it, a predicate or vector register only in the lanes its mask selects. R236 and R264: SLIH
replaces the upper half of its source by the immediate, and LFMT reads the code of a monitor: 0xF for an entry without a layer, SFMT for a
sensitive layer, else STATE.FMT; each writes its destination and nothing else. -/
def Obligations.RegisterWritesAndReads : Prop :=
  (∀ (x : Core) (i j v m : Nat) (vs : List Nat), vs.length = 32 →
    (x.setS i v).s j = (if j = 0 then 0 else if j = i then v % 2 ^ 64 else x.s j) ∧
    (∀ l, l < 32 → ((x.setP i m v).p j).testBit l =
      (if j = 0 then true else if j = i then (if m.testBit l then v.testBit l else (x.p j).testBit l) else (x.p j).testBit l)) ∧
    (∀ l, l < 32 → ((x.setV i m vs).v j).getD l 0 =
      (if j = i ∧ m.testBit l = true then vs.getD l 0 % 2 ^ 32 else (x.v j).getD l 0))) ∧
  (∀ (core : CoreId) (w : BitVec 56) (s : State),
    let c := core.toNat
    let x := s.dev.core c;
    (let i := insn 0x03 w;
      IssuesL s.dev c i .s .s false true →
        leadsTo (exec (.slih core w) s) (fun t => Carried s t c
          (x.setS (fD i) ((BitVec.ofNat 64 (x.s (fA i)) &&& 0xFFFFFFFF#64) ||| (BitVec.ofNat 64 (imm32 i) <<< 32)).toNat).moved {})) ∧
    (let i := insn 0x25 w
      let p := s.dev.corePart c
      let m := monIdx p (imm16 i);
      IssuesS s.dev c i { d := .s, imm := 0x3FF } true →
        leadsTo (exec (.lfmt core w) s) (fun t => Carried s t c
          (x.setS (fD i) (if s.dev.monValid p (imm16 i) = false then 0xF
            else if s.dev.flag Fld.FMT_MON_CFG_SENS m then s.dev.fld Fld.FMT_MON_CFG_SFMT m else s.dev.fld Fld.FMT_MON_STATE_FMT m)).moved {})))

/-- R231, R239: BR goes to its own address plus eight times its immediate and BRR to its register, each with the link to the next instruction,
and what was fetched before the branch counts no more; a BRR to an address that is no multiple of 8 is an address fault at the BRR, which writes no link. -/
def Obligations.BranchTargetsAndLinks : Prop :=
  ∀ (core : CoreId) (w : BitVec 56) (s : State),
    let c := core.toNat
    let x := s.dev.core c;
    (let i := insn 0x20 w;
      IssuesL s.dev c i .s .unused false true →
        leadsTo (exec (.br core w) s) (fun t => Carried s t c
          { x.setS (fD i) (s.dev.pcOf c + 8) with pc := x.pc + 8#64 * (BitVec.ofNat 32 (imm32 i)).signExtend 64, fetched := none } {})) ∧
    (let i := insn 0x21 w;
      IssuesS s.dev c i { d := .s, a := .s } true →
        (x.s (fA i) % 8 = 0 → leadsTo (exec (.brr core w) s) (fun t => Carried s t c
          { x.setS (fD i) (s.dev.pcOf c + 8) with pc := BitVec.ofNat 64 (x.s (fA i)), fetched := none } {})) ∧
        (x.s (fA i) % 8 ≠ 0 → leadsTo (exec (.brr core w) s) (fun t =>
          Stopped s t c Ev.CORE_ADDR (s.dev.pcOf c) (strideAddr c (x.s (fA i)) % 2 ^ 52))))

/-- R236, R241, R242, R262: NOP moves on. FENCE, DMAW and WBEAT move on once the units their mask names are done, no descriptor of
their tags is outstanding, or the schedule has reached their beat; until then they stay where they are and count a stall.
R263, R265, R266, R328: STEPEND with every unit done and no descriptor outstanding makes the core DONE. BAR by the last member to arrive
releases every member: none waits, and each has moved on by one word; a member that is not the last waits, counting a stall each time it is held;
BAR by a core that is no member is illegal. LOSS of a finite value moves on and hands over nothing; LOSS of a NaN or
an infinity raises EV_NAN_LOSS in the array of the partition's lowest die, records the first core and value of the step, and stops issue. -/
def Obligations.WaitsBarriersAndLosses : Prop :=
  ∀ (core : CoreId) (w : BitVec 56) (s : State),
    let c := core.toNat
    let x := s.dev.core c
    let moves (o : Host.Outcome State Fault Refusal) : Prop := leadsTo o (fun t => Carried s t c x.moved {})
    let stalls (o : Host.Outcome State Fault Refusal) : Prop := leadsTo o (fun t =>
      Frame { reg := fun k j => k = .CORE_PC_STALL_SYNC ∧ j = c } s.dev t.dev ∧ t.flash = s.flash ∧
      t.dev.reg .CORE_PC_STALL_SYNC c % 2 ^ 48 = (s.dev.reg .CORE_PC_STALL_SYNC c + 1) % 2 ^ 48);
    (IssuesS s.dev c (insn 0x2F w) {} true → moves (exec (.nop core w) s)) ∧
    (IssuesS s.dev c (insn 0x24 w) { imm := 0x1F } true →
      if x.unitsDone (imm16 (insn 0x24 w)) = true then moves (exec (.fence core w) s) else stalls (exec (.fence core w) s)) ∧
    (IssuesS s.dev c (insn 0x45 w) { imm := 0xFFFF } true →
      if ∃ d ∈ x.dmas, (imm16 (insn 0x45 w)).testBit d.tag = true then stalls (exec (.dmaw core w) s) else moves (exec (.dmaw core w) s)) ∧
    (IssuesL s.dev c (insn 0x22 w) .unused .unused false true →
      if (imm32 (insn 0x22 w) : Int) ≤ s.dev.reached (s.dev.corePart c) then moves (exec (.wbeat core w) s)
      else stalls (exec (.wbeat core w) s)) ∧
    (IssuesS s.dev c (insn 0x27 w) {} true → x.unitsDone 0x1F = true →
      leadsTo (exec (.stepend core w) s) (fun t =>
        Carried s t c x.moved { reg := fun k j => k = .CORE_STAT ∧ j = c } ∧ t.dev.fld Fld.CORE_STAT_STATE c = 2)) ∧
    (let n := imm16 (insn 0x23 w) % 64
      let ms := s.dev.barrierMembers c n;
      IssuesS s.dev c (insn 0x23 w) { imm := 0x3F } true → c ∈ ms → (∀ m ∈ ms, m ≠ c → (s.dev.core m).barrier = some n) →
      leadsTo (exec (.bar core w) s) (fun t =>
        (∀ m ∈ ms, t.dev.core m = Core.fetchFrom { s.dev.core m with barrier := none, pc := (s.dev.core m).pc + 8 } s.dev.mem m) ∧
        Frame { core := fun m => m ∈ ms, reg := fun k j => k = .CORE_PC_ISSUE ∧ j ∈ ms } s.dev t.dev ∧ t.flash = s.flash)) ∧
    (let n := imm16 (insn 0x23 w) % 64
      let ms := s.dev.barrierMembers c n;
      (IssuesS s.dev c (insn 0x23 w) { imm := 0x3F } true → c ∈ ms → (∃ m ∈ ms, m ≠ c ∧ (s.dev.core m).barrier ≠ some n) →
        leadsTo (exec (.bar core w) s) (fun t => t.dev.core c = { x with barrier := some n } ∧
          t.dev.reg .CORE_PC_STALL_SYNC c % 2 ^ 48 = (s.dev.reg .CORE_PC_STALL_SYNC c + 1) % 2 ^ 48 ∧
          Frame { core := fun m => m = c, reg := fun k j => k = .CORE_PC_STALL_SYNC ∧ j = c } s.dev t.dev ∧ t.flash = s.flash)) ∧
      (s.dev.sequencing c = true → x.barrier = some n → stalls (exec (.bar core w) s)) ∧
      (IssuesS s.dev c (insn 0x23 w) { imm := 0x3F } true → c ∉ ms →
        leadsTo (exec (.bar core w) s) (fun t => Stopped s t c Ev.CORE_ILLEGAL (s.dev.pcOf c) 0))) ∧
    (let i := insn 0x26 w
      let p := s.dev.corePart c
      let v := (x.v (fA i)).getD (imm16 i) 0;
      IssuesS s.dev c i { a := .v, imm := 0x1F } true →
        (isFin32 v = true → leadsTo (exec (.loss core w) s) (fun t =>
          Carried s t c x.moved { part := fun q => q = p } ∧ (t.dev.part p).nanStop = false)) ∧
        (isFin32 v = false → leadsTo (exec (.loss core w) s) (fun t =>
          t.dev.core c = x.moved.fetchFrom s.dev.mem c ∧ (t.dev.part p).nanStop = true ∧
          t.dev.events p Ev.NAN_LOSS = min 0xFFFFFFFF (s.dev.events p Ev.NAN_LOSS + 1) ∧
          (s.dev.flag Fld.STEP_NANL_VALID p = false → t.dev.reg .STEP_NANL p = v + c * 2 ^ 32 + 2 ^ 48) ∧
          ((s.dev.part p).stepping = true → (s.dev.part p).voteFired = false → t.dev.flag Fld.STEP_STAT_UNCLEAN p = true))))

/-- R238: SCSR reads a register of the core's own window into its destination and writes its source there, the read first; each by its
bit of F, and as the core's window gives it. -/
def Obligations.WindowReadsAndWrites : Prop :=
  ∀ (core : CoreId) (w : BitVec 56) (s : State),
    let c := core.toNat
    let x := s.dev.core c
    let i := insn 0x05 w
    let old := s.dev.windowRead c (imm16 i)
    let wrote := s.dev.windowWrite c (imm16 i) (x.s (fA i));
    IssuesS s.dev c i (formScsr i) true →
      (fF i = 1 → leadsTo (exec (.scsr core w) s) (fun t => Carried s t c (x.setS (fD i) old).moved {})) ∧
      (fF i = 2 → exec (.scsr core w) s = after s c wrote) ∧
      (fF i = 3 → exec (.scsr core w) s = after s c (wrote.putS c (fD i) old))

/-- R235: an instruction of a core outside the vector unit whose guard bit 0 is 0 moves on and does nothing else. R274, R311, R328, R574: an
instruction of a core that may not issue changes nothing, but for a LOSS in the cycle of the first non-finite one (R328) and the stall of a BAR
that waits (R263, R271). -/
def Obligations.GuardedAndBarredInstructions : Prop :=
  (∀ (cmd : Instr) (core : CoreId) (i : Nat) (s : State), commandWord cmd = some (core, i) → opOf i < 0xA0 →
    s.dev.mayIssue core.toNat = true → s.dev.pcOf core.toNat < payloadEnd → ((s.dev.core core.toNat).guard i).testBit 0 = false →
    leadsTo (exec cmd s) (fun t => Carried s t core.toNat (s.dev.core core.toNat).moved {})) ∧
  (∀ (cmd : Instr) (core : CoreId) (i : Nat) (s : State), commandWord cmd = some (core, i) → opOf i ≠ 0x26 →
    (opOf i = 0x23 → (s.dev.core core.toNat).barrier ≠ some (imm16 i % 64)) → s.dev.mayIssue core.toNat = false → exec cmd s = .next s)

/-- R234, R236 and R272: a word with a register field out of its range, an FP64 register of odd number or a bit set that its instruction does not
use, and a word whose opcode is not in the opcode table, stops its core where its guard lets it through: not carried out, its state, cause and
offset written, its event counted, the verdict unclean. -/
def Obligations.IllegalWordsStopCore : Prop :=
  ∀ (core : CoreId) (w : Word) (s : State),
    let c := core.toNat;
    wordFits w.toNat = false → s.dev.mayIssue c = true → s.dev.pcOf c < payloadEnd →
    (inTable (opOf w.toNat) = true → opOf w.toNat < 0xA0 → ((s.dev.core c).guard w.toNat).testBit 0 = true) →
    leadsTo (exec (.illegalInstruction core w) s) (fun t => Stopped s t c Ev.CORE_ILLEGAL (s.dev.pcOf c) 0)

/-! ### Loads, stores and the cluster DMA -/

/-- R240: LDS and VLD read 8 and 128 bytes of the core's own stride at sA + IMM32, and STS and VST write them there, where the offset
is a multiple of the size and lies in the payload, the sideband or the edge buffers for a load, in the payload or the staging area for
a store; a store to the gill regions is discarded; any other access is an address fault. A load leaves memory as it was; a store
changes its own bytes and the scruple of their tile, and no other byte. R471: a rolling test's copy of the core notes the store. -/
def Obligations.OwnStrideAccess : Prop :=
  ∀ (core : CoreId) (w : BitVec 56) (s : State),
    let c := core.toNat
    let x := s.dev.core c
    let loads (i n : Nat) (o : Host.Outcome State Fault Refusal) (got : State → List Byte → Prop) (vd sd : Nat → Prop) : Prop :=
      let off := x.ea i
      let yes := off % n = 0 ∧ (off + n ≤ 0xFF000 ∨ (0xFF000 ≤ off ∧ off + n ≤ 0xFF7F8) ∨ (0x100000 ≤ off ∧ off + n ≤ 0x120000));
      (yes → leadsTo o (fun t =>
        got t (Memory.bytes s.dev.mem (strideAddr c off) n) ∧ CoreKeeps sd vd (fun _ => False) (fun _ => False) x (t.dev.core c) ∧
        (t.dev.core c).pc = x.pc + 8 ∧ (∀ j, j ≠ c → t.dev.core j = s.dev.core j) ∧
        (∀ a, Memory.byte t.dev.mem a = Memory.byte s.dev.mem a) ∧ t.flash = s.flash)) ∧
      (¬ yes → leadsTo o (fun t => Stopped s t c Ev.CORE_ADDR (s.dev.pcOf c) (strideAddr c off % 2 ^ 52)))
    let stores (i : Nat) (bs : List Byte) (o : Host.Outcome State Fault Refusal) : Prop :=
      let off := x.ea i
      let n := bs.length
      let a := strideAddr c off
      let scruple (b : Nat) : Prop := ∃ sa, scrupleAddr a = some sa ∧ sa ≤ b ∧ b < sa + 8
      let yes := off % n = 0 ∧ (off + n ≤ 0xFF000 ∨ (0x100000 ≤ off ∧ off + n ≤ 0x11A000))
      let lost := off % n = 0 ∧ 0x11A000 ≤ off ∧ off + n ≤ 0x120000;
      (yes → leadsTo o (fun t =>
        Memory.bytes t.dev.mem a n = bs ∧
        t.dev.spr = { s.dev.spr with swaps := s.dev.spr.swaps.map (fun r => r.wrote c off (off + n)) } ∧
        Carried s t c (x.wrote off (off + n)).moved { spr := True, byte := fun b => (a ≤ b ∧ b < a + n) ∨ scruple b })) ∧
      (lost → leadsTo o (fun t => Carried s t c x.moved {})) ∧
      (¬ yes → ¬ lost → leadsTo o (fun t => Stopped s t c Ev.CORE_ADDR (s.dev.pcOf c) (a % 2 ^ 52)));
    (IssuesL s.dev c (insn 0x40 w) .s .s false true →
      loads (insn 0x40 w) 8 (exec (.lds core w) s) (fun t bs => fD (insn 0x40 w) ≠ 0 → leBytes 8 ((t.dev.core c).s (fD (insn 0x40 w))) = bs) (fun _ => False)
        (fun j => j = fD (insn 0x40 w))) ∧
    (IssuesL s.dev c (insn 0x42 w) .v .s false true →
      loads (insn 0x42 w) 128 (exec (.vld core w) s) (fun t bs => ((t.dev.core c).v (fD (insn 0x42 w))).flatMap (leBytes 4) = bs)
        (fun j => j = fD (insn 0x42 w)) (fun _ => False)) ∧
    (IssuesL s.dev c (insn 0x41 w) .s .s false true →
      stores (insn 0x41 w) (leBytes 8 (x.s (fD (insn 0x41 w)))) (exec (.sts core w) s)) ∧
    (IssuesL s.dev c (insn 0x43 w) .v .s false true →
      stores (insn 0x43 w) ((x.v (fD (insn 0x43 w))).flatMap (leBytes 4)) (exec (.vst core w) s))

/-- R242 and R244: DMA hands the 32 bytes at sA over as a descriptor under its tag. It is held while 16 are outstanding; an offset that is
no multiple of 32 or leaves the payload is an address fault, and a descriptor at fault stops the core with nothing moved. -/
def Obligations.DmaHandsDescriptorsOver : Prop :=
  ∀ (core : CoreId) (w : BitVec 56) (s : State),
    let c := core.toNat
    let x := s.dev.core c
    let i := insn 0x44 w
    let off := x.s (fA i)
    let d := DmaDesc.parse (imm16 i) (s.dev.reg .GRP_CORETAG c) (s.dev.pcOf c % 2 ^ 20) (Memory.bytes s.dev.mem (strideAddr c off) 32);
    IssuesS s.dev c i { a := .s, imm := 0xF } true →
      (16 ≤ x.dmas.length → leadsTo (exec (.dma core w) s) (fun t =>
        Frame { reg := fun k j => k = .CORE_PC_STALL_UNIT ∧ j = c } s.dev t.dev ∧
        t.dev.reg .CORE_PC_STALL_UNIT c % 2 ^ 48 = (s.dev.reg .CORE_PC_STALL_UNIT c + 1) % 2 ^ 48)) ∧
      (x.dmas.length < 16 → (off % 32 ≠ 0 ∨ payloadEnd < off + 32) →
        leadsTo (exec (.dma core w) s) (fun t => Stopped s t c Ev.CORE_ADDR (s.dev.pcOf c) (strideAddr c off % 2 ^ 52))) ∧
      (x.dmas.length < 16 → off % 32 = 0 → off + 32 ≤ payloadEnd →
        (∀ a, s.dev.dmaCheck c d = some (Ev.CORE_ADDR, a) →
          leadsTo (exec (.dma core w) s) (fun t => Stopped s t c Ev.CORE_ADDR (s.dev.pcOf c) (a % 2 ^ 52))) ∧
        (s.dev.dmaCheck c d = some (Ev.CORE_ILLEGAL, 0) →
          leadsTo (exec (.dma core w) s) (fun t => Stopped s t c Ev.CORE_ILLEGAL (s.dev.pcOf c) 0)) ∧
        (s.dev.dmaCheck c d = none →
          leadsTo (exec (.dma core w) s) (fun t => Carried s t c { x with dmas := x.dmas ++ [d], pc := x.pc + 8 } {})))

/-- R241, R243, R244, R392, R393, R446: a descriptor that comes to completion, every earlier one having moved its tiles, no bridge down and no
memory error. A copy from payload to payload, whose tiles do not lie over one another, carries each tile and its scruple to its destination, with
the strides of both sides, and changes no other byte. A copy of a tile into staging puts its bytes there, and raises the event of the use where
its scruple does not hold. A send of a tagged tile of a group that is not Degraded takes the group's next SEQ, an untagged one none, and changes no
byte where its route leads out. A descriptor at fault stops its core with nothing moved. One that moved its tiles before only ends (assumption 18,
DESIGN CHOICE: the tiles move at the descriptor's own or at a later one's completion). -/
def Obligations.DmaDescriptorsCarriedOut : Prop :=
  ∀ (core : CoreId) (index : Nat) (d : DmaDesc) (s : State),
    let c := core.toNat
    let x := s.dev.core c
    let p := s.dev.corePart c
    let from_ (k : Nat) : Nat := (tileAt d.src d.sstride k).toNat
    let to_ (k : Nat) : Nat := (tileAt d.dst d.dstride k).toNat
    let go : Host.Outcome State Fault Refusal := exec (.dmaDescriptorComplete core index []) s
    let ended (t : State) : Prop := (t.dev.core c).dmas = x.dmas.eraseIdx index ∧ t.flash = s.flash
    let sent : Prop := d.moved = false ∧ s.dev.dmaCheck c d = none ∧ d.kind = 1 ∧ d.count = 1 ∧ (s.dev.routeReg (coreDie c) d.route).testBit 1 = false;
    x.dmas[index]? = some d → (∀ e ∈ x.dmas.take index, e.moved = true) → s.dev.ctl.bridgesDown = [] → (s.dev.part p).nanStop = false →
    s.dev.evenOf c = none →
    (d.moved = false → s.dev.dmaCheck c d = none → d.kind = 0 →
      (∀ k, k < d.count → (scrupleAddr (from_ k)).isSome = true ∧ (scrupleAddr (to_ k)).isSome = true) →
      (∀ j k, j < k → k < d.count → to_ j ≠ to_ k ∧ to_ j ≠ from_ k) →
      leadsTo go (fun t => ended t ∧
        (∀ k ss sd, k < d.count → scrupleAddr (from_ k) = some ss → scrupleAddr (to_ k) = some sd →
          Memory.bytes t.dev.mem (to_ k) tileSize = Memory.bytes s.dev.mem (from_ k) tileSize ∧ Memory.num t.dev.mem sd 8 = Memory.num s.dev.mem ss 8) ∧
        (∀ b, (∀ k sd, k < d.count → scrupleAddr (to_ k) = some sd → ¬(to_ k ≤ b ∧ b < to_ k + tileSize) ∧ ¬(sd ≤ b ∧ b < sd + 8)) →
          Memory.byte t.dev.mem b = Memory.byte s.dev.mem b))) ∧
    (∀ n, d.moved = false → s.dev.dmaCheck c d = none → d.kind = 0 → d.count = 1 → memPlace (to_ 0) = .staging n →
      leadsTo go (fun t => ended t ∧ Memory.bytes t.dev.mem (to_ 0) tileSize = Memory.bytes s.dev.mem (from_ 0) tileSize ∧
        (∀ b, ¬(to_ 0 ≤ b ∧ b < to_ 0 + tileSize) → Memory.byte t.dev.mem b = Memory.byte s.dev.mem b) ∧
        (∀ code, s.dev.tileFault (from_ 0) = some code → (s.dev.part p).recs = [] →
          t.dev.events (coreDie c) code = min 0xFFFFFFFF (s.dev.events (coreDie c) code + 1)))) ∧
    (∀ gi g, sent → (s.dev.groups p).find (d.coreTag % 65536) = some (gi, g) → s.dev.degraded p (d.coreTag % 65536) = false →
      leadsTo go (fun t => ended t ∧ SMap.read 0 (t.dev.part p).seqs gi = SMap.read 0 (s.dev.part p).seqs gi + 1 ∧
        (∀ b, Memory.byte t.dev.mem b = Memory.byte s.dev.mem b))) ∧
    (sent → (s.dev.groups p).find (d.coreTag % 65536) = none → leadsTo go (fun t => ended t ∧ (t.dev.part p).seqs = (s.dev.part p).seqs ∧
        (∀ b, Memory.byte t.dev.mem b = Memory.byte s.dev.mem b))) ∧
    (∀ code a, d.moved = false → s.dev.dmaCheck c d = some (code, a) → s.dev.fld Fld.CORE_STAT_STATE c = coreRun → leadsTo go (fun t =>
      t.dev.fld Fld.CORE_STAT_STATE c = coreStopped ∧ t.dev.fld Fld.CORE_STAT_CAUSE c = code ∧
      t.dev.events (coreDie c) code = min 0xFFFFFFFF (s.dev.events (coreDie c) code + 1) ∧
      (∀ b, Memory.byte t.dev.mem b = Memory.byte s.dev.mem b) ∧ t.flash = s.flash)) ∧
    (d.moved = true → leadsTo go (fun t => ended t ∧ t.dev.mem = s.dev.mem ∧ Frame { core := fun j => j = c } s.dev t.dev))
/-! ### Vector instructions -/

/-- R254: VI, VSEL, VBCAST, VIDX, VMOVS and PLOG give what it states, in the lanes whose guard bit is 1, and write nothing else; another
function code of VI or PLOG is illegal. -/
def Obligations.IntegerLaneResultsOfR254 : Prop :=
  ∀ (core : CoreId) (w : BitVec 56) (s : State),
    let c := core.toNat
    let x := s.dev.core c
    let lanes (i : Nat) (o : Host.Outcome State Fault Refusal) (val : Nat → Nat) : Prop :=
      leadsTo o (fun t => Carried s t c (x.setV (fD i) (x.guard i) ((List.range 32).map val)).moved {})
    let lane (r l : Nat) : Nat := (x.v r).getD l 0
    let illegal (o : Host.Outcome State Fault Refusal) : Prop := s.dev.mayIssue c = true → s.dev.pcOf c < payloadEnd →
      leadsTo o (fun t => Stopped s t c Ev.CORE_ILLEGAL (s.dev.pcOf c) 0);
    (0xC < fF (insn 0xC0 w) → illegal (exec (.vi core w) s)) ∧ (6 < fF (insn 0xC5 w) → illegal (exec (.plog core w) s)) ∧
    (let i := insn 0xC0 w;
      IssuesS s.dev c i { d := .v, a := .v, b := .v, f := 0xF } (decide (fF i ≤ 0xC)) →
        ∃ val : Nat → BitVec 32,
          (∀ l, l < 32 → laneOp (fF i) (BitVec.ofNat 32 (lane (fA i) l)) (BitVec.ofNat 32 (lane (fB i) l)) = some (val l)) ∧
          lanes i (exec (.vi core w) s) (fun l => (val l).toNat)) ∧
    (let i := insn 0xC1 w;
      IssuesS s.dev c i { d := .v, a := .v, b := .v, c := .p } true →
        lanes i (exec (.vsel core w) s) (fun l => if (x.p (fC i)).testBit l then lane (fA i) l else lane (fB i) l)) ∧
    (let i := insn 0xC2 w;
      IssuesS s.dev c i { d := .v, a := .s } true →
        lanes i (exec (.vbcast core w) s) (fun _ => x.s (fA i) % 2 ^ 32)) ∧
    (let i := insn 0xC3 w;
      IssuesS s.dev c i { d := .v, a := .s } true →
        lanes i (exec (.vidx core w) s) (fun l => (x.s (fA i) % 2 ^ 32 + l) % 2 ^ 32)) ∧
    (let i := insn 0xC4 w;
      IssuesS s.dev c i { d := .s, a := .v, imm := 0x1F } true →
        leadsTo (exec (.vmovs core w) s) (fun t => Carried s t c
          (if (x.guard i).testBit 0 then x.setS (fD i) (lane (fA i) (imm16 i)) else x).moved {})) ∧
    (let i := insn 0xC5 w
      let a := x.p (fA i)
      let b := x.p (fB i)
      let sets (v : Nat) : Prop := leadsTo (exec (.plog core w) s) (fun t => Carried s t c (x.setP (fD i) (x.guard i) v).moved {});
      IssuesS s.dev c i (formPlog i) (decide (fF i ≤ 6)) →
        (fF i = 0 → sets (a &&& b)) ∧ (fF i = 1 → sets (a ||| b)) ∧ (fF i = 2 → sets (a ^^^ b)) ∧
        (fF i = 3 → sets (a &&& (b ^^^ 0xFFFFFFFF))) ∧ (fF i = 4 → sets (a ^^^ 0xFFFFFFFF)) ∧ (fF i = 5 → sets (x.s (fA i) % 2 ^ 32)) ∧
        (fF i = 6 → leadsTo (exec (.plog core w) s) (fun t => Carried s t c
          (if (x.guard i).testBit 0 then x.setS (fD i) a else x).moved {})))

/-- R251, R252, R255, R261: VF, VCMP, VRED, VSSQ and NRD. The destination takes the lanes' results where the guard is 1, the sticky
flags of CORE_VFP take in those of the active lanes, for VSSQ those of its conversions, squares and sums, and nothing else changes; NRD reads a norm accumulator and may clear it. -/
def Obligations.FloatingPointResults : Prop :=
  ∀ (core : CoreId) (w : BitVec 56) (s : State),
    let c := core.toNat
    let x := s.dev.core c
    let flagged (o : Host.Outcome State Fault Refusal) (y : Core) (fl : FpFlags) : Prop :=
      leadsTo o (fun t => Carried s t c y.moved { reg := fun k j => k = .CORE_VFP ∧ j = c } ∧
        t.dev.reg .CORE_VFP c = s.dev.reg .CORE_VFP c ||| fl.bits * 16)
    (let i := insn 0xA0 w
      let wide := wideOf i
      let op (r : Nat) : List Nat := x.operand wide r;
      ∀ rm, IssuesS s.dev c i (formVf i) (!(wide && decide (0xE ≤ fF i))) → s.dev.rmOf c (imm16 i % 8) = some rm →
        let res (l : Nat) : FpRes := vfLane (shapeOf wide) (fF i) rm ((op (fA i)).getD l 0)
          ((op (if 2 ≤ vfArity (fF i) then fB i else fA i)).getD l 0) ((op (if vfArity (fF i) = 3 then fC i else fA i)).getD l 0);
        flagged (exec (.vf core w) s) (x.setOperand wide (fD i) (x.guard i) ((List.range 32).map (fun l => (res l).code)))
          (unionFlags ((active (x.guard i)).map (fun l => (res l).flags)))) ∧
    (let i := insn 0xA1 w
      let wide := wideOf i
      let op (r : Nat) : List Nat := x.operand wide r
      let res (l : Nat) : Option (Bool × Bool) := vcmpLane (shapeOf wide) (fF i) ((op (fA i)).getD l 0) ((op (fB i)).getD l 0);
      IssuesS s.dev c i { d := .p, a := fpSlot wide, b := fpSlot wide, f := 0xF, imm := 8 } (decide (fF i ≤ 0xD) && !(wide && decide (8 ≤ fF i))) →
        ∃ v, (∀ l, l < 32 → v.testBit l = ((res l).getD (false, false)).1) ∧
          flagged (exec (.vcmp core w) s) (x.setP (fD i) (x.guard i) v)
            { nv := (active (x.guard i)).any (fun l => ((res l).getD (false, false)).2) }) ∧
    (let i := insn 0xA3 w
      let act := (active (x.guard i)).map (fun l => (x.v (fA i)).getD l 0)
      let one (v : Nat) : Core := x.setV (fD i) (x.guard i) (List.replicate 32 v);
      (∀ rm, IssuesS s.dev c i { d := .v, a := .v, f := 7, imm := 7 } (decide (fF i ≤ 4)) → fF i = 0 → s.dev.rmOf c (imm16 i % 8) = some rm →
        active (x.guard i) ≠ [] →
        let sum := treeSum shapeFP32 rm 5 ((List.range 32).map (fun l => if (x.guard i).testBit l then (x.v (fA i)).getD l 0 else 0)) {};
        flagged (exec (.vred core w) s) (one sum.1) sum.2) ∧
      (IssuesS s.dev c i { d := .v, a := .v, f := 7 } (decide (fF i ≤ 4)) → act ≠ [] →
        (fF i = 1 ∨ fF i = 2 → flagged (exec (.vred core w) s) (one (foldMax (decide (fF i = 2)) act).1) (foldMax (decide (fF i = 2)) act).2) ∧
        (fF i = 3 → leadsTo (exec (.vred core w) s) (fun t => Carried s t c (one (act.foldl (· + ·) 0 % 2 ^ 32)).moved {}))) ∧
      (IssuesS s.dev c i { d := .v, a := .v, b := .v, c := .v, f := 7 } (decide (fF i ≤ 4)) → act ≠ [] → fF i = 4 →
        let best := (active (x.guard i)).foldl (fun p l => argCombine false p ((x.v (fA i)).getD l 0, (x.v (fB i)).getD l 0)) (0x7FC00000, 0xFFFFFFFF);
        leadsTo (exec (.vred core w) s) (fun t =>
          Carried s t c ((one best.1).setV (fC i) (x.guard i) (List.replicate 32 best.2)).moved {} ∧
          (act.all isNaN32 = true → t.dev.events (coreDie c) Ev.SAMPLE_NAN = min 0xFFFFFFFF (s.dev.events (coreDie c) Ev.SAMPLE_NAN + 1)))) ∧
      (∀ m, m = ({ d := .v, a := .v, f := 7, imm := if fF i = 0 then 7 else 0 } : Form) ∨ m = ({ d := .v, a := .v, b := .v, c := .v, f := 7 } : Form) →
        IssuesS s.dev c i m (decide (fF i ≤ 4) && (decide (m.b = .v) == decide (fF i = 4))) → (s.dev.rmOf c (imm16 i % 8)).isSome = true → act = [] →
        leadsTo (exec (.vred core w) s) (fun t => Carried s t c x.moved {}))) ∧
    (let i := insn 0xA5 w
      let sq (l : Nat) : FpRes := shapeFP64.mul .rne (shapeFP32.convert shapeFP64 .rne ((x.v (fA i)).getD l 0)).code
        (shapeFP32.convert shapeFP64 .rne ((x.v (fA i)).getD l 0)).code
      let sum := treeSum shapeFP64 .rne 5 ((List.range 32).map (fun l => if (x.guard i).testBit l then (sq l).code else 0)) {};
      IssuesS s.dev c i { a := .v, f := 3 } true →
        flagged (exec (.vssq core w) s) (x.setN (fF i) (shapeFP64.add .rne (x.n (fF i)) sum.1).code)
          ((unionFlags ((active (x.guard i)).map (fun l => (shapeFP32.convert shapeFP64 .rne ((x.v (fA i)).getD l 0)).flags.union (sq l).flags))).union
            (sum.2.union (shapeFP64.add .rne (x.n (fF i)) sum.1).flags))) ∧
    (let i := insn 0xA6 w
      let n := fF i % 4;
      IssuesS s.dev c i { d := .s, f := 7 } true →
        leadsTo (exec (.nrd core w) s) (fun t => Carried s t c
          (if (x.guard i).testBit 0 then (if (fF i).testBit 2 then (x.setS (fD i) (x.n n)).setN n 0 else x.setS (fD i) (x.n n)) else x).moved {}))

/-- R60, R210, R211, R253, R257 to R260: VCVT, VRAND, VGUMBEL and VOPT. Each takes the draws its guard and distribution ask for, and none
without stochastic rounding or for a copy; the active lanes of the destinations take the results, and the flags are taken in. Draws that would reach
index 0xFFFF stop the core with EV_RNG_INDEX, and draws that wait for an earlier conversion's hold the instruction. -/
def Obligations.ConversionsDrawsAndOptimiser : Prop :=
  ∀ (core : CoreId) (w : BitVec 56) (s : State),
    let c := core.toNat
    let x := s.dev.core c
    let waits (keyed : Bool) (j nd : Nat) (o : Host.Outcome State Fault Refusal) : Prop :=
      (drawsReach keyed j nd = true → leadsTo o (fun t => Stopped s t c Ev.RNG_INDEX (s.dev.pcOf c) 0)) ∧
      (drawsReach keyed j nd = false → s.dev.drawHeld c keyed = true → leadsTo o (fun t => t.flash = s.flash ∧
        t.dev.reg .CORE_PC_STALL_DRAW c % 2 ^ 48 = (s.dev.reg .CORE_PC_STALL_DRAW c + 1) % 2 ^ 48 ∧
        Frame { reg := fun k i => k = .CORE_PC_STALL_DRAW ∧ i = c } s.dev t.dev));
    (let i := insn 0xA2 w
      let sr := bits (imm16 i) 4 3
      let keyed := (imm16 i).testBit 5
      let j := bits (x.s (fC i)) 31 16
      let rule : Bool := decide (sr ≠ 3) && (decide (sr = 0) || ((decide (fF i = 5) || decide (fF i = 6)) && decide (imm16 i % 8 = 0)));
      ∀ rm src dst, IssuesS s.dev c i (formVcvt i) rule → s.dev.rmOf c (imm16 i % 8) = some rm →
        vcvtFmt (imm16 i / 4096) = some src → vcvtFmt (fF i) = some dst →
        (sr = 0 ∨ src = dst →
        let res (l : Nat) : FpRes := vcvtLane src dst rm ((x.operand (decide (src = .fp64)) (fA i)).getD l 0);
        leadsTo (exec (.vcvt core w) s) (fun t =>
          Carried s t c (x.setOperand (decide (dst = .fp64)) (fD i) (x.guard i) ((List.range 32).map (fun l => (res l).code))).moved
            { reg := fun k j => k = .CORE_VFP ∧ j = c } ∧
          t.dev.reg .CORE_VFP c = s.dev.reg .CORE_VFP c ||| (unionFlags ((active (x.guard i)).map (fun l => (res l).flags))).bits * 16)) ∧
        (sr ≠ 0 → src ≠ dst → waits keyed j 1 (exec (.vcvt core w) s) ∧ (drawsReach keyed j 1 = false → s.dev.drawHeld c keyed = false →
          let d := s.dev.vecDraws c keyed (x.guard i) (x.s (fB i)) (x.s (fC i) % 65536) j 1
          let y := d.2.core c
          let r := vcvtAll src dst rm (sr + 2) (x.guard i) (y.operand (decide (src = .fp64)) (fA i)) d.1;
          exec (.vcvt core w) s = after s c ((d.2.setCore c (y.setOperand (decide (dst = .fp64)) (fD i) (x.guard i) r.1)).orFlags c r.2)))) ∧
    (let i := insn 0xC6 w
      let k := fF i % 8
      let keyed := (fF i).testBit 3
      let j := bits (x.s (fB i)) 31 16
      let d := s.dev.vecDraws c keyed (x.guard i) (x.s (fA i)) (x.s (fB i) % 65536) j (distDraws k);
      IssuesS s.dev c i { d := .v, a := .s, b := .s, c := if k = 3 then .s else .unused, f := 0xF } (decide (k ≠ 7)) →
        waits keyed j (distDraws k) (exec (.vrand core w) s) ∧
        (drawsReach keyed j (distDraws k) = false → s.dev.drawHeld c keyed = false →
        exec (.vrand core w) s = after s c (d.2.setCore c
          ((d.2.core c).setV (fD i) (x.guard i) (d.1.map (distValue k (s.dev.cdfTable c) (x.s (fC i) % 65536))))))) ∧
    (let i := insn 0xC7 w
      let keyed := (fF i).testBit 3
      let j := bits (x.s (fB i)) 31 16
      let d := s.dev.vecDraws c keyed (x.guard i) (x.s (fX i)) (x.s (fB i) % 65536) j 2
      let noise := d.1.map (distValue 6 (fun _ => 0) 0)
      let r := laneMap (x.guard i) (fun a b _ => shapeFP32.fma .rne false false (x.s (fC i) % 2 ^ 32) b a) ((d.2.core c).v (fA i)) noise noise;
      IssuesS s.dev c i { d := .v, a := .v, b := .s, c := .s, x := .s, f := 8 } true →
        waits keyed j 2 (exec (.vgumbel core w) s) ∧
        (drawsReach keyed j 2 = false → s.dev.drawHeld c keyed = false →
        exec (.vgumbel core w) s = after s c ((d.2.setCore c ((d.2.core c).setV (fD i) (x.guard i) r.1)).orFlags c r.2))) ∧
    (let i := insn 0xA7 w
      let p (n : Nat) : Nat := (x.v (fX i)).getD n 0
      let rnd := fF i % 4
      let keyed := (fF i).testBit 2
      let j := p 9 % 65536
      let d := s.dev.vecDraws c keyed (x.guard i) (x.s (imm16 i)) (p 8 % 65536) j 1
      let rm (l : Nat) : Rm := if rnd = 0 then .rne else .stoch (rnd + 2) ((d.1.getD l []).getD 0 0 % 2 ^ (rnd + 2))
      let res (l : Nat) : OptRes := voptLane p (rm l) ((x.v (fD i)).getD l 0) ((x.v (fA i)).getD l 0) ((x.v (fB i)).getD l 0) ((x.v (fC i)).getD l 0)
      let all (f : OptRes → Nat) : List Nat := (List.range 32).map (fun l => f (res l))
      let new (y : Core) : Core :=
        ((y.setV (fD i) (x.guard i) (all (fun r => r.w))).setV (fB i) (x.guard i) (all (fun r => r.m))).setV (fC i) (x.guard i) (all (fun r => r.v));
      Issues s.dev c i ((formVopt i).ok i && decide (rnd ≠ 3) && decide (imm16 i < 32)) [imm16 i] →
        (rnd = 0 → leadsTo (exec (.vopt core w) s) (fun t => Carried s t c (new x).moved { reg := fun k j => k = .CORE_VFP ∧ j = c })) ∧
        (rnd ≠ 0 → waits keyed j 1 (exec (.vopt core w) s) ∧ (drawsReach keyed j 1 = false → s.dev.drawHeld c keyed = false →
          exec (.vopt core w) s = after s c ((d.2.setCore c (new (d.2.core c))).orFlags c
            (unionFlags ((active (x.guard i)).map (fun l => (res l).flags)))))))

/-- R256: VPRD, with nothing earlier at work on its panel, closes the panel whatever its guard, and puts the row of F, or of C, of the
array it names into the active lanes; an EMPTY cell reads +0, and the panel is not emptied. -/
def Obligations.PanelRowReads : Prop :=
  ∀ (core : CoreId) (w : BitVec 56) (s : State),
    let c := core.toNat
    let x := s.dev.core c
    let i := insn 0xA4 w
    let n := panelOf i
    let p := (x.panel n).close.1
    let key (l : Nat) : Nat := cellKey (bits (imm16 i) 6 5) (imm16 i % 32) l
    let val (l : Nat) : Nat := if (p.cell (key l)).empty then 0
      else if (imm16 i).testBit 7 then (p.cell (key l)).c.toNat else (p.cell (key l)).f.toNat;
    IssuesS s.dev c i { d := .v, f := 0x1C, imm := 0xFF } true → x.panelBusy n x.order = false →
      leadsTo (exec (.vprd core w) s) (fun t =>
        (t.dev.core c).v (fD i) = (x.setV (fD i) (x.guard i) ((List.range 32).map val)).v (fD i) ∧
        (∀ r, r ≠ fD i → (t.dev.core c).v r = x.v r) ∧
        ((t.dev.core c).panel n).cells = p.cells ∧ (∀ m, m ≠ n → (t.dev.core c).panel m = x.panel m) ∧
        (t.dev.core c).pc = x.pc + 8 ∧ (∀ j, j ≠ c → t.dev.core j = s.dev.core j) ∧
        (∀ a, Memory.byte t.dev.mem a = Memory.byte s.dev.mem a) ∧ t.flash = s.flash)
/-! ### The array queue, the edge queue and panels -/

/-- R71, R72, R245, R268: WLOAD and AMUL are handed to the array queue with their operand offsets while it has room, when their format is
one the arrays take, the banks an AMUL names hold its format or are being loaded with it, and every byte they read lies in staging;
otherwise the core stops, in the order of R273, or is held. -/
def Obligations.ArrayInstructionsQueued : Prop :=
  ∀ (core : CoreId) (w : BitVec 56) (s : State),
    let c := core.toNat
    let x := s.dev.core c
    let queued (i : Nat) (o : Host.Outcome State Fault Refusal) : Prop :=
      let a := x.s (fA i)
      let b := x.s (fB i);
      (arrayFmt (arrFmt i) = none → leadsTo o (fun t => Stopped s t c Ev.FMT_ILLEGAL (s.dev.pcOf c) 0)) ∧
      (∀ f, arrayFmt (arrFmt i) = some f →
        let fault := if isAmul i then s.dev.bankFault c i f else none;
        (fault = some Ev.FMT_ILLEGAL → leadsTo o (fun t => Stopped s t c Ev.FMT_ILLEGAL (s.dev.pcOf c) 0)) ∧
        (fault = some Ev.FMT_MISMATCH → leadsTo o (fun t => Stopped s t c Ev.FMT_MISMATCH (s.dev.pcOf c) 0)) ∧
        (fault = none →
          (∀ off, stageFault f (arrBs16 i) a b (arrVectors i) = some off →
            leadsTo o (fun t => Stopped s t c Ev.CORE_ADDR (s.dev.pcOf c) (strideAddr c (0x100000 + off) % 2 ^ 52))) ∧
          (stageFault f (arrBs16 i) a b (arrVectors i) = none → x.arrayQ.length < 4 → leadsTo o (fun t =>
            Carried s t c (x.queueArray i a b f).moved {} ∧
            (t.dev.core c).arrayQ = x.arrayQ ++ [⟨x.order, s.dev.pcOf c % 2 ^ 20, i, a, b⟩])) ∧
          (stageFault f (arrBs16 i) a b (arrVectors i) = none → 4 ≤ x.arrayQ.length → leadsTo o (fun t =>
            Frame { reg := fun k j => k = .CORE_PC_STALL_UNIT ∧ j = c } s.dev t.dev))))
    (IssuesS s.dev c (insn 0x60 w) { a := .s, b := .s, f := 1, imm := 0x307C } (wideRule (insn 0x60 w)) → queued (insn 0x60 w) (exec (.wload core w) s)) ∧
    (IssuesS s.dev c (insn 0x61 w) { a := .s, b := .s, f := 0x3F, imm := 0xFFFC } (wideRule (insn 0x61 w) && decide (arrMask (insn 0x61 w) ≠ 0)) →
      queued (insn 0x61 w) (exec (.amul core w) s))

/-- R83, R84, R268, R455: at its dispatch a WLOAD begins its bank load, in the core's own array, which in the odd core of a pair is the one two on,
and an AMUL whose banks hold its format goes on the bus with its operands; when its bank load completes, the bank holds what staging holds then, and
no other bank has changed. That an AMUL reads all its vectors, and counts all their bus cycles, at its dispatch is assumption 78, and that a bank
load reads staging at its completion assumption 53 (DESIGN CHOICE both). -/
def Obligations.ArrayQueueDispatchAndBankLoads : Prop :=
  ∀ (core : CoreId) (s : State),
    let c := core.toNat
    let x := s.dev.core c;
    (∀ q qs f, x.arrayQ = q :: qs → arrayFmt (arrFmt q.word) = some f → isAmul q.word = false →
      (∀ g ∈ x.flights, g.usesBank (bits (imm16 q.word) 13 12) (arrBank q.word) = false) →
      (∀ l ∈ x.loads, ¬(l.array = s.dev.ownArray c (bits (imm16 q.word) 13 12) ∧ l.bank = arrBank q.word)) →
      leadsTo (exec (.arrayQueueDispatch core) s) (fun t =>
        t.dev.core c = { x with
          arrayQ := qs
          loads := x.loads ++ [⟨s.dev.ownArray c (bits (imm16 q.word) 13 12), arrBank q.word, f, arrBs16 q.word, q.a, q.b⟩] } ∧
        Frame { core := fun j => j = c } s.dev t.dev ∧ t.flash = s.flash)) ∧
    (∀ q qs f, x.arrayQ = q :: qs → arrayFmt (arrFmt q.word) = some f → isAmul q.word = true →
      (∀ l ∈ x.loads, ¬(l.bank = arrBank q.word ∧ ∃ a, (arrMask q.word).testBit a = true ∧ l.array = s.dev.ownArray c a)) → x.edgeBefore (panelOf q.word) q.order = false →
      (s.dev.setCore c { x with arrayQ := [] }).bankFault c q.word f = none →
      leadsTo (exec (.arrayQueueDispatch core) s) (fun t =>
        (t.dev.core c).arrayQ = qs ∧
        (∃ g, (t.dev.core c).flights = x.flights ++ [g] ∧ g.panel = panelOf q.word ∧ g.bank = arrBank q.word ∧ g.order = q.order ∧ g.next = 0 ∧
          g.data.acts = s.dev.stage c f (arrBs16 q.word) q.a q.b (arrVectors q.word) ∧
          (∀ a, a < 4 → (arrMask q.word).testBit a = true → g.data.banks.getD a {} = x.bank (2 * s.dev.ownArray c a + arrBank q.word))) ∧
        t.dev.reg .ARR_PC_ISSUE c % 2 ^ 48 = (s.dev.reg .ARR_PC_ISSUE c + arrVectors q.word * f.busCycles) % 2 ^ 48 ∧
        Frame { core := fun j => j = c, reg := fun k j => k = .ARR_PC_ISSUE ∧ j = c } s.dev t.dev ∧ t.flash = s.flash)) ∧
    (∀ (array : BitVec 2) (bank : Bool) l, x.loads.find? (fun l => decide (l.array = array.toNat) && decide (l.bank = b2n bank)) = some l →
      (s.dev.part (s.dev.corePart c)).nanStop = false →
      leadsTo (exec (.bankLoadComplete core array bank) s) (fun t =>
        (t.dev.core c).bank (2 * array.toNat + b2n bank) =
          { fmt := some l.fmt, bs16 := l.bs16, rows := s.dev.stage c l.fmt l.bs16 l.srcA l.srcB 32 } ∧
        (∀ n, n ≠ 2 * array.toNat + b2n bank → (t.dev.core c).bank n = x.bank n) ∧ (t.dev.core c).loads = x.loads.erase l ∧
        CoreKeepsRegisters x (t.dev.core c) ∧ Frame { core := fun j => j = c } s.dev t.dev ∧ t.flash = s.flash))

/-- R92, R108, R113, R117: a vector of the oldest AMUL in flight that reaches the accumulator row takes each cell of its row, in every
array of the mask, through its block sums and any promotion due; every other cell and panel stays, and the AMUL moves on to its next
vector or ends. -/
def Obligations.AccumulatorRowTakesVector : Prop :=
  ∀ (core : CoreId) (f : AmulFlight) (fs : List AmulFlight) (s : State),
    let c := core.toNat
    let x := s.dev.core c
    let p := f.enter (x.panel f.panel)
    let d := f.data
    let lane (a j : Nat) : List BlockOut :=
      (laneBlocks d.bs16 ((d.acts.getD f.next ⟨0, 0, 0⟩).vals d.fmt) ((d.banks.getD a {}).weights d.fmt d.col j)).map (fun b => b.out);
    x.flights = f :: fs → (s.dev.part (s.dev.corePart c)).nanStop = false →
      leadsTo (exec (.accumulatorRowWriteback core none) s) (fun t =>
        (∀ a j, a < 4 → j < 32 → d.mask.getLsbD a = true → f.next < 32 →
          ((t.dev.core c).panel f.panel).cell (cellKey a f.next j) =
            (Cell.vector (effPromote p.promote.toNat d.bs16) p.pair (lane a j) (p.cell (cellKey a f.next j))).1) ∧
        (∀ key, (∀ a j, a < 4 → j < 32 → d.mask.getLsbD a = true → key ≠ cellKey a f.next j) →
          ((t.dev.core c).panel f.panel).cell key = p.cell key) ∧
        (∀ n, n ≠ f.panel → (t.dev.core c).panel n = x.panel n) ∧
        (t.dev.core c).flights = (if f.next + 1 < d.acts.length then { f with next := f.next + 1, start := false } :: fs else fs) ∧
        (∀ j, j ≠ c → t.dev.core j = s.dev.core j) ∧ (∀ a, Memory.byte t.dev.mem a = Memory.byte s.dev.mem a) ∧ t.flash = s.flash)

/-- R128: a spill record gives back, bit for bit, F, EMPTY, the promotion interval and the mode of the panel it was written from, and C in
pair mode; its header is not bad when the interval is 1 to 64. -/
def Obligations.SpillRecordGivesPanelBack : Prop :=
  ∀ (p : Panel), 1 ≤ p.promote.toNat → p.promote.toNat ≤ 64 →
    let q := Panel.ofRecord p.record;
    headerBad (p.record.take tileSize) = false ∧ p.record.length = tileSize * recordTiles p.pair ∧ q.promote = p.promote ∧ q.pair = p.pair ∧
    (∀ key, key < 4096 → (q.cell key).f = (p.cell key).f ∧ (q.cell key).empty = (p.cell key).empty ∧
      (q.cell key).c = (if p.pair then (p.cell key).c else 0) ∧ (q.cell key).run = {})

/-- R135, R139, R141, R267, R268: PSPILL, PRESUME, POUT, NARROW and WIDEN are handed to the edge queue with the values of their registers while it
has room, NARROW's own register waiting for its segment, and are held while it holds two; nothing of them is carried out before
EDGE_QUEUE_DISPATCH. -/
def Obligations.EdgeInstructionsQueued : Prop :=
  ∀ (core : CoreId) (w : BitVec 56) (s : State),
    let c := core.toNat
    let x := s.dev.core c
    let queued (i : Nat) (o : Host.Outcome State Fault Refusal) : Prop :=
      let q : EdgeOp :=
        { order := x.order, pc := s.dev.pcOf c % 2 ^ 20, word := i, d := x.s (fD i), a := x.s (fA i), b := x.s (fB i), c := x.s (fC i), x := x.s (fX i) };
      (x.edgeQ.length < 2 → leadsTo o (fun t => Carried s t c
        { x with order := x.order + 1, edgeQ := x.edgeQ ++ [q], pc := x.pc + 8
                 pend := if opOf i = 0x80 ∧ fD i ≠ 0 then x.pend ++ [fD i] else x.pend } {})) ∧
      (2 ≤ x.edgeQ.length → leadsTo o (fun t =>
        t.dev.reg .CORE_PC_STALL_UNIT c % 2 ^ 48 = (s.dev.reg .CORE_PC_STALL_UNIT c + 1) % 2 ^ 48 ∧
        Frame { reg := fun k j => k = .CORE_PC_STALL_UNIT ∧ j = c } s.dev t.dev ∧ t.flash = s.flash));
    (IssuesS s.dev c (insn 0x62 w) { a := .s, f := 0x1C } true → queued (insn 0x62 w) (exec (.pspill core w) s)) ∧
    (IssuesS s.dev c (insn 0x63 w) { a := .s, f := 0x1C } true → queued (insn 0x63 w) (exec (.presume core w) s)) ∧
    (IssuesS s.dev c (insn 0x64 w) { d := .s, a := .s, b := .s, c := .s, x := .s, f := 0x1F } (poutLegal (insn 0x64 w)) →
      queued (insn 0x64 w) (exec (.pout core w) s)) ∧
    (IssuesS s.dev c (insn 0x80 w) { d := .s, a := .s, b := .s, c := .s, x := .s } true → queued (insn 0x80 w) (exec (.narrow core w) s)) ∧
    (IssuesS s.dev c (insn 0x81 w) { a := .s, b := .s, c := .s, x := .s } true → queued (insn 0x81 w) (exec (.widen core w) s))

/-- R121, R125, R126, R128, R268: at its dispatch, with nothing to keep it and no bridge down, a spill writes the record of the panel as its close
leaves it at the offset of its core's own store, and no byte outside the record and its tiles' scruples; a resume gives the panel the record at its
offset, and the AMULs that the panel spilled there with those bytes had received, or, where none was, operands that nothing fixes (assumption 16,
DESIGN CHOICE); an output empties its
panel. That an operation is carried out whole at its dispatch is assumption 53 (DESIGN CHOICE). -/
def Obligations.SpillsResumesAndOutputs : Prop :=
  ∀ (core : CoreId) (q : EdgeOp) (qs : List EdgeOp) (ue : List (BitVec 52)) (s : State),
    let c := core.toNat
    let x := s.dev.core c
    let n := panelOf q.word
    let a := strideAddr c q.a
    let p := (x.panel n).close.1
    let d0 := ({ s.dev with ue := ue.map (fun a => a.toNat) } : Dev).setCore c { x with edgeQ := qs };
    x.edgeQ = q :: qs → x.edgeBusy q = false → x.edgeHeld q = false → s.dev.ctl.bridgesDown = [] →
    (opOf q.word = 0x62 → recordFits q.a (recordTiles (x.panel n).pair) = true →
      leadsTo (exec (.edgeQueueDispatch core ue) s) (fun t =>
        Memory.bytes t.dev.mem a (tileSize * recordTiles p.pair) = p.record ∧
        ((t.dev.core c).panel n).cells = p.cells ∧ (∀ m, m ≠ n → (t.dev.core c).panel m = x.panel m) ∧ (t.dev.core c).edgeQ = qs ∧
        (∀ b, ¬(a ≤ b ∧ b < a + tileSize * recordTiles p.pair) →
          (∀ k, k < recordTiles p.pair → ∀ sa, scrupleAddr (a + tileSize * k) = some sa → ¬(sa ≤ b ∧ b < sa + 8)) →
          Memory.byte t.dev.mem b = Memory.byte s.dev.mem b) ∧ (∀ j, j ≠ c → t.dev.core j = s.dev.core j) ∧ t.flash = s.flash)) ∧
    (opOf q.word = 0x63 →
      let tiles := recordTiles ((Memory.num s.dev.mem (a + 4) 1).testBit 0);
      recordFits q.a tiles = true → headerBad (Memory.bytes s.dev.mem a tileSize) = false →
      leadsTo (exec (.edgeQueueDispatch core ue) s) (fun t =>
        (let r := Memory.bytes s.dev.mem a (tileSize * tiles)
          let y := (t.dev.core c).panel n;
          y.cells = (Panel.ofRecord r).cells ∧ y.promote = (Panel.ofRecord r).promote ∧ y.pair = (Panel.ofRecord r).pair ∧ y.check = {} ∧
          y.foreign = (match s.dev.spilledAs a r with
            | some p0 => p0.foreign
            | none => true) ∧ (∀ p0, s.dev.spilledAs a r = some p0 → y.hist = p0.hist)) ∧
        (∀ m, m ≠ n → (t.dev.core c).panel m = x.panel m) ∧ (t.dev.core c).edgeQ = qs ∧
        (∀ b, Memory.byte t.dev.mem b = Memory.byte s.dev.mem b) ∧ (∀ j, j ≠ c → t.dev.core j = s.dev.core j) ∧ t.flash = s.flash)) ∧
    (opOf q.word = 0x64 → d0.outFault c q = none → (s.dev.descAt c q.d).isSome = true →
      leadsTo (exec (.edgeQueueDispatch core ue) s) (fun t => ((t.dev.core c).panel n).cells = [] ∧ (t.dev.core c).edgeQ = qs ∧ t.flash = s.flash))

/-- R139, R142, R151, R157, R164, R248, R268: an edge operation with nothing to keep it from dispatching, no bridge down and no fault is carried out
whole at its dispatch, whichever of its reads report an uncorrectable error (R448), and is in flight until its completion, when a resume is counted
(assumption 53, DESIGN CHOICE: the converter takes time). At its completion it leaves the flight, writes the
register it returns a segment in, and lets a pending reset of the gill buffer take effect. A host's reset of the buffer takes effect at
once while no conversion is in flight, and is pending otherwise. -/
def Obligations.EdgeQueueCompletions : Prop :=
  ∀ (core : CoreId) (s : State),
    let c := core.toNat
    let x := s.dev.core c;
    (∀ q qs ue, x.edgeQ = q :: qs → x.edgeBusy q = false → x.edgeHeld q = false → s.dev.ctl.bridgesDown = [] →
      let d0 := ({ s.dev with ue := ue.map (fun a => a.toNat) } : Dev).setCore c { x with edgeQ := x.edgeQ.drop 1 };
      d0.edgeFault c q = none →
      let r := d0.edgeRun c q;
      leadsTo (exec (.edgeQueueDispatch core ue) s) (fun t =>
        t.dev = { r.1.setCore c { r.1.core c with edgeFlights := (r.1.core c).edgeFlights ++
          [{ order := q.order, panel := if edgeUsesPanel q.word then some (panelOf q.word) else none, conv := edgeConverts q.word, dest := r.2
             resume := decide (opOf q.word = 0x63) }] } with ue := [] } ∧
        t.flash = s.flash)) ∧
    (∀ f fs, x.edgeFlights = f :: fs → (s.dev.part (s.dev.corePart c)).nanStop = false → s.dev.flag Fld.EDGE_STAT_RSTPEND c = false →
      leadsTo (exec (.edgeOperationComplete core) s) (fun t =>
        (t.dev.core c).edgeFlights = fs ∧
        (∀ r v, f.dest = some (r, v) → r ≠ 0 → (t.dev.core c).s r = v.toNat ∧ (t.dev.core c).pend = x.pend.erase r) ∧
        (∀ r, f.dest.map (fun d => d.1) ≠ some r → (t.dev.core c).s r = x.s r) ∧
        t.dev.reg .ACC_PC_RESUME c % 2 ^ 48 = (s.dev.reg .ACC_PC_RESUME c + b2n f.resume) % 2 ^ 48 ∧
        Frame { core := fun j => j = c, reg := fun k j => k = .ACC_PC_RESUME ∧ j = c } s.dev t.dev ∧ t.flash = s.flash)) ∧
    (∀ f, s.dev.flag Fld.EDGE_STAT_RSTPEND c = true → x.edgeFlights.find? (fun f => f.conv) = some f →
      (∀ g ∈ x.edgeFlights.erase f, g.conv = false) → (s.dev.part (s.dev.corePart c)).nanStop = false →
      leadsTo (exec (.gillResetApply core) s) (fun t =>
        t.dev.fld Fld.GILL_STAT_FILL c = 0 ∧ t.dev.flag Fld.EDGE_STAT_RSTPEND c = false ∧ (t.dev.core c).edgeFlights = x.edgeFlights.erase f ∧
        Frame { core := fun j => j = c, reg := fun k j => j = c ∧ (k = .GILL_STAT ∨ k = .EDGE_STAT ∨ k = .ACC_PC_RESUME) } s.dev t.dev ∧ t.flash = s.flash)) ∧
    (∀ port : HostPort, s.dev.servesCore port.val c →
      leadsTo (exec (.gillResetWrite port core) s) (fun t =>
        (if x.converting then t.dev.flag Fld.EDGE_STAT_RSTPEND c = true ∧ t.dev.fld Fld.GILL_STAT_FILL c = s.dev.fld Fld.GILL_STAT_FILL c
          else t.dev.fld Fld.GILL_STAT_FILL c = 0) ∧
        Frame { reg := fun k j => j = c ∧ (k = .GILL_STAT ∨ k = .EDGE_STAT) } s.dev t.dev ∧ t.flash = s.flash))
/-! ### Reset, the standby controller and bring-up -/

/-- R503, R504, R509, R553, R559, R589, R590: RESET_N and the SMBus commands RESET with 0x5A and PWRCYCLE with 0xA5 put every register at its reset
value, but for the cause, empty memory, cores, partitions and queues, drop PWR_GOOD and keep the second copy of the retirement list, the fuse floor,
the identity's helper data and the keys of flash, and all of flash where none of it was being written. A power application does the same and takes the
address straps. RESET_N holds the module until it rises, also where it resets nothing. A command to another address, with another data byte or a bad
PEC changes nothing. -/
def Obligations.ModuleResetsLeaveResetState : Prop :=
  ∀ (s : State),
    let lost (t : State) : Prop :=
      t.dev.mem = [] ∧ t.dev.cores = [] ∧ t.dev.parts = [] ∧ t.dev.hosts = [] ∧ t.dev.chain = {} ∧ t.dev.spr = {} ∧ t.dev.ctl = {} ∧
        t.dev.sec = {} ∧ t.dev.sby.pwrGood = false ∧ t.dev.now = s.dev.now ∧ t.pending = s.pending
    let kept (t : State) : Prop :=
      t.flash.retireB = s.flash.retireB ∧ t.flash.floor = s.flash.floor ∧ t.flash.helper = s.flash.helper ∧ t.flash.certKey = s.flash.certKey ∧
        t.flash.romKey = s.flash.romKey ∧ t.flash.recoveryKey = s.flash.recoveryKey ∧ (s.dev.sec.flashQ = [] → t.flash = s.flash)
    let resets (cause : Nat) (o : Host.Outcome State Fault Refusal) : Prop := leadsTo o (fun t =>
      (∀ k i, k ≠ .PWR_RSTCAUSE → t.dev.reg k i = regReset k i % 2 ^ 64) ∧ t.dev.fld Fld.PWR_RSTCAUSE_CAUSE 0 = cause ∧ lost t ∧ kept t);
    let mine (addr : BitVec 7) : Prop := addr.toNat = 0x5C + s.dev.sby.straps;
    (∀ a0 a1, leadsTo (exec (.powerApplication a0 a1) s) (fun t => (∀ k i, t.dev.reg k i = regReset k i % 2 ^ 64) ∧ lost t ∧ kept t ∧
      t.dev.sby.straps = 2 * b2n a1 + b2n a0 ∧ t.dev.sby.resetHeld = s.dev.sby.resetHeld)) ∧
    (s.dev.standby = true → resets 1 (exec .resetN s) ∧
      (∀ addr, mine addr → resets 2 (exec (.smbReset addr 0x5A true) s) ∧ resets 3 (exec (.smbPwrcycle addr 0xA5 true) s))) ∧
    (leadsTo (exec .resetN s) (fun t => t.dev.sby.resetHeld = true)) ∧
    (s.dev.standby = false → leadsTo (exec .resetN s) (fun t => t.dev = { s.dev with sby := { s.dev.sby with resetHeld := true } } ∧ t.flash = s.flash)) ∧
    (leadsTo (exec .resetNRelease s) (fun t => t.dev = { s.dev with sby := { s.dev.sby with resetHeld := false } } ∧ t.flash = s.flash)) ∧
    (∀ addr b pec, ¬(mine addr ∧ pec = true ∧ b = 0x5A#8) → exec (.smbReset addr b pec) s = .next s) ∧
    (∀ addr b pec, ¬(mine addr ∧ pec = true ∧ b = 0xA5#8) → exec (.smbPwrcycle addr b pec) s = .next s)

/-- R434, R503, R510, R511, R515, R571, R589: SMBus reads to the module's address answer the byte and the word of R503. The rails in limits bring T0:
PWR_GOOD, every die in ROM and every host port training (R515, with assumption 61, DESIGN CHOICE), and a fresh claim nonce (R434) and debug nonce
(R571); a timeout takes the rails off, and the third leaves them off. -/
def Obligations.StandbyReadsAndRails : Prop :=
  ∀ (s : State),
    (∀ addr : BitVec 7, s.dev.sby.input = true → addr.toNat = 0x5C + s.dev.sby.straps →
      leadsTo (exec (.smbCstatus addr true) s) (fun t => ∃ v, t.dev.out = s.dev.out ++ [.smbus v 8] ∧ v.testBit 0 = s.dev.heartbeatSeen ∧
        v / 2 % 8 = s.dev.sby.leadSeen % 8 ∧ v.testBit 4 = s.dev.sby.pwrGood ∧ v < 32 ∧ Frame {} s.dev t.dev ∧ t.flash = s.flash) ∧
      leadsTo (exec (.smbHbage addr true) s) (fun t => ∃ v, t.dev.out = s.dev.out ++ [.smbus v 16] ∧
        v = (match s.dev.sby.lastHeartbeat with
          | some h => min 65535 ((s.dev.now - h) / 4000000)
          | none => 65535) ∧ Frame {} s.dev t.dev ∧ t.flash = s.flash)) ∧
    (s.dev.railsRising = true → s.dev.sby.deepWake = false →
      leadsTo (exec .railsGood s) (fun t =>
        t.dev.sby.pwrGood = true ∧ t.dev.ctl.t0 = some s.dev.now ∧ t.dev.fld Fld.CTL_BOOT_STAGE 0 = 1 ∧
        (∀ d, d < 6 → t.dev.fld Fld.CTL_DBOOT_STAGE d = 1 ∧ t.dev.fld Fld.HLK_PSTAT_LINK d = 1) ∧
        t.dev.reg .HLK_OWNNONCE 0 = (Config.nonce s.dev.fresh).toNat ∧ t.dev.reg .DBG_NONCE 0 = (Config.nonce (s.dev.fresh + 1)).toNat ∧
        t.dev.fresh = s.dev.fresh + 2 ∧ (∀ a, Memory.byte t.dev.mem a = Memory.byte s.dev.mem a) ∧ t.flash = s.flash)) ∧
    (s.dev.railsRising = true → leadsTo (exec .railsTimeout s) (fun t => t.dev.sby.railsOff = true ∧
      t.dev.sby.railTries = s.dev.sby.railTries + 1 ∧ Frame { sby := True } s.dev t.dev ∧ t.flash = s.flash)) ∧
    (s.dev.sby.railTries < 3 → leadsTo (exec .railsRetry s) (fun t => t.dev.sby = { s.dev.sby with railsOff := false } ∧
      Frame { sby := True } s.dev t.dev ∧ t.flash = s.flash)) ∧
    (3 ≤ s.dev.sby.railTries → exec .railsRetry s = .next s)

/-- R494, R511, R522, R556, R557, R564, R565: a die's loader accepts an image in form that its ROM key signed and that is no older than the fuse floor,
and its controller announces itself; another image is rejected with its event. Die 0 derives the identity key from the response of its physical
unclonable function and the helper data, and IDOK says whether it is the certified one. At the close of the window, with nothing yet
recorded or waiting for a lead, the lowest die that announced leads at TERM 1, raises the floor where the image says so, and the announced dies enter
REMAP. With no verified firmware at the deadline every die runs the
recovery loader. -/
def Obligations.LoaderAndElection : Prop :=
  ∀ (s : State) (die : DieId) (response : List Byte),
    let d := die.val
    let waits : Prop := s.dev.booting = true ∧ s.dev.ctl.elected = false ∧ s.dev.fenced d = false
    let accepts (r : FwRec) : Prop := s.flash.fw = some r ∧ r.ok = true ∧ s.flash.floor ≤ r.svn ∧ r.signer = keyId s.flash.romKey ∧
      Ed448.verify s.flash.romKey "FENRAM-TX4-FIRM" (leBytes 64 r.digest) r.sig = true
    let identified : Prop := ∃ h, s.flash.helper = some h ∧ derivedKey response h = s.flash.certKey
    let go := exec (.romVerify die response) s;
    (waits → s.dev.dieStage d = 1 → d ∉ s.dev.ctl.verified → d ∉ s.dev.ctl.rejected →
      (∀ r, accepts r → leadsTo go (fun t =>
        t.dev.ctl.verified = s.dev.ctl.verified ++ [d] ∧ t.dev.dieStage d = 2 ∧ t.dev.sec.running = some r ∧ t.flash = s.flash)) ∧
      (d = 0 → identified → leadsTo go (fun t => t.dev.flag Fld.SEC_STAT_IDOK 0 = true)) ∧
      (d = 0 → ¬ identified → leadsTo go (fun t => t.dev.flag Fld.SEC_STAT_IDOK 0 = false)) ∧
      ((∀ r, ¬ accepts r) → leadsTo go (fun t =>
        t.dev.ctl.rejected = s.dev.ctl.rejected ++ [d] ∧ t.dev.dieStage d = 1 ∧ t.flash = s.flash ∧
        t.dev.eventsDev Ev.FW_VERIFY_FAIL = min 0xFFFFFFFF (s.dev.eventsDev Ev.FW_VERIFY_FAIL + 1)))) ∧
    (s.dev.booting = true → s.dev.ctl.verified = [] → s.dev.ctl.elected = false → leadsTo (exec .romDeadline s) (fun t =>
      t.dev.fld Fld.CTL_BOOT_STAGE 0 = 7 ∧ (∀ e, e < 6 → s.dev.fenced e = false → t.dev.dieStage e = 7) ∧ t.flash = s.flash)) ∧
    (∀ term, waits → d ∈ s.dev.ctl.verified → d ∉ s.dev.ctl.announced → leadsTo (exec (.electionAnnounce die term) s) (fun t =>
      t.dev.ctl = { s.dev.ctl with announced := s.dev.ctl.announced ++ [d], windowOpen := true } ∧ Frame { ctl := True } s.dev t.dev ∧
      (∀ e ∈ s.dev.liveDies, e ≠ d → Out.ctl true d e .announce ∈ t.dev.out) ∧ t.flash = s.flash)) ∧
    (waits → d ∈ s.dev.ctl.announced → (∀ e, e < d → s.dev.fenced e = true ∨ e ∉ s.dev.ctl.announced) → s.dev.ctl.fences = [] →
      s.dev.ctl.journal = [] → s.dev.spr = {} →
      leadsTo (exec .electionWindowClose s) (fun t =>
        t.dev.ctl.elected = true ∧ t.dev.leadDie = d ∧ t.dev.term = 1 ∧ t.dev.role d = 1 ∧ t.dev.dieStage d = 3 ∧
        t.flash = (match s.dev.sec.running with
          | some r => { s.flash with floor := if r.raise = true ∧ r.svn ≤ 64 then max s.flash.floor r.svn else s.flash.floor }
          | none => s.flash) ∧
        t.dev.eventsDev Ev.CTL_ELECTED = min 0xFFFFFFFF (s.dev.eventsDev Ev.CTL_ELECTED + 1)))

/-- R513, R516 to R519: REMAP gives each cluster its unretired slots in ascending order and the next as its spare, from the list that flash
gives: one bad copy is rewritten from the other with EV_BOOT_FLASH, two bad copies fail bring-up. MEMORY leaves every byte of the die's
stacks and stores zero; a stack that fails fences the die. CORES retires a slot that fails, and a die with none enters READY. A die
that exceeds a bound is fenced. Retirements and fences are recorded first and wait for NEXT, unless the lead acts unmirrored; a retirement then
goes to flash before it changes the remap (R482). -/
def Obligations.StagesOfDie : Prop :=
  ∀ (s : State) (die : DieId),
    let d := die.val
    let mapped (l : List Nat) (t : State) : Prop :=
      t.dev.dieStage d = 4 ∧ ∀ k, k < 272 →
        let good := (List.range 17).filter (fun n => decide (slotId d k n ∉ l));
        (∀ n, n < 17 → (t.dev.retired (slotId d k n) = true ↔ slotId d k n ∈ l)) ∧ t.dev.fld Fld.SPR_CLSTAT_FILL (clIdx d k) = 0 ∧
        t.dev.fld Fld.SPR_CLSTAT_SWAP (clIdx d k) = 0 ∧ t.dev.fld Fld.SPR_CLSTAT_GEN (clIdx d k) = 0 ∧
        (16 ≤ good.length → t.dev.isShort d k = false ∧ t.dev.spareOf d k = good.getD 16 0x1F ∧
          ∀ i, i < 16 → t.dev.slotOf (coreId d k i) = good.getD i 0x1F) ∧
        (good.length < 16 → t.dev.isShort d k = true ∧ ∀ i, i < 16 → t.dev.slotOf (coreId d k i) = 0x1F);
    (s.dev.inStage d 3 = true → s.dev.hasLead = true → s.dev.sby.deepWake = false → s.flash.keysA = s.flash.keysB → s.flash.keysA.ok = true →
      (∀ l, s.flash.retireA = ⟨true, l⟩ → s.flash.retireB = ⟨true, l⟩ →
        leadsTo (exec (.remapStageDone die false false) s) (fun t => mapped l t ∧ t.flash = s.flash)) ∧
      (∀ l, s.flash.retireB = ⟨true, l⟩ → leadsTo (exec (.remapStageDone die true false) s) (fun t => mapped l t ∧
        t.flash = { s.flash with retireA := ⟨true, l⟩ } ∧
        t.dev.eventsDev Ev.BOOT_FLASH = min 0xFFFFFFFF (s.dev.eventsDev Ev.BOOT_FLASH + 1))) ∧
      leadsTo (exec (.remapStageDone die true true) s) (fun t => t.flash = s.flash ∧ t.dev.bootStage = 8 ∧
        t.dev.fld Fld.CTL_BOOT_ERR 0 = Ev.BOOT_FLASH)) ∧
    (s.dev.inStage d 4 = true → s.dev.sby.deepWake = false → s.dev.settled → leadsTo (exec (.memoryStageDone die 0xF) s) (fun t =>
      t.dev.dieStage d = 5 ∧ t.flash = s.flash ∧
      (∀ a, 4 * d * stackSize ≤ a → a < 4 * (d + 1) * stackSize → Memory.byte t.dev.mem a = 0) ∧
      (∀ a, strideAddr (8192 * d) 0 ≤ a → a < strideAddr (8192 * (d + 1)) 0 → Memory.byte t.dev.mem a = 0) ∧
      (∀ a, ¬(4 * d * stackSize ≤ a ∧ a < 4 * (d + 1) * stackSize) → ¬(strideAddr (8192 * d) 0 ≤ a ∧ a < strideAddr (8192 * (d + 1)) 0) →
        Memory.byte t.dev.mem a = Memory.byte s.dev.mem a))) ∧
    (∀ ok4 : BitVec 4, ok4 ≠ 0xF → s.dev.inStage d 4 = true → s.dev.settled → s.dev.leadDie ≠ d →
      leadsTo (exec (.memoryStageDone die ok4) s) (fun t => t.dev.fld Fld.CTL_DBOOT_HBMOK d = ok4.toNat ∧ FenceTaken s t d)) ∧
    (s.dev.inStage d 5 = true → s.dev.settled → d ∉ s.dev.ctl.tested →
      ((∀ f ∈ s.dev.spr.fills, f.die ≠ d) → leadsTo (exec (.coresStageDone die []) s) (fun t =>
        t.dev.dieStage d = 6 ∧ (t.dev.fld Fld.CTL_BOOT_READY 0).testBit d = true ∧ t.flash = s.flash)) ∧
      (∀ pc : BitVec 17, isSlot pc.toNat = true → slotDie pc.toNat = d → s.dev.retired pc.toNat = false →
        (s.dev.part (s.dev.partOf d)).stepping = false →
        leadsTo (exec (.coresStageDone die [pc]) s) (fun t => d ∈ t.dev.ctl.tested ∧
          t.flash = s.flash ∧
          (s.dev.solo = true → s.flash.holdsRetired pc.toNat = true → t.dev.retired pc.toNat = true) ∧
          (s.dev.solo = true → s.flash.holdsRetired pc.toNat = false →
            t.dev.retired pc.toNat = false ∧ FlashWrite.retire pc.toNat ∈ t.dev.sec.flashQ) ∧
          (s.dev.solo = false → t.dev.retired pc.toNat = false ∧ t.dev.dieStage d = 5 ∧
            (t.dev.isOpenFor 1 pc.toNat = true ∨ t.dev.isOpenFor 3 pc.toNat = true))))) ∧
    (s.dev.inStage d (s.dev.dieStage d) = true → 3 ≤ s.dev.dieStage d → s.dev.dieStage d ≤ 5 → s.dev.settled → s.dev.leadDie ≠ d →
      leadsTo (exec (.stageBoundExpiry die) s) (fun t => FenceTaken s t d ∧
        t.dev.eventsDev Ev.BOOT_STAGE = min 0xFFFFFFFF (s.dev.eventsDev Ev.BOOT_STAGE + 1)))

/-! ### Power states, the input and cooling -/

/-- R528 to R531, R538: PWR_CMD of the owner port. A state below RUN that nothing bars begins its entry, with BUSY set and the state as it
was; what R531 bars, and in the cycle of a WAKE any of them, is refused with EV_PWR_REFUSED and changes nothing else; RUN leaves IDLE and SLEEP at once.
Any other command that names the current state does nothing. A cycle is one model time (assumption 64, DEDUCED).
R529, R531, R535 to R538, R541: an entry completes with its state and its event. SLEEP takes every fabric port DARK and every PLL off;
DEEP keeps the bytes of the selected banks and stacks, and the registers of R537, and nothing else; OFF keeps nothing. WAKE brings IDLE and
SLEEP to RUN, DEEP to a bring-up that restores what was kept, OFF to a module reset; during an entry it waits for its end, and in the cycle of the
command that began the entry it refuses that command and wakes. Each die then switches to its PLL. -/
def Obligations.PowerStatesOfModule : Prop :=
  ∀ (s : State) (port : HostPort) (die : DieId),
    let owns : Prop := s.dev.serves port.val ∧ s.dev.isOwner port.val = true
    let enters (v : Nat) : Prop :=
      s.dev.flag Fld.PWR_STAT_BUSY 0 = true ∧ s.dev.sby.target = v ∧ s.dev.sby.wakePending = false
    let wakes : Prop := s.dev.standby = true ∧ s.dev.sby.resetHeld = false ∧ s.dev.flag Fld.PWR_STAT_BUSY 0 = false
    let counted (t : State) : Prop := t.dev.eventsDev Ev.PWR_STATE = min 0xFFFFFFFF (s.dev.eventsDev Ev.PWR_STATE + 1);
    (owns → s.dev.flag Fld.PWR_STAT_BUSY 0 = false →
      ∀ (v : Nat) (cmd : Instr), (v, cmd) ∈ [(1, Instr.pwrCmdIdle port), (2, .pwrCmdSleep port), (3, .pwrCmdDeep port), (4, .pwrCmdOff port)] →
        v ≠ s.dev.power →
        (s.dev.pwrBlocked v = false → s.dev.sby.wokeAt ≠ some s.dev.now → leadsTo (exec cmd s) (fun t =>
          t.dev.flag Fld.PWR_STAT_BUSY 0 = true ∧ t.dev.power = s.dev.power ∧
          t.dev.sby = { s.dev.sby with target := v, cmdAt := some s.dev.now } ∧
          Frame { sby := True, reg := fun k i => k = .PWR_STAT ∧ i = 0 } s.dev t.dev ∧ t.flash = s.flash)) ∧
        (s.dev.pwrBlocked v = true ∨ s.dev.sby.wokeAt = some s.dev.now → leadsTo (exec cmd s) (fun t =>
          t.dev.fld Fld.PWR_STAT_ERR 0 = Ev.PWR_REFUSED ∧ t.dev.flag Fld.PWR_STAT_BUSY 0 = false ∧ t.dev.power = s.dev.power ∧
          t.dev.eventsDev Ev.PWR_REFUSED = min 0xFFFFFFFF (s.dev.eventsDev Ev.PWR_REFUSED + 1) ∧
          Frame { reg := fun k i => k = .PWR_STAT ∧ i = 0 } s.dev t.dev ∧ t.flash = s.flash))) ∧
    (owns → ∀ (v : Nat) (cmd : Instr),
      (v, cmd) ∈ [(0, Instr.pwrCmdRun port), (1, .pwrCmdIdle port), (2, .pwrCmdSleep port), (3, .pwrCmdDeep port), (4, .pwrCmdOff port)] →
      s.dev.power = v → (1 ≤ v → s.dev.sby.wokeAt ≠ some s.dev.now) → exec cmd s = .next s) ∧
    (owns → s.dev.flag Fld.PWR_STAT_BUSY 0 = false → s.dev.power = 1 ∨ s.dev.power = 2 → leadsTo (exec (.pwrCmdRun port) s) (fun t =>
      t.dev.power = 0 ∧ (∀ a, Memory.byte t.dev.mem a = Memory.byte s.dev.mem a) ∧ t.dev.cores = s.dev.cores ∧ t.flash = s.flash ∧
      (s.dev.power = 2 → t.dev.sby.switching = s.dev.liveDies ∧ ∀ d, d < 6 → t.dev.fld Fld.PWR_DSTAT_LP d = 0))) ∧
    (enters 1 → s.dev.power = 0 → leadsTo (exec .powerEntryComplete s) (fun t =>
      t.dev.power = 1 ∧ t.dev.flag Fld.PWR_STAT_BUSY 0 = false ∧ counted t ∧ t.flash = s.flash ∧
      Frame { sby := True, reg := fun k i => k = .PWR_STAT ∧ i = 0 } s.dev t.dev)) ∧
    (enters 2 → leadsTo (exec .powerEntryComplete s) (fun t =>
      t.dev.power = 2 ∧ t.dev.flag Fld.PWR_STAT_BUSY 0 = false ∧ t.flash = s.flash ∧ t.dev.chnState = chnUnlocked ∧
      t.dev.reg .CHN_COUNT 0 = s.dev.reg .CHN_COUNT 0 ∧ t.dev.cores = s.dev.cores ∧
      (∀ a, Memory.byte t.dev.mem a = Memory.byte s.dev.mem a) ∧
      t.dev.sby.switching = [] ∧ (∀ q, q < 36 → t.dev.fld Fld.FAB_PORT_STAT_LINK q = 0) ∧
      ∀ d ∈ s.dev.liveDies, t.dev.fld Fld.PWR_DSTAT_CLK d = 0 ∧ t.dev.fld Fld.PWR_DSTAT_LOCK d = 0 ∧
        t.dev.fld Fld.PWR_DSTAT_LP d = s.dev.fld Fld.PWR_LPREG_EN d)) ∧
    (enters 3 → leadsTo (exec .powerEntryComplete s) (fun t =>
      t.dev.power = 3 ∧ (∀ k i, k ≠ .PWR_STAT → k ≠ .PWR_RSTCAUSE → t.dev.reg k i = regReset k i % 2 ^ 64) ∧ t.dev.cores = [] ∧ t.dev.parts = [] ∧
      (∀ a, Memory.byte t.dev.mem a = if s.dev.keptAddr a = true then Memory.byte s.dev.mem a else 0) ∧
      ∃ r, t.dev.sby.retained = some r ∧ ∀ k i, k ∈ [RegKind.HLK_PARTCFG, .FAB_PARTSLICE, .SPR_REMAP_LO, .SPR_REMAP_HI, .SPR_CLSTAT, .PWR_RETAIN, .PWR_LPREG] →
        (SMap.read (BitVec.ofNat 64 (regReset k i)) r.regs (regKey k i)).toNat = s.dev.reg k i)) ∧
    (enters 4 → leadsTo (exec .powerEntryComplete s) (fun t =>
      t.dev.power = 4 ∧ t.dev.mem = [] ∧ t.dev.cores = [] ∧ t.dev.parts = [] ∧ t.dev.sby.retained = none ∧ t.dev.sby.pwrGood = false ∧
      (∀ k i, k ≠ .PWR_STAT → k ≠ .PWR_RSTCAUSE → t.dev.reg k i = regReset k i % 2 ^ 64))) ∧
    (wakes → s.dev.power = 1 ∨ s.dev.power = 2 → leadsTo (exec .wake s) (fun t => t.dev.power = 0 ∧ t.flash = s.flash)) ∧
    (wakes → s.dev.power = 3 → leadsTo (exec .wake s) (fun t => t.dev.power = 0 ∧ t.dev.sby = { s.dev.sby with deepWake := true, wokeAt := some s.dev.now } ∧
      t.dev.fld Fld.PWR_RSTCAUSE_CAUSE 0 = 7 ∧ t.dev.mem = s.dev.mem ∧ t.flash = s.flash)) ∧
    (wakes → s.dev.power = 4 → exec .wake s = okFlash s (s.dev.moduleReset s.flash 6)) ∧
    (s.dev.standby = true → s.dev.sby.resetHeld = false → s.dev.flag Fld.PWR_STAT_BUSY 0 = true →
      (s.dev.sby.cmdAt ≠ some s.dev.now →
        exec .wake s = .next { s with dev := { s.dev with sby := { s.dev.sby with wakePending := true, wokeAt := some s.dev.now } } }) ∧
      (s.dev.sby.cmdAt = some s.dev.now → s.dev.power ≤ 2 → leadsTo (exec .wake s) (fun t =>
        t.dev.power = 0 ∧ t.dev.flag Fld.PWR_STAT_BUSY 0 = false ∧ t.dev.fld Fld.PWR_STAT_ERR 0 = Ev.PWR_REFUSED ∧ t.flash = s.flash ∧
        t.dev.eventsDev Ev.PWR_REFUSED = min 0xFFFFFFFF (s.dev.eventsDev Ev.PWR_REFUSED + 1)))) ∧
    (die.val ∈ s.dev.sby.switching → s.dev.power ≤ 1 → leadsTo (exec (.sleepWakePllSwitch die) s) (fun t =>
      t.dev.fld Fld.PWR_DSTAT_LOCK die.val = 1 ∧ t.dev.fld Fld.PWR_DSTAT_CLK die.val = 1 ∧
      t.dev.sby.switching = s.dev.sby.switching.erase die.val ∧ t.flash = s.flash))

/-- R545, R546, R547, R549: a sample of the input enters the filter of the last eight, warns of a sag when their mean falls below 64.0 V until
it rises above 65.0 V, and shows the power limit while the mean of the last 10 ms exceeds 38 kW or that of the last second 32 kW; each mean is over
the samples there are (assumption 65, DESIGN CHOICE). The reset of a sag or an overvoltage counts in NSAG and holds the
rails off until the input is restored; below 40 V all but flash is lost. -/
def Obligations.InputSamplesSagsAndLimits : Prop :=
  ∀ (s : State),
    (∀ (vin power : BitVec 16), s.dev.sby.input = true → s.dev.alive = true →
      let all := s.dev.sby.samples ++ [vin.toNat]
      let xs := all.drop (all.length - 8)
      let ps := s.dev.sby.powers.filter (fun x => decide (s.dev.now < x.1 + 4000000000)) ++ [(s.dev.now, power.toNat)]
      let short := (ps.filter (fun x => decide (s.dev.now < x.1 + 40000000))).map (fun x => x.2)
      let long := ps.map (fun x => x.2)
      let high := 38000 * short.length < short.sum ∨ 32000 * long.length < long.sum;
      leadsTo (exec (.inputSample vin power) s) (fun t =>
        t.dev.sby = { s.dev.sby with samples := xs, powers := ps } ∧ t.flash = s.flash ∧
        ((∀ x ∈ short, x < 65536) → t.dev.fld Fld.PWR_INPUT_PIN 0 * (10 * short.length) < short.sum + 10 * short.length ∧
          short.sum < t.dev.fld Fld.PWR_INPUT_PIN 0 * (10 * short.length) + 10 * short.length) ∧
        ((∀ x ∈ xs, x < 65536) → t.dev.fld Fld.PWR_INPUT_VIN 0 * xs.length < xs.sum + xs.length ∧
          xs.sum < t.dev.fld Fld.PWR_INPUT_VIN 0 * xs.length + xs.length) ∧
        (t.dev.flag Fld.PWR_INPUT_SAGW 0 = true ↔
          (if s.dev.flag Fld.PWR_INPUT_SAGW 0 = true then xs.sum ≤ 6500 * xs.length else xs.sum < 6400 * xs.length)) ∧
        (s.dev.flag Fld.PWR_INPUT_SAGW 0 = false → xs.sum < 6400 * xs.length →
          t.dev.eventsDev Ev.SAG_WARN = min 0xFFFFFFFF (s.dev.eventsDev Ev.SAG_WARN + 1)) ∧
        (t.dev.flag Fld.PWR_INPUT_LIMIT 0 = true ↔ high) ∧
        (s.dev.flag Fld.PWR_INPUT_LIMIT 0 = false → high →
          t.dev.eventsDev Ev.PWR_LIMIT = min 0xFFFFFFFF (s.dev.eventsDev Ev.PWR_LIMIT + 1)) ∧
        (∀ a, Memory.byte t.dev.mem a = Memory.byte s.dev.mem a) ∧ t.dev.cores = s.dev.cores ∧ t.dev.parts = s.dev.parts)) ∧
    (s.dev.sby.input = true → leadsTo (exec .sagReset s) (fun t =>
      t.dev.mem = [] ∧ t.dev.cores = [] ∧ t.dev.parts = [] ∧ t.dev.sby.pwrGood = false ∧ t.dev.sby.sagHold = true ∧ t.dev.sby.sagPending = true ∧
      t.dev.fld Fld.PWR_RSTCAUSE_CAUSE 0 = (if 8000 * s.dev.sby.samples.length < s.dev.sby.samples.sum then 5 else 4) ∧
      (s.dev.fld Fld.PWR_RSTCAUSE_NSAG 0 < 0xFFFFFFFF → t.dev.fld Fld.PWR_RSTCAUSE_NSAG 0 = s.dev.fld Fld.PWR_RSTCAUSE_NSAG 0 + 1) ∧
      (s.dev.fld Fld.PWR_RSTCAUSE_NSAG 0 = 0xFFFFFFFF → t.dev.fld Fld.PWR_RSTCAUSE_NSAG 0 = 0xFFFFFFFF ∧ t.dev.flag Fld.PWR_RSTCAUSE_OVF 0 = true) ∧
      (s.dev.power = 4 → t.dev.power = 4) ∧ (s.dev.power ≠ 4 → t.dev.power = 0) ∧ (s.dev.sec.flashQ = [] → t.flash = s.flash))) ∧
    (exec .inputRestored s = .next { s with dev := { s.dev with sby := { s.dev.sby with sagHold := false } } }) ∧
    (leadsTo (exec .standbyStop s) (fun t =>
      (∀ k i, t.dev.reg k i = regReset k i % 2 ^ 64) ∧ t.dev.mem = [] ∧ t.dev.cores = [] ∧ t.dev.sby = { input := false, resetHeld := s.dev.sby.resetHeld } ∧
      (s.dev.sec.flashQ = [] → t.flash = s.flash)))

/-- R544, R548, R593 to R595: a droop in RUN or IDLE stretches its cluster with an event, the stretch ends with its cycles counted
(a free value, assumption 4), and a brown-out in the low-power mode fences the die. A read of the sensors shows the highest junction temperature of
the dies not fenced, takes the inlet to be 45.0 °C, which PWR_COOL.TIN then shows (assumption 65, DESIGN CHOICE), and warns during a sensor fault, and
limits above 100 °C; above 110 °C the module trips and everything but flash is lost. -/
def Obligations.DroopsAndCoolant : Prop :=
  ∀ (s : State) (die : DieId),
    let d := die.val;
    (∀ k : BitVec 9, k.toNat < 272 → s.dev.alive = true → s.dev.fenced d = false → s.dev.power ≤ 1 → clIdx d k.toNat ∉ s.dev.sby.stretched →
      leadsTo (exec (.droopDetect die k) s) (fun t =>
        t.dev.sby = { s.dev.sby with stretched := s.dev.sby.stretched ++ [clIdx d k.toNat] } ∧
        t.dev.events d Ev.PWR_STRETCH = min 0xFFFFFFFF (s.dev.events d Ev.PWR_STRETCH + 1) ∧ Frame { sby := True } s.dev t.dev ∧ t.flash = s.flash)) ∧
    (∀ k : BitVec 9, k.toNat < 272 → clIdx d k.toNat ∈ s.dev.sby.stretched → leadsTo (exec (.stretchEnd die k) s) (fun t =>
      t.dev.sby = { s.dev.sby with stretched := s.dev.sby.stretched.erase (clIdx d k.toNat) } ∧
      t.dev.reg .PWR_PC_STRETCH d % 2 ^ 48 = (s.dev.reg .PWR_PC_STRETCH d + Config.free s.dev.fresh % 2 ^ 48) % 2 ^ 48 ∧
      Frame { sby := True, reg := fun r i => r = .PWR_PC_STRETCH ∧ i = d } s.dev t.dev ∧ t.flash = s.flash)) ∧
    (s.dev.flag Fld.PWR_DSTAT_LP d = true → s.dev.fenced d = false → s.dev.settled → s.dev.leadDie ≠ d →
      leadsTo (exec (.brownout die) s) (fun t => FenceTaken s t d ∧
        t.dev.eventsDev Ev.PWR_BROWNOUT = min 0xFFFFFFFF (s.dev.eventsDev Ev.PWR_BROWNOUT + 1))) ∧
    (∀ (tin tout : BitVec 12) (pulses : BitVec 16) (tj : BitVec 48), s.dev.alive = true →
      let tjmax := s.dev.liveDies.foldl (fun m d => max m (tj.toNat / 2 ^ (8 * d) % 256)) 0
      let bad := tin.toInt < -200 ∨ 900 < tin.toInt;
      (tjmax ≤ 110 → leadsTo (exec (.coolantSensorRead tin tout pulses tj) s) (fun t =>
        t.dev.fld Fld.PWR_COOL_TJMAX 0 = tjmax ∧ (t.dev.flag Fld.PWR_COOL_TINF 0 = true ↔ bad) ∧
        (t.dev.flag Fld.PWR_COOL_TOUTF 0 = true ↔ tout.toInt < -200 ∨ 900 < tout.toInt) ∧
        (bad → t.dev.fld Fld.PWR_COOL_TIN 0 = 450 ∧ t.dev.flag Fld.PWR_COOL_WARN 0 = true ∧ t.dev.flag Fld.PWR_COOL_LIMIT 0 = true) ∧
        (bad → s.dev.flag Fld.PWR_COOL_WARN 0 = false →
          t.dev.eventsDev Ev.COOL_WARN = min 0xFFFFFFFF (s.dev.eventsDev Ev.COOL_WARN + 1)) ∧
        t.dev.sby.tins = (if bad then [] else (s.dev.sby.tins ++ [tin.toInt]).drop (s.dev.sby.tins.length - 9)) ∧
        (100 < tjmax → t.dev.flag Fld.PWR_COOL_LIMIT 0 = true) ∧
        (100 < tjmax → s.dev.flag Fld.PWR_COOL_LIMIT 0 = false →
          t.dev.eventsDev Ev.COOL_LIMIT = min 0xFFFFFFFF (s.dev.eventsDev Ev.COOL_LIMIT + 1)) ∧
        (∀ a, Memory.byte t.dev.mem a = Memory.byte s.dev.mem a) ∧ t.dev.cores = s.dev.cores ∧ t.dev.parts = s.dev.parts ∧ t.flash = s.flash)) ∧
      (110 < tjmax → leadsTo (exec (.coolantSensorRead tin tout pulses tj) s) (fun t =>
        t.dev.sby.trip = true ∧ t.dev.mem = [] ∧ t.dev.cores = [] ∧ t.dev.parts = [] ∧ t.dev.hosts = []))) ∧
    (s.dev.sby.pwrGood = true → s.dev.sby.trip = false → leadsTo (exec .thermalTrip s) (fun t =>
      t.dev.sby.trip = true ∧ t.dev.sby.pwrGood = s.dev.sby.pwrGood ∧ t.dev.mem = [] ∧ t.dev.cores = [] ∧ t.dev.parts = [] ∧ t.dev.hosts = [] ∧
      (∀ k i, k ≠ .PWR_RSTCAUSE → t.dev.reg k i = regReset k i % 2 ^ 64) ∧ (s.dev.sec.flashQ = [] → t.flash = s.flash)))

/-! ### Controllers and sparing -/

/-- R493, R496 to R501: heartbeats to and answers from every controller, misses, the takeover by NEXT at the third miss of the lead, the
reset of another controller at its own third, rejoining with an image that the loader accepts, and the fence of a controller that does not rejoin.
What NEXT replays of records it has not seen closed is left open here (assumption 75). -/
def Obligations.HeartbeatsTakeoverAndRejoin : Prop :=
  ∀ (s : State) (die : DieId),
    let d := die.val
    let live : Prop := s.dev.alive = true ∧ s.dev.ctl.elected = true ∧ s.dev.fenced d = false ∧ s.dev.role d ≠ 3;
    (s.dev.alive = true → s.dev.hasLead = true → s.dev.ctl.timerHeartbeats = s.dev.onTimer → (s.dev.onTimer = true ∨ s.dev.chainCount % 4096 = 0) →
      leadsTo (exec .heartbeatSend s) (fun t =>
        t.dev.ctl = { s.dev.ctl with missed := [] } ∧
        t.dev.sby = { s.dev.sby with lastHeartbeat := some s.dev.now, leadSeen := s.dev.leadDie } ∧
        (∀ e, e < 6 → t.dev.fld Fld.CTL_CSTAT_MISSED e = if e ∈ s.dev.ctl.missed then s.dev.fld Fld.CTL_CSTAT_MISSED e else 0) ∧
        (∀ e ∈ s.dev.liveDies, e ≠ s.dev.leadDie → Out.ctl true s.dev.leadDie e (.heartbeat s.dev.term s.dev.lastSeq) ∈ t.dev.out ∧
          (s.dev.reaches s.dev.leadDie e = true → Out.ctl false s.dev.leadDie e (.heartbeat s.dev.term s.dev.lastSeq) ∈ t.dev.out)) ∧
        (∀ e ∈ s.dev.liveDies, s.dev.role e = 0 ∨ s.dev.role e = 2 → Out.ctl true e s.dev.leadDie (.answer s.dev.term) ∈ t.dev.out) ∧
        Frame { ctl := True, sby := True, reg := fun k i => k = .CTL_CSTAT ∧ i < 6 } s.dev t.dev ∧ t.flash = s.flash)) ∧
    (live → s.dev.settled → s.dev.fld Fld.CTL_CSTAT_MISSED d < 2 → leadsTo (exec (.heartbeatMiss die) s) (fun t =>
      t.dev.fld Fld.CTL_CSTAT_MISSED d = s.dev.fld Fld.CTL_CSTAT_MISSED d + 1 ∧
      t.dev.ctl = { s.dev.ctl with missed := s.dev.ctl.missed ++ [d] } ∧
      Frame { ctl := True, reg := fun k i => k = .CTL_CSTAT ∧ i = d } s.dev t.dev ∧ t.flash = s.flash)) ∧
    (∀ n, live → s.dev.settled → 2 ≤ s.dev.fld Fld.CTL_CSTAT_MISSED d → s.dev.leadDie = d → s.dev.nextDie = some n → n ≠ d →
      s.dev.term < 65535 → leadsTo (exec (.heartbeatMiss die) s) (fun t =>
        t.dev.term = s.dev.term + 1 ∧ t.dev.leadDie = n ∧ t.dev.role d = 3 ∧
        t.dev.eventsDev Ev.CTL_TAKEOVER = min 0xFFFFFFFF (s.dev.eventsDev Ev.CTL_TAKEOVER + 1) ∧
        (∀ f ∈ t.dev.spr.fills, f.step = 1 ∨ f.step = 4) ∧ t.flash = s.flash ∧
        ((∀ r ∈ s.dev.ctl.journal, r.isOpen = false → r.closedAck = true) →
          t.dev.role n = 1 ∧ d ∈ t.dev.ctl.rejoin ∧ t.dev.cores = s.dev.cores))) ∧
    (live → s.dev.settled → 2 ≤ s.dev.fld Fld.CTL_CSTAT_MISSED d → s.dev.role d ≠ 1 → leadsTo (exec (.heartbeatMiss die) s) (fun t =>
      t.dev.role d = 3 ∧ d ∈ t.dev.ctl.rejoin ∧ t.dev.nextDie ≠ some d ∧ t.dev.cores = s.dev.cores ∧ t.flash = s.flash ∧
      t.dev.eventsDev Ev.CTL_RESET = min 0xFFFFFFFF (s.dev.eventsDev Ev.CTL_RESET + 1))) ∧
    (∀ r run, d ∈ s.dev.ctl.rejoin → s.dev.settled → s.flash.fw = some r → s.dev.sec.running = some run → r.ok = true →
      s.flash.floor ≤ r.svn → r.signer = keyId s.flash.romKey →
      Ed448.verify s.flash.romKey "FENRAM-TX4-FIRM" (leBytes 64 r.digest) r.sig = true → r.compat = run.compat → s.dev.leadDie ≠ d →
      leadsTo (exec (.controllerRejoin die) s) (fun t =>
        t.dev.ctl.rejoin = s.dev.ctl.rejoin.erase d ∧ (t.dev.role d = 0 ∨ (t.dev.role d = 2 ∧ t.dev.nextDie = some d)) ∧ t.flash = s.flash)) ∧
    (d ∈ s.dev.ctl.rejoin → s.dev.fenced d = false → s.dev.settled → s.dev.leadDie ≠ d →
      leadsTo (exec (.controllerRejoinTimeout die) s) (fun t => FenceTaken s t d))

/-- R23, R24, R488, R496, R501, R502: a fault of a die fences it, at once where the lead acts unmirrored: FENCED, its stage FAILED, its
controller and ports DOWN, its fills gone. NEXT acknowledges the record it names on both paths, and the lead then carries it out: a retirement goes to
flash, and where flash holds it the remap follows (R482); without an acknowledgement NEXT is reset. A control flit that crosses a bridge ends its failures in a row, a failure is retried, and the eighth in a
row takes the bridge DOWN. -/
def Obligations.FencesJournalAndBridges : Prop :=
  ∀ (s : State) (die : DieId),
    let d := die.val;
    (s.dev.alive = true → s.dev.fenced d = false → s.dev.settled → s.dev.leadDie ≠ d → leadsTo (exec (.dieHwFault die) s) (fun t =>
      FenceTaken s t d ∧ (s.dev.solo = true →
        t.dev.dieStage d = 8 ∧ t.dev.role d = 3 ∧ t.dev.fld Fld.HLK_PSTAT_LINK d = 3 ∧ (∀ f ∈ t.dev.spr.fills, f.cluster < 272 → f.die ≠ d) ∧
        (∀ i, i < 6 → t.dev.fld Fld.FAB_PORT_STAT_LINK (6 * d + i) = 3)))) ∧
    (∀ seq : Word, s.dev.settled → leadsTo (exec (.journalMirrorAck seq false) s) (fun t =>
      t.dev.ctl = { s.dev.ctl with journal := s.dev.ctl.journal.map (fun x => if x.seq = seq.toNat then { x with openAck := true } else x) } ∧
      (∀ n, s.dev.nextDie = some n → t.dev.ctl ≠ s.dev.ctl → Out.ctl true n s.dev.leadDie (.ack seq.toNat false) ∈ t.dev.out) ∧
      Frame { ctl := True } s.dev t.dev ∧ t.flash = s.flash)) ∧
    (∀ seq : Word, s.dev.settled → leadsTo (exec (.journalMirrorAck seq true) s) (fun t =>
      t.dev.ctl = { s.dev.ctl with journal := s.dev.ctl.journal.map (fun x =>
        if x.seq = seq.toNat ∧ x.isOpen = false then { x with closedAck := true } else x) } ∧
      Frame { ctl := True } s.dev t.dev ∧ t.flash = s.flash)) ∧
    (∀ r ∈ s.dev.ctl.journal, Leads s.dev [] [r.target] [] [r] → r.isOpen = true → r.type = 1 ∨ r.type = 3 → r.seq < 2 ^ 64 →
      s.dev.retireReady r.target = true → isSlot r.target = true → leadsTo (exec (.journalMirrorAck (BitVec.ofNat 64 r.seq) false) s) (fun t =>
        t.flash = s.flash ∧ (s.flash.holdsRetired r.target = true → t.dev.spr.due = [] ∧ t.dev.retired r.target = true) ∧
        (s.flash.holdsRetired r.target = false → t.dev.spr.due = [r.target] ∧ t.dev.retired r.target = s.dev.retired r.target ∧
          FlashWrite.retire r.target ∈ t.dev.sec.flashQ))) ∧
    (∀ r n, s.dev.settled → r ∈ s.dev.ctl.journal → r.acked = false → s.dev.nextDie = some n → s.dev.fenced n = false → s.dev.role n = 2 →
      leadsTo (exec .journalAckTimeout s) (fun t =>
        t.dev.role n = 3 ∧ n ∈ t.dev.ctl.rejoin ∧ t.dev.nextDie ≠ some n ∧
        t.dev.eventsDev Ev.CTL_RESET = min 0xFFFFFFFF (s.dev.eventsDev Ev.CTL_RESET + 1) ∧
        (t.dev.nextDie = none → t.dev.solo = true))) ∧
    (∀ b : BitVec 3, b.toNat < 7 → s.dev.flag Fld.CTL_BRG_UP b.toNat = true →
      let j := b.toNat
      let n := SMap.read 0 s.dev.ctl.bridgeFails j;
      leadsTo (exec (.bridgeControlFlit b true) s) (fun t => SMap.read 0 t.dev.ctl.bridgeFails j = 0 ∧
        Frame { ctl := True } s.dev t.dev ∧ t.flash = s.flash) ∧
      (n < 7 → leadsTo (exec (.bridgeControlFlit b false) s) (fun t => SMap.read 0 t.dev.ctl.bridgeFails j = n + 1 ∧
        t.dev.flag Fld.CTL_BRG_UP j = true ∧
        (s.dev.fld Fld.CTL_BRG_RETRY j < 0xFFFF → t.dev.fld Fld.CTL_BRG_RETRY j = s.dev.fld Fld.CTL_BRG_RETRY j + 1) ∧
        Frame { ctl := True, reg := fun k i => k = .CTL_BRG ∧ i = j } s.dev t.dev ∧ t.flash = s.flash)) ∧
      (7 ≤ n → leadsTo (exec (.bridgeControlFlit b false) s) (fun t =>
        t.dev.flag Fld.CTL_BRG_UP j = false ∧ j ∈ t.dev.ctl.bridgesDown ∧ t.flash = s.flash)))

/-- R481 to R484, R488, R496, R506: the owner's RETIRE records a retirement, APPROVE does so with the oldest request, DECLINE drops that
request; none is carried out before NEXT acknowledges it. A due retirement that is acknowledged waits for flash, and with both copies of the list
holding it enters the remap; a fill goes on
from its self-test and its bushel, its slot is to be retired where it fails one, and it ends with its content in place. -/
def Obligations.RetirementsAndFills : Prop :=
  ∀ (s : State) (port : HostPort) (die : DieId) (k9 : BitVec 9),
    let owns : Prop := s.dev.serves port.val ∧ s.dev.isOwner port.val = true ∧ s.dev.power = 0
    let d := die.val
    let k := k9.toNat
    let recorded (pc : Nat) (t : State) : Prop :=
      t.dev.spr.due = [pc] ∧ t.flash = s.flash ∧ (∀ i, t.dev.reg .SPR_CLSTAT i = s.dev.reg .SPR_CLSTAT i) ∧
        ∃ r, t.dev.ctl.journal.getLast? = some r ∧ r.target = pc ∧ (r.type = 1 ∨ r.type = 3) ∧ r.isOpen = true ∧ r.openAck = false
    let waits (pc : Nat) : Prop := s.dev.settled ∧ s.dev.solo = false ∧ s.dev.clusterOpen (slotDie pc) (slotCluster pc) [] = false ∧
      s.dev.retired pc = false ∧ s.dev.retireRefused pc = false;
    (∀ pc : BitVec 17, owns → waits pc.toNat → isSlot pc.toNat = true → s.dev.fenced (slotDie pc.toNat) = false →
      leadsTo (exec (.sprCmdRetire port pc) s) (recorded pc.toNat)) ∧
    (∀ r rs, owns → s.dev.spr.requests = r :: rs →
      (waits r.1 → leadsTo (exec (.sprCmdApprove port) s) (fun t => recorded r.1 t ∧ t.dev.spr.requests = rs)) ∧
      leadsTo (exec (.sprCmdDecline port) s) (fun t => t.dev.spr = { s.dev.spr with requests := rs } ∧ Frame { spr := True } s.dev t.dev ∧
        t.flash = s.flash)) ∧
    (∀ r ∈ s.dev.ctl.journal, Leads s.dev [] [r.target] [] [r] → r.isOpen = true → r.type = 1 ∨ r.type = 3 → r.openAck = true →
      s.dev.retireReady r.target = true → isSlot r.target = true → s.dev.retired r.target = false → s.dev.fenced (slotDie r.target) = false →
      let pc := r.target;
      leadsTo (exec .retirement s) (fun t =>
        t.flash = s.flash ∧ (s.flash.holdsRetired pc = false →
          t.dev.spr.due = [pc] ∧ t.dev.retired pc = false ∧ FlashWrite.retire pc ∈ t.dev.sec.flashQ) ∧
        (s.flash.holdsRetired pc = true → t.dev.spr.due = [] ∧ t.dev.retired pc = true ∧
        (∀ c, s.dev.servedBy pc = some c → s.dev.fillOf (slotDie pc) (slotCluster pc) = none → s.dev.spareOf (slotDie pc) (slotCluster pc) < 17 →
          t.dev.slotOf c = s.dev.spareOf (slotDie pc) (slotCluster pc) ∧ t.dev.spareOf (slotDie pc) (slotCluster pc) = 0x1F) ∧
        (∀ c, s.dev.servedBy pc = some c → s.dev.fillOf (slotDie pc) (slotCluster pc) = none → s.dev.spareOf (slotDie pc) (slotCluster pc) = 0x1F →
          t.dev.isShort (slotDie pc) (slotCluster pc) = true)))) ∧
    (∀ fl, k < 272 → s.dev.fillOf d k = some fl → s.dev.settled → s.dev.mayAct 2 (slotId d k fl.slot) = true → fl.slot < 17 →
      (s.dev.part (s.dev.partOf d)).stepping = false →
      let pc := slotId d k fl.slot
      let fails (t : State) : Prop :=
        t.flash = s.flash ∧
        (s.dev.solo = true → if s.flash.holdsRetired pc = true then t.dev.retired pc = true else FlashWrite.retire pc ∈ t.dev.sec.flashQ) ∧
        (s.dev.solo = false → t.dev.isOpenFor 1 pc = true ∨ t.dev.isOpenFor 3 pc = true);
      (fl.step = 1 → 2 ≤ s.dev.planState (s.dev.partOf d) → leadsTo (exec (.fillSelfTestDone die k9 true) s) (fun t =>
        (t.dev.fillOf d k).map (fun f => f.step) =
          some (if s.dev.flag Fld.SPR_POLICY_RTESTFILL 0 = true ∧ (s.dev.rtestSlot s.flash (s.dev.partOf d)).isSome = true then 2 else 3) ∧
        Frame { spr := True } s.dev t.dev ∧ t.flash = s.flash)) ∧
      (fl.step = 1 → s.dev.retired pc = false → leadsTo (exec (.fillSelfTestDone die k9 false) s) fails) ∧
      (fl.step = 2 → fl.bushel.bind BushelRec.firstFail = none → leadsTo (exec (.fillBushelDone die k9 true) s) (fun t =>
        (t.dev.fillOf d k).map (fun f => f.step) = some 3 ∧ (∀ i, t.dev.reg .SPR_CLSTAT i = s.dev.reg .SPR_CLSTAT i) ∧ t.flash = s.flash)) ∧
      (fl.step = 2 → s.dev.retired pc = false → leadsTo (exec (.fillBushelDone die k9 false) s) fails) ∧
      (∀ ue, fl.step = 3 → s.dev.ctl.bridgesDown = [] → leadsTo (exec (.fillContentDone die k9 ue) s) (fun t =>
        t.dev.fillOf d k = none ∧ t.dev.fld Fld.SPR_CLSTAT_FILL (clIdx d k) = 0 ∧
        t.dev.events d Ev.SPR_FILL_DONE = min 0xFFFFFFFF (s.dev.events d Ev.SPR_FILL_DONE + 1) ∧ t.flash = s.flash)))

/-! ### Plans, the chain, steps and contexts -/

/-- R292, R296, R297, R308, R310, R314, R486: LOAD that passes its checks is LOADING, bound unless a fill of the partition is in progress;
one that fails is refused with the event of the first check it fails, and one that finds too few cores leaves the partition EMPTY; an image tile that
reports an uncorrectable error ends the load as a failed use (R447, R448). The binding is that of the map when the load began (R292). The
completion of a bound load makes the plan LOADED, or the partition EMPTY with the event of the tile that failed. UNLOAD makes it EMPTY,
RUN makes it RUNNING from its start beat, and STOP cancels a pending start or makes the step in progress the last. -/
def Obligations.PlanCommandsMoveState : Prop :=
  ∀ (s : State) (port : HostPort) (die : DieId),
    let p := s.dev.partOf port.val
    let a := s.dev.fld Fld.PLAN_ADDR_ADDR p / tileSize * tileSize
    let pl := s.dev.readPlan p a
    let withUe (ue : List (BitVec 52)) : Dev := { s.dev with ue := ue.map (fun a => a.toNat) }
    let clear (ue : List (BitVec 52)) : Prop := ∀ x ∈ s.dev.loadTiles p a, (withUe ue).ueAt x = false
    let refused (code : Nat) (t : State) : Prop :=
      t.dev.fld Fld.PLAN_STAT_ERR p = code ∧ t.dev.planState p = s.dev.planState p ∧ t.flash = s.flash ∧
        t.dev.events p code = min 0xFFFFFFFF (s.dev.events p code + 1) ∧ Frame { reg := fun k i => k = .PLAN_STAT ∧ i = p } s.dev t.dev;
    (s.dev.servesPart port.val →
      (∀ ue, s.dev.loadRefused p = true → leadsTo (exec (.planLoad port ue) s) (refused Ev.PLAN_STATE)) ∧
      (∀ ue code, s.dev.loadRefused p = false → clear ue → (withUe ue).loadCheck (s.flash.keys 2) p a = some code →
        leadsTo (exec (.planLoad port ue) s) (refused code)) ∧
      (∀ ue, s.dev.loadRefused p = false → ¬ clear ue → leadsTo (exec (.planLoad port ue) s) (fun t =>
        t.dev.planState p = s.dev.planState p ∧ t.dev.fld Fld.PLAN_STAT_ERR p = Ev.TILE_POISON ∧ t.dev.mem = s.dev.mem ∧ t.dev.cores = s.dev.cores ∧
        t.dev.events p Ev.TILE_POISON = min 0xFFFFFFFF (s.dev.events p Ev.TILE_POISON + 1) ∧ t.flash = s.flash)) ∧
      (∀ ue, s.dev.loadRefused p = false → clear ue → (withUe ue).loadCheck (s.flash.keys 2) p a = none →
        (s.dev.chainAgrees (parseChain (s.dev.reader a) (sectOf (s.dev.reader a) 9)).1 = false →
          leadsTo (exec (.planLoad port ue) s) (refused Ev.PLAN_CHAIN)) ∧
        (s.dev.chainAgrees (parseChain (s.dev.reader a) (sectOf (s.dev.reader a) 9)).1 = true →
          let loads (x : Plan) (t : State) : Prop :=
            t.dev.planState p = 1 ∧ (t.dev.part p).loading = some x ∧ t.dev.chain.inForce = true ∧
            (s.dev.chain.inForce = true → t.dev.chain = s.dev.chain) ∧ (∀ x, Memory.byte t.dev.mem x = Memory.byte s.dev.mem x) ∧
            t.dev.cores = s.dev.cores ∧ t.flash = s.flash;
          (s.dev.filling p = true → leadsTo (exec (.planLoad port ue) s) (fun t => loads pl t ∧
            (t.dev.part p).loadBinding = s.dev.binding p pl.lcores pl.uses)) ∧
          (∀ bs, s.dev.filling p = false → s.dev.binding p pl.lcores pl.uses = some bs → leadsTo (exec (.planLoad port ue) s) (loads (pl.bind bs))) ∧
          (s.dev.filling p = false → s.dev.binding p pl.lcores pl.uses = none → leadsTo (exec (.planLoad port ue) s) (fun t =>
            t.dev.planState p = 0 ∧ (t.dev.part p).loading = none ∧ t.dev.fld Fld.PLAN_STAT_ERR p = Ev.PLAN_COREMAP ∧
            t.dev.events p Ev.PLAN_COREMAP = min 0xFFFFFFFF (s.dev.events p Ev.PLAN_COREMAP + 1) ∧
            t.dev.mem = s.dev.mem ∧ t.dev.cores = s.dev.cores ∧ t.flash = s.flash)))) ∧
      (∀ pl, s.dev.planState p = 2 → (s.dev.part p).plan = some pl → leadsTo (exec (.planUnload port) s) (fun t =>
        t.dev.planState p = 0 ∧ (t.dev.part p).plan = none ∧ t.dev.reg .PLAN_ID p = 0 ∧ t.flash = s.flash)) ∧
      (s.dev.planState p = 3 → (s.dev.part p).stepping = true → leadsTo (exec (.planStop port) s) (fun t =>
        t.dev.part p = { s.dev.part p with stopReq := true } ∧ Frame { part := fun q => q = p } s.dev t.dev ∧ t.flash = s.flash)) ∧
      (s.dev.planState p = 3 → (s.dev.part p).stepping = false → leadsTo (exec (.planStop port) s) (fun t =>
        t.dev.planState p = 2 ∧ (t.dev.part p).start = none ∧ t.flash = s.flash ∧
        ((∀ y ∈ s.dev.spr.swaps, y.phase = 5 → s.dev.partOf y.die ≠ p) →
          Frame { part := fun q => q = p, reg := fun k i => k = .PLAN_STAT ∧ i = p } s.dev t.dev))) ∧
      (∀ beat : Word, s.dev.runRefused p beat.toNat = false → leadsTo (exec (.planRun port beat) s) (fun t =>
        t.dev.planState p = 3 ∧ t.dev.part p = { s.dev.part p with start := some beat, stopReq := false } ∧
        Frame { part := fun q => q = p, reg := fun k i => k = .PLAN_STAT ∧ i = p } s.dev t.dev ∧ t.flash = s.flash)) ∧
      (∀ beat : Word, s.dev.runRefused p beat.toNat = true → leadsTo (exec (.planRun port beat) s) (refused Ev.PLAN_STATE))) ∧
    (∀ pl ue, (s.dev.part die.val).loading = some pl → pl.bound = true → s.dev.bridgeStops die.val = false →
      let r := ({ s.dev with ue := ue.map (fun a => a.toNat) } : Dev).loadStores die.val pl;
      (r.2.1 = none → leadsTo (exec (.planLoadComplete die ue) s) (fun t =>
        t.dev.planState die.val = 2 ∧ (t.dev.part die.val).plan = some pl ∧ (t.dev.part die.val).loading = none ∧
        t.dev.fld Fld.STEP_STAT_FRONT die.val = 0 ∧ t.dev.fld Fld.CTX_STAT_STATE die.val = 0 ∧ t.flash = s.flash)) ∧
      (∀ code, r.2.1 = some code → leadsTo (exec (.planLoadComplete die ue) s) (fun t =>
        t.dev.planState die.val = 0 ∧ (t.dev.part die.val).loading = none ∧ t.dev.fld Fld.PLAN_STAT_ERR die.val = code ∧ t.flash = s.flash)))

/-- R302 to R307, R350, R591: a symbol comes in a CHAIN flit of a fabric port, or in a frame of CHAIN_IN, which is discarded where its preamble, start
byte or CRC is wrong or where it begins before the previous frame has ended. A valid symbol in its window waits for its beat, at its arrival plus the
horizon less its accumulated delay, and goes on with its delay, at most 0xFFFF (assumption 83, DESIGN CHOICE); another counts towards the conflict
rule. A beat sets the count; the local master makes its own; a window with no symbol begins holdover, which
makes beats until it is lost; sixteen symbols in conflict unlock the chain and abort every step. -/
def Obligations.ChainSymbolsAndBeats : Prop :=
  ∀ (s : State),
    let x := s.dev.chain
    let next := (s.dev.chainCount + 1) % 2 ^ 64
    let counted (t : State) (code : Nat) : Prop := t.dev.eventsDev code = min 0xFFFFFFFF (s.dev.eventsDev code + 1);
    let received (u : Dev) (input v : Nat) (res : BitVec 16) (o : Host.Outcome State Fault Refusal) : Prop :=
      ∀ δ, u.chainOn = true → u.inputDelay input = some δ → u.symbolOk v = true →
      let y := u.chain
      let c := symCount v
      let acc := symAcc v + δ
      let h := u.fld Fld.CHN_CFG_HORIZON 0
      let time : Int := u.now + h - acc;
      (h < acc → leadsTo o (fun t => t.dev.eventsDev Ev.CHAIN_HORIZON = min 0xFFFFFFFF (u.eventsDev Ev.CHAIN_HORIZON + 1) ∧ Frame {} u t.dev ∧
        t.flash = s.flash)) ∧
      (acc ≤ h → u.dupCount c = false → u.oldCount c = false → 2 ≤ u.chnState →
        (u.expectedCount time = (c, true) → leadsTo o (fun t =>
          t.dev.chain = { y with waiting := y.waiting ++ [⟨BitVec.ofNat 64 c, time, input⟩], conflicts := if 16 ≤ y.conflicts then y.conflicts else 0 } ∧
          t.dev.out = u.out ++ ((List.range 36).filter (fun q => (u.reg .CHN_FWD 0).testBit q && u.fld Fld.FAB_PORT_STAT_PLAN q == planMatch)).map
            (fun q => Out.fabChain q (putBits v 64 16 (min (acc + res.toNat) 0xFFFF)) (u.fabPort q).link.lastSeq) ∧
          Frame { chain := True } u t.dev ∧ t.flash = s.flash)) ∧
        ((u.expectedCount time).1 ≠ c → leadsTo o (fun t =>
          t.dev.chain = { y with conflicts := y.conflicts + 1 } ∧ t.dev.chainCount = u.chainCount ∧ Frame { chain := True } u t.dev ∧
          t.flash = s.flash)));
    (∀ (f : BitVec 184) (res : BitVec 16),
      let u : Dev := { s.dev with chain := { x with frameAt := some s.dev.now } }
      let fair : Prop := frameNum f 0 3 = 0xD55555 ∧ crc32 (leBytes 16 (frameNum f 3 16)) = frameNum f 19 4 ∧
        ∀ t, x.frameAt = some t → t + 589 ≤ s.dev.now;
      (fair → received u 0x3E (frameNum f 3 16) res (exec (.chainSymbol (.frame f) res) s)) ∧
      (¬ fair → exec (.chainSymbol (.frame f) res) s = .next { s with dev := u })) ∧
    (∀ (port : FabPort) (fl : Flit) (res : BitVec 16), s.dev.fabAwake port.val = true → flitNum fl 0 1 = 0x3C → flitCrcOk fl = true →
      flitNum fl 1 1 = 3 →
      received (s.dev.fabFlit port.val fl) port.val (flitNum fl 8 16) res (exec (.chainSymbol (.flit port fl) res) s)) ∧
    (∀ w, x.nextSym = some w → s.dev.chnState = chnLocked → s.dev.oldCount w.count.toNat = false → leadsTo (exec .chainBeatApply s) (fun t =>
      t.dev.chainCount = w.count.toNat ∧ t.dev.chain.lastApplied = some w.count ∧ t.dev.chain.lastBeat = w.at_ ∧ t.dev.chain.waiting = x.waiting.erase w ∧
      t.dev.now = max s.dev.now w.at_.toNat ∧ t.dev.chnState = chnLocked ∧ t.flash = s.flash)) ∧
    (s.dev.chainOn = true → x.inForce = true → s.dev.fld Fld.CHN_CTL_SRC 0 = 3 → x.waiting = [] → leadsTo (exec .localMasterBeat s) (fun t =>
      t.dev.chain = { x with waiting := [⟨BitVec.ofNat 64 next, s.dev.now + s.dev.fld Fld.CHN_CFG_HORIZON 0, 0x3F⟩] } ∧
      Frame { chain := True } s.dev t.dev ∧ t.flash = s.flash)) ∧
    (s.dev.chnState = chnLocked → s.dev.fld Fld.CHN_CTL_SRC 0 ≠ 3 → (∀ w ∈ x.waiting, w.count.toNat ≠ next) → leadsTo (exec .chainWindowMiss s) (fun t =>
      t.dev.chnState = chnHoldover ∧ t.dev.chainCount = next ∧ t.dev.fld Fld.CHN_STAT_HOLD 0 = 1 ∧ counted t Ev.CHAIN_HOLDOVER ∧
      t.dev.chain = { x with lastBeat := x.lastBeat + s.dev.beatUnits } ∧ t.flash = s.flash)) ∧
    (s.dev.chnState = chnHoldover ∨ s.dev.chnState = chnLost → leadsTo (exec .holdoverBeat s) (fun t =>
      t.dev.chnState = s.dev.chnState ∧ t.dev.chainCount = next ∧ t.dev.chain = { x with lastBeat := x.lastBeat + s.dev.beatUnits } ∧
      t.dev.fld Fld.CHN_STAT_HOLD 0 = min 65536 (s.dev.fld Fld.CHN_STAT_HOLD 0 + 1) ∧ t.flash = s.flash)) ∧
    (s.dev.chnState = chnHoldover → 65536 ≤ s.dev.fld Fld.CHN_STAT_HOLD 0 → leadsTo (exec .chainLost s) (fun t =>
      t.dev.chnState = chnLost ∧ counted t Ev.CHAIN_LOST ∧ t.dev.chain = x ∧ t.flash = s.flash ∧
      ∀ p ∈ s.dev.partitions, s.dev.planState p = 3 →
        ((s.dev.part p).stepping = false → t.dev.planState p = 2 ∧ (t.dev.part p).start = none) ∧
        ((s.dev.part p).stepping = true → t.dev.planState p = 3 ∧ t.dev.part p = { s.dev.part p with stopReq := true }))) ∧
    (2 ≤ s.dev.chnState → 16 ≤ x.conflicts → leadsTo (exec .chainConflict s) (fun t =>
      t.dev.chnState = chnUnlocked ∧ counted t Ev.CHAIN_CONFLICT ∧ t.dev.chain = { inForce := x.inForce, frameAt := x.frameAt } ∧ t.dev.chainCount = s.dev.chainCount ∧
      t.flash = s.flash ∧ ∀ p ∈ s.dev.partitions, (t.dev.part p).stepping = false ∧ t.dev.planState p ≠ 3))

/-- R310, R311, R318, R326, R327, R330: a step starts at its beat with every bound core at its entry. A beat of the schedule moves the reached
offset when what is due is ready and slides otherwise; a vote at its deadline is unclean with no requests (assumption 23, DEDUCED). At the flip a clean decision
flips the copies and moves the step on by one, none aborts and leaves both as they were, and a drain that is not done holds the step; it is
done once its ports have written every stream. The flip is stated where no rolling test waits to switch back (`settled`). -/
def Obligations.StepsFromStartToFlip : Prop :=
  ∀ (s : State) (die : DieId),
    let p := die.val
    let x := s.dev.part p
    let clean (v : Vote) : Prop := s.dev.flag Fld.STEP_STAT_UNCLEAN p = false ∧ x.voteFired = true ∧ v.clean = true ∧ v.complete = true ∧
      v.split = false ∧ v.digest = s.dev.fld Fld.FMT_STAT_DIGEST p ∧ s.dev.storm p v.reqmap = false
    let settled : Prop := ∀ y ∈ s.dev.spr.swaps, y.phase = 5 → s.dev.partOf y.die ≠ p
    let commits (round : Nat) (t : State) : Prop :=
      t.dev.fld Fld.STEP_STAT_FRONT p = 1 - s.dev.fld Fld.STEP_STAT_FRONT p ∧ t.dev.step p = s.dev.step p + 1 ∧ (t.dev.part p).stepping = false ∧
      t.dev.fld Fld.STEP_STAT_HOLDN p = round % 256 ∧ t.dev.flag Fld.STEP_STAT_HELD p = false ∧
      t.dev.reg .STEP_PC_COMMIT p % 2 ^ 48 = (s.dev.reg .STEP_PC_COMMIT p + 1) % 2 ^ 48 ∧
      (∀ c, t.dev.core c = if c ∈ s.dev.boundCores p then { s.dev.core c with committed := (s.dev.core c).lanes } else s.dev.core c) ∧
      (∀ a, Memory.byte t.dev.mem a = Memory.byte s.dev.mem a) ∧ t.flash = s.flash;
    (∀ b, x.start = some b → s.dev.planState p = 3 → x.stepping = false → s.dev.chainCount = b.toNat → leadsTo (exec (.stepStart die) s) (fun t =>
      (t.dev.part p).stepping = true ∧ (t.dev.part p).voteFired = false ∧ (t.dev.part p).issuing = false ∧ t.dev.reached p = -1 ∧
      (t.dev.part p).flip = b + BitVec.ofNat 64 (((s.dev.flipEntry p).map (fun e => e.offset)).getD 0) ∧ t.dev.reg .PLAN_STEPBEAT p = b.toNat ∧
      (∀ c ∈ s.dev.boundCores p, (t.dev.core c).pc = BitVec.ofNat 64 (s.dev.fld Fld.CORE_ENTRY_ENTRY c) ∧ t.dev.fld Fld.CORE_STAT_STATE c = 1 ∧
        (t.dev.core c).committed = (s.dev.core c).lanes ∧ (t.dev.core c).arrayQ = [] ∧ (t.dev.core c).dmas = []) ∧ t.flash = s.flash)) ∧
    (let r := s.dev.reached p
      let slide := s.dev.fld Fld.PLAN_SCHED_SLIDE p
      let due := (s.dev.entries p).filter (fun e => decide ((e.offset : Int) = r + 1) && e.applies (s.dev.step p));
      x.stepping = true → x.voteFired = false → (s.dev.flipEntry p).map (fun e => e.offset) ≠ some (s.dev.beatOffset p) →
      (s.dev.voteEntry p).map (fun e => e.arg) ≠ some (s.dev.beatOffset p) → r + 1 + slide ≤ s.dev.beatOffset p →
      (∀ ue, due.all (s.dev.entryReady s.flash p) = true → leadsTo (exec (.scheduleBeat die ue) s) (fun t =>
        t.dev.reached p = r + 1 ∧ t.dev.fld Fld.PLAN_SCHED_ROFF p = twos 32 (r + 1) ∧ (r + 1 = 0 → (t.dev.part p).issuing = true) ∧ t.flash = s.flash)) ∧
      (∀ ue, due.all (s.dev.entryReady s.flash p) = false → slide < 2 ^ 31 → leadsTo (exec (.scheduleBeat die ue) s) (fun t =>
        t.dev.fld Fld.PLAN_SCHED_SLIDE p = slide + 1 ∧ t.dev.reached p = r ∧
        t.dev.reg .PLAN_PC_SLIP p % 2 ^ 48 = (s.dev.reg .PLAN_PC_SLIP p + 1) % 2 ^ 48 ∧
        (slide = 0 → t.dev.events p Ev.SCHED_SLIP = min 0xFFFFFFFF (s.dev.events p Ev.SCHED_SLIP + 1)) ∧
        Frame { reg := fun k i => i = p ∧ (k = .PLAN_SCHED ∨ k = .PLAN_PC_SLIP) } s.dev t.dev ∧ t.flash = s.flash))) ∧
    (x.stepping = true → x.voteFired = false → (s.dev.voteEntry p).map (fun e => e.arg) = some (s.dev.beatOffset p) →
      leadsTo (exec (.voteDeadline die) s) (fun t =>
        (t.dev.part p).voteFired = true ∧ t.dev.flag Fld.STEP_STAT_UNCLEAN p = true ∧ t.flash = s.flash ∧
        t.dev.events p Ev.STEP_OVERRUN = min 0xFFFFFFFF (s.dev.events p Ev.STEP_OVERRUN + 1) ∧
        ∃ v, (t.dev.part p).ownVote = some v ∧ v.clean = false ∧ v.complete = true ∧ v.reqmap = 0)) ∧
    (x.stepping = true → x.holding = false → BitVec.ofNat 64 s.dev.chainCount = x.flip → settled →
      (∀ v, x.decision = some v → clean v → v.drain = false → s.dev.step p < 0xFFFFFFFFFF → leadsTo (exec (.flipBeat die) s) (commits 0)) ∧
      (x.decision = none → s.dev.fenced p = false → leadsTo (exec (.flipBeat die) s) (fun t =>
        t.dev.fld Fld.STEP_STAT_FRONT p = s.dev.fld Fld.STEP_STAT_FRONT p ∧ t.dev.step p = s.dev.step p ∧ (t.dev.part p).stepping = false ∧
        t.dev.planState p = 2 ∧ (t.dev.part p).start = none ∧
        t.dev.events p Ev.STEP_ABORT = min 0xFFFFFFFF (s.dev.events p Ev.STEP_ABORT + 1) ∧
        t.dev.reg .STEP_PC_ABORT p % 2 ^ 48 = (s.dev.reg .STEP_PC_ABORT p + 1) % 2 ^ 48 ∧
        (x.votedClean = true → t.dev.flag Fld.STEP_STAT_UNCERT p = true) ∧
        (∀ c ∈ s.dev.boundCores p, (t.dev.core c).lanes = (s.dev.core c).committed) ∧
        (∀ a, Memory.byte t.dev.mem a = Memory.byte s.dev.mem a) ∧ t.flash = s.flash))) ∧
    (∀ v, x.stepping = true → x.holding = true → x.decision = some v → clean v → v.drain = true → settled →
      BitVec.ofNat 64 s.dev.chainCount = x.flip + BitVec.ofNat 64 ((x.round + 1) * x.holdq) →
      (∀ r, x.allDone = some r → r ≤ x.round + 1 → s.dev.step p < 0xFFFFFFFFFF → leadsTo (exec (.holdRound die) s) (commits (x.round + 1))) ∧
      (x.allDone = none → x.round + 1 < x.holdmax → leadsTo (exec (.holdRound die) s) (fun t =>
        t.dev.part p = { x with round := x.round + 1, holding := true } ∧ t.dev.flag Fld.STEP_STAT_HELD p = true ∧
        t.dev.reg .STEP_PC_HOLD p % 2 ^ 48 = (s.dev.reg .STEP_PC_HOLD p + 1) % 2 ^ 48 ∧ t.flash = s.flash ∧
        Frame { part := fun q => q = p, reg := fun k i => i = p ∧ (k = .STEP_STAT ∨ k = .STEP_PC_HOLD) } s.dev t.dev))) ∧
    (∀ d, x.drain = some d →
      let written := s.dev.bridgeStops p = false ∧ ∀ q ∈ d.ports, (s.dev.hostPort q).streamed = true;
      (written → leadsTo (exec (.drainComplete die) s) (fun t =>
        (t.dev.part p).drain = none ∧ (t.dev.part p).lastDrained = some d.image ∧ t.dev.fld Fld.CTX_DSTAT_STATE p = 2 ∧ t.flash = s.flash)) ∧
      (¬ written → exec (.drainComplete die) s = .next s))

/-- R184, R194, R206, R319, R320, R331: the writes a LOADED partition accepts: a commit table that is in order, a stream, a step
number; a reversal of a monitored layer from a later step on; a backstep of lanes that have drawn. -/
def Obligations.StepAndLaneWrites : Prop :=
  ∀ (s : State) (port : HostPort),
    let p := s.dev.partOf port.val
    let only (k : RegKind) (t : State) : Prop := Frame { reg := fun r i => r = k ∧ i = p } s.dev t.dev;
    (s.dev.servesPart port.val → s.dev.planState p = 2 →
      (∀ value : Word, let a := value.toNat % 2 ^ 52;
        leadsTo (exec (.stepCtabWrite port value) s) (fun t => t.flash = s.flash ∧ only .STEP_CTAB t ∧
          t.dev.reg .STEP_CTAB p = (if s.dev.ctabOk p a = true then a else 0) ∧
          (a ≠ 0 → s.dev.ctabOk p a = false → t.dev.events p Ev.CTX_CTAB = min 0xFFFFFFFF (s.dev.events p Ev.CTX_CTAB + 1)))) ∧
      (∀ value : Word, value.toNat % 2 ^ 16 < 0xFFFE → s.dev.flag Fld.STEP_STAT_LIMIT p = false →
        leadsTo (exec (.stepStreamWrite port value) s) (fun t => t.flash = s.flash ∧ only .STEP_STREAM t ∧
          t.dev.fld Fld.STEP_STREAM_STREAM p = value.toNat % 2 ^ 16)) ∧
      (∀ value : Word, value.toNat % 2 ^ 16 < 0xFFFE → s.dev.flag Fld.STEP_STAT_LIMIT p = true →
        value.toNat % 2 ^ 16 ≠ s.dev.fld Fld.STEP_STREAM_STREAM p → leadsTo (exec (.stepStreamWrite port value) s) (fun t => t.flash = s.flash ∧ t.dev.part p = s.dev.part p ∧
          t.dev.fld Fld.STEP_STREAM_STREAM p = value.toNat % 2 ^ 16 ∧ t.dev.step p = 0 ∧ t.dev.flag Fld.STEP_STAT_LIMIT p = false)) ∧
      (∀ value : Word, leadsTo (exec (.stepCtrWrite port value) s) (fun t => t.flash = s.flash ∧ only .STEP_CTR t ∧
        t.dev.step p = value.toNat % 2 ^ 40))) ∧
    (∀ value : Word, s.dev.servesPart port.val → 2 ≤ s.dev.planState p → value.toNat.testBit 10 = false →
      s.dev.monitored p (value.toNat % 1024) = true →
      let m := monIdx p (value.toNat % 1024)
      let step := value.toNat / 2 ^ 11 % 2 ^ 40;
      (if (s.dev.part p).stepping then s.dev.step p < step else s.dev.step p ≤ step) → leadsTo (exec (.fmtRevertWrite port value) s) (fun t =>
        t.dev.flag Fld.FMT_MON_STATE_RVPEND m = true ∧ t.dev.fld Fld.FMT_MON_RVSTEP_RVSTEP m = step ∧ t.flash = s.flash ∧
        Frame { reg := fun k i => i = m ∧ (k = .FMT_MON_STATE ∨ k = .FMT_MON_RVSTEP) } s.dev t.dev)) ∧
    (∀ (core : CoreId) (value : Word), s.dev.servesCore port.val core.toNat → (s.dev.part p).stepping = false →
      s.dev.flag Fld.RNG_STAT_BKBUSY core.toNat = false →
      let x := s.dev.core core.toNat
      let lane (l : Nat) : Lane := SMap.read {} x.lanes l;
      (∀ l, l < 32 → value.toNat.testBit l = true → (lane l).count ≠ 0 ∧ (lane l).saturated = false) →
      leadsTo (exec (.rngBackstepWrite port core value) s) (fun t =>
        t.flash = s.flash ∧ t.dev.flag Fld.RNG_STAT_BKBUSY core.toNat = true ∧ (t.dev.core core.toNat).committed = x.committed ∧
        (∀ l, l < 32 → SMap.read {} (t.dev.core core.toNat).lanes l = if value.toNat.testBit l = true then (lane l).back else lane l) ∧
        CoreKeepsRegisters { x with lanes := (t.dev.core core.toNat).lanes } (t.dev.core core.toNat) ∧
        Frame { core := fun c => c = core.toNat, reg := fun k i => k = .RNG_STAT ∧ i = core.toNat } s.dev t.dev)) ∧
    (∀ core : CoreId, leadsTo (exec (.backstepComplete core) s) (fun t => t.dev.flag Fld.RNG_STAT_BKBUSY core.toNat = false ∧ t.flash = s.flash ∧
      Frame { reg := fun k i => k = .RNG_STAT ∧ i = core.toNat } s.dev t.dev))

/-- R332, R338 to R340, R436: SAVE starts a drain of the committed state on the ports that may carry it, each taking its part of the write stream; the image is gathered and the
streams wait as soon as it starts (assumption 57, DEDUCED). RESTORE checks its image before it changes anything; a failed check leaves the partition
as it was, with its event, and a passed one clears UNCERT and loads the image's step and stream where no tile fails its own scruple or the one the
image records, and clears LIMIT (assumption 58, DEDUCED). Lane records without skew are loaded as they stand, and the restore is complete. -/
def Obligations.ContextsSavedAndRestored : Prop :=
  ∀ (s : State) (port : HostPort) (die : DieId),
    let p := s.dev.partOf port.val
    let ready : Prop := s.dev.servesPart port.val ∧ s.dev.planState p = 2 ∧ s.dev.running = true ∧ s.dev.fld Fld.CTX_DSTAT_STATE p ≠ 1
    let withUe (ue : List (BitVec 52)) : Dev := { s.dev with ue := ue.map (fun a => a.toNat) }
    let a := s.dev.fld Fld.CTX_RADDR_ADDR p;
    (∀ ue, ready → s.dev.reg .CTX_DHOST p ≠ 0 → s.dev.fld Fld.CTX_STAT_STATE p ≠ 3 → s.dev.drainPortsOf p ≠ [] → leadsTo (exec (.ctxSave port ue) s) (fun t =>
      t.dev.fld Fld.CTX_DSTAT_STATE p = 1 ∧ t.dev.fld Fld.CTX_DSTAT_STEP p = s.dev.step p ∧ t.flash = s.flash ∧
      (let d : Drain := ⟨s.dev.drainPortsOf p, s.dev.reg .CTX_DHOST p,
          (withUe ue).contextImage p (s.dev.step p) (s.dev.monSnaps p) (s.dev.fld Fld.FMT_BUDGET_USED p)⟩;
        t.dev.part p = { s.dev.part p with drain := some d } ∧
        (ue = [] → t.dev = { (((((withUe []).setFld Fld.CTX_DSTAT_STATE p 1).setFld Fld.CTX_DSTAT_STEP p (s.dev.step p)).setPart p
          { s.dev.part p with drain := some d }).sendDrain d) with ue := [] } ∧
          Frame { part := fun q => q = p, reg := fun k i => k = .CTX_DSTAT ∧ i = p } s.dev t.dev)))) ∧
    (∀ ue, ready → s.dev.fld Fld.CTX_STAT_STATE p ≠ 1 → s.dev.bridgeStops p = false →
      (∀ code, s.dev.ctxCheck p a = some code → leadsTo (exec (.ctxRestore port ue) s) (fun t =>
        t.dev.fld Fld.CTX_STAT_ERR p = code ∧ t.dev.events p code = min 0xFFFFFFFF (s.dev.events p code + 1) ∧ t.flash = s.flash ∧
        Frame { reg := fun k i => k = .CTX_STAT ∧ i = p } s.dev t.dev)) ∧
      (s.dev.ctxCheck p a = none → leadsTo (exec (.ctxRestore port ue) s) (fun t =>
        t.dev.flag Fld.STEP_STAT_UNCERT p = false ∧ t.flash = s.flash ∧
        (t.dev.fld Fld.CTX_STAT_STATE p = 1 ∨
          (t.dev.fld Fld.CTX_STAT_STATE p = 3 ∧ (t.dev.fld Fld.CTX_STAT_ERR p = Ev.TILE_CHECK ∨ t.dev.fld Fld.CTX_STAT_ERR p = Ev.TILE_POISON))))) ∧
      (s.dev.ctxCheck p a = none → s.dev.ctab p = [] → (∀ k, (withUe ue).ctxFault a k = none) →
        leadsTo (exec (.ctxRestore port ue) s) (fun t =>
          t.dev.fld Fld.CTX_STAT_STATE p = 1 ∧ (t.dev.part p).restoring = some a ∧ t.dev.step p = Memory.num s.dev.mem (a + 40) 5 ∧
          t.dev.fld Fld.STEP_STREAM_STREAM p = Memory.num s.dev.mem (a + 48) 2 ∧ t.dev.fld Fld.STEP_STAT_FRONT p = 0 ∧
          t.dev.flag Fld.STEP_STAT_LIMIT p = false ∧ t.flash = s.flash))) ∧
    (∀ pl b, let q := die.val
      let rd := s.dev.reader b
      let lo := (ctxSect rd 1).lo
      let at_ (i l : Nat) : Nat := lo + 1024 * i + 32 * l;
      (s.dev.part q).plan = some pl → (s.dev.part q).restoring = some b → (pl.cores.map (fun c => c.core)).Nodup →
      (∀ i l, i < pl.cores.length → l < 32 → rd (at_ i l + 24) 6 = 0xFFFFFFFFFFFF ∨ rd (at_ i l + 24) 6 = rd (at_ i l + 16) 6) →
      leadsTo (exec (.ctxRestoreComplete die) s) (fun t =>
        t.dev.fld Fld.CTX_STAT_STATE q = 2 ∧ t.dev.flag Fld.CTX_STAT_ALIGNED q = false ∧ (t.dev.part q).restoring = none ∧ t.flash = s.flash ∧
        (∀ i c, pl.cores[i]? = some c → (t.dev.core c.core).committed = (t.dev.core c.core).lanes ∧
          ∀ l, l < 32 → SMap.read {} (t.dev.core c.core).lanes l = ⟨BitVec.ofNat 96 (rd (at_ i l + 4) 12), BitVec.ofNat 48 (rd (at_ i l + 16) 6)⟩) ∧
        ∀ c, c ∉ pl.cores.map (fun c => c.core) → t.dev.core c = s.dev.core c))

/-! ### The fabric -/

/-- R349, R350, R352, R354 to R361, R374: on an UP port a LINK flit returns credits and releases what it acknowledges; a HEAD in sequence opens its packet and a data
flit adds its 64 bytes, the last one completing it; a flit that fails its check is a link error, counted always and answered with a NAK
unless one is held. An output port sends the next packet its credits allow, with the SEQ it has accepted last, and keeps it for replay; a
packet that waits too long is dropped with its event, counted at the die of the input it came by (assumption 36, DEDUCED); a replay resends all that
is unreleased while the port is MATCH, and a ninth demand with nothing released since the first brings the port DOWN (assumption 36, DEDUCED). -/
def Obligations.FabricFlitsAndPackets : Prop :=
  ∀ (s : State) (port : FabPort) (fl : Flit),
    let q := port.val
    let f := s.dev.fabPort q
    let l := f.link
    let up : Prop := s.dev.fld Fld.FAB_PORT_STAT_LINK q = 2
    let control (type : Nat) : Prop := flitNum fl 0 1 = 0x3C ∧ flitCrcOk fl = true ∧ flitNum fl 1 1 = type
    let link (t : State) : Link Packet := (t.dev.fabPort q).link
    let only (t : State) : Prop := Frame { fab := fun r => r = q } s.dev t.dev ∧ t.flash = s.flash
    let vc := flitNum fl 11 1 % 4
    let seq := flitNum fl 2 2 % 4096
    let b1 := flitNum fl 1 1;
    (up → control 1 → (flitNum fl 16 1).testBit 0 = false → leadsTo (exec (.fabLinkFlit port fl) s) (fun t => only t ∧
      (∀ v, v < 4 → (link t).credit v = l.credit v + flitNum fl (8 + 2 * v) 2) ∧
      (link t).replay = (if (flitNum fl 4 2).testBit 15 then (l.acked (flitNum fl 4 2 % 4096)).replay else l.replay))) ∧
    (up → flitNum fl 0 1 = 0x3C → flitCrcOk fl = false → leadsTo (exec (.fabLinkFlit port fl) s) (fun t =>
      (link t).discarding = true ∧ t.flash = s.flash ∧
      Frame { fab := fun r => r = q, reg := fun k i => k = .FAB_PORT_ERR ∧ i = q } s.dev t.dev ∧
      ((l.discarding && l.nakHeld) = true → t.dev.fab = s.dev.fab ∧ t.dev.out = s.dev.out) ∧
      ((l.discarding && l.nakHeld) = false → (link t).opened = [] ∧ (link t).whole = [] ∧ (link t).nextHead = l.expected ∧ (link t).nakHeld = true ∧
        (∃ cr, t.dev.out = s.dev.out ++ [.fabLink q cr true l.lastSeq])) ∧
      (s.dev.fld Fld.FAB_PORT_ERR_LERR q < 0xFFFF → t.dev.fld Fld.FAB_PORT_ERR_LERR q = s.dev.fld Fld.FAB_PORT_ERR_LERR q + 1))) ∧
    (up → control 2 → (flitNum fl 4 2).testBit 15 = false → l.discarding = false → SMap.read none l.opened vc = none → seq = l.nextHead →
      flitNum fl 12 1 % 128 = 64 → leadsTo (exec (.fabHeadFlit port fl) s) (fun t => only t ∧ (link t).nextHead = (seq + 1) % 4096 ∧
        SMap.read none (link t).opened vc = some ⟨seq, headPacket fl, [], false⟩ ∧
        (∀ v, v ≠ vc → SMap.read none (link t).opened v = SMap.read none l.opened v))) ∧
    (∀ o, up → flitNum fl 0 1 = 0xC3 → l.discarding = false → flitNum fl 2 1 = 255 - b1 → b1 < 8 → l.skipping = [] →
      SMap.read none l.opened (b1 % 4) = some o →
      (b1.testBit 2 = false → o.got.length + 64 ≠ tileSize → leadsTo (exec (.fabDataFlit port fl) s) (fun t => only t ∧
        SMap.read none (link t).opened (b1 % 4) = some { o with got := o.got ++ (flitBytes fl).drop 4 })) ∧
      (b1.testBit 2 = true → o.got.length + 64 = tileSize → o.seq = l.expected → l.whole = [] → leadsTo (exec (.fabDataFlit port fl) s) (fun t =>
        (link t).lastSeq = some o.seq ∧ SMap.read none (link t).opened (b1 % 4) = none ∧ (link t).whole = [] ∧ t.flash = s.flash))) ∧
    (∀ x, up → s.dev.fld Fld.FAB_PORT_STAT_PLAN q = planMatch → (l.vcOrder.filterMap (fun v => (l.nextOf v).filter (l.maySend v))).head? = some x →
      leadsTo (exec (.packetSend port) s) (fun t =>
        (s.dev.out ++ [.fabPacket q l.nextSeq l.lastSeq { x.pkt with vc := x.vc }]) <+: t.dev.out ∧ (link t).queue = l.queue.erase x ∧
        (link t).replay = l.replay ++ [⟨l.nextSeq, { x.pkt with vc := x.vc }, 0, false⟩] ∧ (link t).nextSeq = (l.nextSeq + 1) % 4096 ∧
        (link t).credit x.vc = l.credit x.vc - x.pkt.flits ∧ t.flash = s.flash)) ∧
    (∀ (v : BitVec 2) x, l.queue.find? (fun y => y.vc == v.toNat) = some x → leadsTo (exec (.fabStallDrop port v) s) (fun t =>
      (link t).queue = l.queue.erase x ∧ t.flash = s.flash ∧ (∀ a, Memory.byte t.dev.mem a = Memory.byte s.dev.mem a) ∧
      (let d := if x.input < 36 then x.input / 6 else x.input - 36;
        t.dev.events d Ev.FAB_STALL = min 0xFFFFFFFF (s.dev.events d Ev.FAB_STALL + 1)))) ∧
    (s.dev.fld Fld.FAB_PORT_STAT_PLAN q ≠ planMatch → exec (.fabReplayTimeout port) s = .next s) ∧
    (up → l.replay ≠ [] → s.dev.fld Fld.FAB_PORT_STAT_PLAN q = planMatch →
      (l.resends < 8 → leadsTo (exec (.fabReplayTimeout port) s) (fun t => (link t).resends = l.resends + 1 ∧ (link t).replay = l.replay ∧
        t.dev.out = s.dev.out ++ l.replay.map (fun x => Out.fabPacket q x.seq l.lastSeq x.pkt) ∧ t.flash = s.flash ∧
        Frame { fab := fun r => r = q, reg := fun k i => k = .FAB_PORT_ERR ∧ i = q } s.dev t.dev)) ∧
      (8 ≤ l.resends → leadsTo (exec (.fabReplayTimeout port) s) (fun t => t.dev.fld Fld.FAB_PORT_STAT_LINK q = 3 ∧ (link t).replay = [] ∧
        t.dev.events (q / 6) Ev.FAB_LINK_DOWN = min 0xFFFFFFFF (s.dev.events (q / 6) Ev.FAB_LINK_DOWN + 1) ∧ t.flash = s.flash))) ∧
    (exec (.fabNakHoldoffExpiry port) s = .next { s with dev := s.dev.setFab q { f with link := { l with nakHeld := false } } })

/-- R357, R371, R372: signal makes an enabled DARK port train, the loss of it takes an UP port DOWN and a training port back to DARK, as a
timeout does. Lane lock leads to discovery, a DISC that has seen ours to the measurement of the delay, and the 64th ECHO to UP. -/
def Obligations.FabricTraining : Prop :=
  ∀ (s : State) (port : FabPort) (fl : Flit),
    let q := port.val
    let f := s.dev.fabPort q
    let lk (t : State) : Nat := t.dev.fld Fld.FAB_PORT_STAT_LINK q
    let st (t : State) : FabPortSt := t.dev.fabPort q
    let control (type : Nat) : Prop := flitNum fl 0 1 = 0x3C ∧ flitCrcOk fl = true ∧ flitNum fl 1 1 = type ∧ (flitNum fl 4 2).testBit 15 = false
    let only (t : State) : Prop := t.flash = s.flash ∧
      Frame { fab := fun r => r = q, reg := fun k i => i = q ∧ (k = .FAB_PORT_STAT ∨ k = .FAB_PORT_PEER ∨ k = .CHN_DLY) } s.dev t.dev
    let trains (t : State) : Prop := lk t = 1 ∧ (st t).stage = 1 ∧ (st t).signal = true ∧ only t;
    (lk s = 2 → leadsTo (exec (.fabLaneSignalLoss port) s) (fun t => lk t = 3 ∧ (st t).signal = false ∧ t.flash = s.flash ∧
      t.dev.events (q / 6) Ev.FAB_LINK_DOWN = min 0xFFFFFFFF (s.dev.events (q / 6) Ev.FAB_LINK_DOWN + 1))) ∧
    (lk s = 1 → leadsTo (exec (.fabLaneSignalLoss port) s) (fun t => lk t = 0 ∧ (st t).signal = false ∧ (st t).stage = 0 ∧ t.flash = s.flash)) ∧
    (s.dev.fabPowered q = true → lk s = 0 → s.dev.flag Fld.FAB_PORT_CTL_EN q = true →
      leadsTo (exec (.fabSignalAppear port) s) trains ∧ (f.signal = true → leadsTo (exec (.fabTrainingRetry port) s) trains)) ∧
    (f.stage = 1 → leadsTo (exec (.fabLaneLockDone port) s) (fun t => st t = { f with stage := 2, gotDisc := false, gotSeen := false } ∧ only t ∧
      t.dev.out = s.dev.out ++ [.fabDisc q Config.serial.toNat (q / 6) (s.dev.fld Fld.FAB_PORT_STAT_GEN q) false f.link.lastSeq])) ∧
    (f.stage ≠ 0 → leadsTo (exec (.fabTrainingTimeout port) s) (fun t => lk t = 0 ∧ (st t).stage = 0 ∧ t.flash = s.flash)) ∧
    (lk s = 1 → control 4 → f.link.discarding = false → f.stage = 2 → (flitNum fl 18 1).testBit 0 = true →
      leadsTo (exec (.fabDiscFlit port fl) s) (fun t =>
        t.dev.reg .FAB_PORT_PEER q = flitNum fl 8 8 ∧ t.dev.fld Fld.FAB_PORT_STAT_PEERPORT q = flitNum fl 17 1 % 64 ∧
        t.dev.flag Fld.FAB_PORT_STAT_PEERVALID q = true ∧ (st t).peerDie = flitNum fl 16 1 % 8 ∧ (st t).stage = 3 ∧ lk t = 1 ∧ only t ∧
        t.dev.out = s.dev.out ++ [.fabDisc q Config.serial.toNat (q / 6) (s.dev.fld Fld.FAB_PORT_STAT_GEN q) true f.link.lastSeq,
          .fabProbe q s.dev.now f.link.lastSeq])) ∧
    (lk s = 1 ∨ lk s = 2 → control 5 → leadsTo (exec (.fabProbeFlit port fl) s) (fun t => only t ∧
      t.dev.out = s.dev.out ++ [.fabEcho q (flitNum fl 8 8) s.dev.now s.dev.now f.link.lastSeq])) ∧
    (lk s = 1 → control 6 → f.stage = 3 →
      let rt : Int := ((s.dev.now : Int) - flitNum fl 8 8) - ((flitNum fl 24 8 : Int) - flitNum fl 16 8);
      (f.trips.length < 63 → leadsTo (exec (.fabEchoFlit port fl) s) (fun t => st t = { f with trips := f.trips ++ [rt] } ∧ only t ∧
        t.dev.out = s.dev.out ++ [.fabProbe q s.dev.now f.link.lastSeq])) ∧
      (f.trips.length = 63 → leadsTo (exec (.fabEchoFlit port fl) s) (fun t => lk t = 2 ∧ t.dev.flag Fld.CHN_DLY_VALID q = true ∧
        (st t).stage = 0 ∧ (st t).link = {} ∧ only t)))

/-- R367, R373, R376, R377, R381: COMPARE gives each port of a LOADED partition the plan state that its link and the section in force make it,
RETRAIN takes DOWN ports to training, a revision in order replaces the section in force, EN starts and ends a port, and the owner sets the
slice of a partition that does not run. COMPARE and a revision's comparison are over when the command ends (assumption 60, DESIGN CHOICE). -/
def Obligations.FabricCommandsOfHost : Prop :=
  ∀ (s : State) (host : HostPort) (port : FabPort),
    let p := s.dev.partOf host.val
    let q := port.val
    let serves : Prop := s.dev.servesPart host.val
    let lk (t : State) (r : Nat) : Nat := t.dev.fld Fld.FAB_PORT_STAT_LINK r
    let trains (r : Nat) : Prop := s.dev.fabPowered r = true ∧ (s.dev.fabPort r).signal = true ∧ s.dev.flag Fld.FAB_PORT_CTL_EN r = true;
    (∀ pl, serves → s.dev.planState p = 2 → s.dev.flag Fld.FAB_STAT_BUSY p = false → (s.dev.part p).plan = some pl →
      leadsTo (exec (.fabCompare host) s) (fun t => t.flash = s.flash ∧ ∀ r ∈ s.dev.portsOf p, let e := pl.fabric.ports.getD r {};
        t.dev.fld Fld.FAB_PORT_STAT_PLAN r =
          if e.expect = false then (if lk s r = 2 then planExtra else planUnused)
          else if lk s r ≠ 2 then planMissing
          else if s.dev.reg .FAB_PORT_PEER r = e.serial ∧ s.dev.fld Fld.FAB_PORT_STAT_PEERPORT r = e.port then planMatch else planWrong)) ∧
    (serves → s.dev.planState p ≠ 3 → s.dev.flag Fld.FAB_STAT_BUSY p = false → leadsTo (exec (.fabRetrain host) s) (fun t => t.flash = s.flash ∧
      (∀ r ∈ s.dev.portsOf p, lk s r = 3 → (trains r → lk t r = 1) ∧ (¬ trains r → lk t r = 0) ∧ t.dev.flag Fld.CHN_DLY_VALID r = false) ∧
      Frame { fab := fun r => r ∈ s.dev.portsOf p ∧ lk s r = 3, reg := fun k r => (r ∈ s.dev.portsOf p ∧ lk s r = 3) ∧ (k = .FAB_PORT_STAT ∨ k = .CHN_DLY) }
        s.dev t.dev)) ∧
    (∀ (value : Word) ue pl fab,
      let a := value.toNat % 2 ^ 52
      let n := leNat (Memory.bytes s.dev.mem (a + 4) 4)
      let tiles := (640 + 8 * n + tileSize - 1) / tileSize;
      serves → s.dev.planState p = 2 → s.dev.fld Fld.CTX_STAT_STATE p ≠ 1 → s.dev.fld Fld.CTX_DSTAT_STATE p ≠ 1 → s.dev.flag Fld.FAB_STAT_BUSY p = false →
      (s.dev.part p).plan = some pl → value.toNat.testBit 52 = false → s.dev.flag Fld.PLAN_CTL_REQUIRE_SIGNED 0 = false → a % tileSize = 0 →
      n ≤ 65536 → s.dev.tilesInHbm p a tiles = true → (∀ b ∈ (Memory.bytes s.dev.mem a (tiles * tileSize)).drop (640 + 8 * n), b = 0) →
      parseFabric (Memory.bytes s.dev.mem a (640 + 8 * n)) (s.dev.diesOf p) = some fab →
      leadsTo (exec (.fabPlanAck host value ue) s) (fun t => t.flash = s.flash ∧ t.dev.flag Fld.FAB_STAT_REV p = true ∧
        (t.dev.part p).plan = some { pl with fabric := fab, fabricBytes := Memory.bytes s.dev.mem a (640 + 8 * n) })) ∧
    (s.dev.servesDie host.val (q / 6) →
      leadsTo (exec (.fabPortEnable host port) s) (fun t => t.dev.flag Fld.FAB_PORT_CTL_EN q = true ∧ t.flash = s.flash ∧
        lk t q = (if s.dev.fabPowered q = true ∧ (s.dev.fabPort q).signal = true ∧ lk s q = 0 then 1 else lk s q) ∧
        Frame { fab := fun r => r = q, reg := fun k i => i = q ∧ (k = .FAB_PORT_CTL ∨ k = .FAB_PORT_STAT) } s.dev t.dev) ∧
      leadsTo (exec (.fabPortDisable host port) s) (fun t => t.dev.flag Fld.FAB_PORT_CTL_EN q = false ∧ t.flash = s.flash ∧
        lk t q = (if lk s q = 3 then 3 else 0))) ∧
    (∀ (part : DieId) (slice : Byte), s.dev.serves host.val → s.dev.isOwner host.val = true → s.dev.partOf part.val = part.val → s.dev.planState part.val ≠ 3 →
      leadsTo (exec (.fabPartsliceWrite host part slice) s) (fun t => t.dev.fld Fld.FAB_PARTSLICE_SLICE part.val = slice.toNat ∧ t.flash = s.flash ∧
        Frame { reg := fun k i => k = .FAB_PARTSLICE ∧ i = part.val } s.dev t.dev))

/-- R394, R395, R401, R403 to R407, R409: before its flip beat a RETRACT of a member marks the records it names and poisons the partition that has
used one of them; a DEGRADE is kept by rank 0; scope tiles of a child or of the parent that pass their checks enter the vote, the decision and the
drain reports; at its deadline a VOTE goes up with what there is, and the root decides. -/
def Obligations.MessagesAndScopeTiles : Prop :=
  ∀ (s : State) (part : DieId) (src : BitVec 12),
    let p := part.val
    let x := s.dev.part p
    let g := s.dev.groups p
    let now (t : State) : Part := t.dev.part p;
    (∀ (body : BitVec 320) gi r, let a := leBytes 40 body.toNat
      let group := areaNum a 26 2
      let rank := areaNum a 28 2
      let ret := x.retracted (s.dev.flag Fld.GRP_STAT_PROVOVF p) group rank (areaNum a 40 4) (areaNum a 44 4);
      s.dev.partOf p = p → areaNum a 24 1 = 1 → areaNum a 48 4 = g.scopeId → g.find group = some (gi, r) →
      r.isMember rank src.toNat (areaNum a 25 1 % 8) = true → x.stepping = true → areaNum a 32 5 = s.dev.step p →
      s.dev.flipped p = false →
      (ret.2 = false → leadsTo (exec (.retractMessage part body src) s) (fun t => now t = ret.1 ∧ Frame { part := fun q => q = p } s.dev t.dev ∧
        t.flash = s.flash)) ∧
      (ret.2 = true → leadsTo (exec (.retractMessage part body src) s) (fun t => t.dev.flag Fld.GRP_STAT_POISON p = true ∧
        (s.dev.flag Fld.GRP_STAT_POISON p = false → t.dev.flag Fld.STEP_STAT_UNCLEAN p = true) ∧ t.flash = s.flash))) ∧
    (∀ (body : BitVec 320) gi r, let a := leBytes 40 body.toNat
      let group := areaNum a 26 2;
      s.dev.partOf p = p → areaNum a 24 1 = 2 → g.find group = some (gi, r) → r.rank = 0 →
      leadsTo (exec (.degradeMessage part body src) s) (fun t => group ∈ (now t).degReceived ∧ (∀ d ∈ x.degReceived, d ∈ (now t).degReceived) ∧
        Frame { part := fun q => q = p } s.dev t.dev ∧ t.flash = s.flash)) ∧
    (∀ (sender : BitVec 256) (scruple : Word) (tile : List Byte),
      let a := leBytes 8 scruple.toNat ++ leBytes 32 sender.toNat
      let v := Vote.ofTile tile
      let type := leNat (tile.take 1)
      let who := areaNum a 37 1 % 8
      let ok4 : Prop := s.dev.partOf p = p ∧ areaNum a 48 4 = g.scopeId ∧ tileScruple tile = scruple.toNat ∧ areaNum a 32 5 = s.dev.step p ∧ x.stepping = true
      let parent : Prop := g.root = false ∧ src.toNat = g.parentPod ∧ who = g.parentPart;
      (∀ c, ok4 → type = 1 → g.child src.toNat who = some c → (∀ y ∈ x.votes, y.1 ≠ c) → x.sentUp = false →
        leadsTo (exec (.scopeVote part src sender scruple tile) s) (fun t => (now t).votes = x.votes ++ [(c, v)] ∧ t.flash = s.flash ∧
          (x.ownVote = none → x.dones = [] → now t = { x with votes := x.votes ++ [(c, v)] }) ∧
          (x.ownVote.isSome = true → x.votes.length + 1 = g.children.length → (now t).sentUp = true))) ∧
      (ok4 → type = 2 → parent → x.decision = none → x.holding = false → leadsTo (exec (.scopeDecision part src sender scruple tile) s) (fun t =>
        (now t).decision = some v ∧ t.dev.flag Fld.GRP_STAT_DECIDED p = true ∧ t.flash = s.flash)) ∧
      (∀ c, ok4 → type = 3 → g.child src.toNat who = some c → c ∉ x.dones → leadsTo (exec (.scopeDone part src sender scruple tile) s) (fun t =>
        (x.dones ++ [c]) <+: (now t).dones ∧ t.flash = s.flash)) ∧
      (ok4 → type = 4 → parent → x.allDone = none → leadsTo (exec (.scopeAlldone part src sender scruple tile) s) (fun t =>
        (now t).allDone = some v.round ∧ t.flash = s.flash))) ∧
    (s.dev.beatOffset p ≠ g.upDeadline → exec (.updeadlineExpiry part) s = .next s) ∧
    (x.stepping = true → x.sentUp = false → s.dev.beatOffset p = g.upDeadline → leadsTo (exec (.updeadlineExpiry part) s) (fun t =>
      (now t).sentUp = true ∧ t.flash = s.flash ∧ (g.root = true → t.dev.flag Fld.GRP_STAT_DECIDED p = true ∧ (now t).decision.isSome = true ∧
        (x.voteFired = true ∨ (s.dev.voteEntry p).map (fun e => e.arg) ≠ some (s.dev.beatOffset p) → (now t).decision =
          some (if (s.dev.combine p).count = g.total then s.dev.combine p else { s.dev.combine p with complete := false })))))


/-! ### Host ports -/

/-- R355, R356, R360, R418, R419, R422, R435, R515: on an UP host port a LINK flit returns credits and accepts tiles of the write stream, and a
flit that fails its CRC is a link error, answered by a NAK unless one is held. A trained port sends IDENT and keeps what the adapter says of
itself. A replay resends all that is unreleased, a stream under way under a new HEAD, and the ninth one brings the port DOWN (assumption 36, DEDUCED).
A port that goes DOWN loses what waits, its reads, its negotiation and its HOLD bit; DOWN leads back to training and training to UP. A read without a
completion stops its queue, which clears EN (assumption 21, DESIGN CHOICE). -/
def Obligations.HostLinkRetriesAndTraining : Prop :=
  ∀ (s : State) (port : HostPort) (fl : Flit),
    let q := port.val
    let h := s.dev.hostPort q
    let l := h.link
    let lk (t : State) : Nat := t.dev.fld Fld.HLK_PSTAT_LINK q
    let now (t : State) : HostPortSt := t.dev.hostPort q
    let drained : Prop := ∀ p d, (s.dev.part p).drain = some d → q ∉ d.ports
    let down (t : State) : Prop := lk t = 3 ∧ (now t).link = {} ∧ (now t).reads = [] ∧ (now t).spdm = 0 ∧
      (t.dev.fld Fld.HLK_OWNSTAT_HOLD 0).testBit q = false ∧
      t.dev.events q Ev.HLK_LINK_DOWN = min 0xFFFFFFFF (s.dev.events q Ev.HLK_LINK_DOWN + 1) ∧
      (∀ a, Memory.byte t.dev.mem a = Memory.byte s.dev.mem a) ∧ t.flash = s.flash;
    (lk s = 2 → flitNum fl 0 1 = 0x3C → flitCrcOk fl = true → flitNum fl 1 1 = 1 → (flitNum fl 4 2).testBit 15 = false →
      (flitNum fl 16 1).testBit 0 = false → l.queue = [] → leadsTo (exec (.hlkLinkFlit port fl) s) (fun t =>
        (∀ v, v < 4 → (now t).credit v = h.credit v + flitNum fl (8 + 2 * v) 2) ∧
        (now t).link.replay = (l.tilesAccepted (flitNum fl 18 4)).replay ∧ t.dev.out = s.dev.out ∧ Frame {} s.dev t.dev ∧ t.flash = s.flash)) ∧
    (lk s = 2 → flitNum fl 0 1 = 0x3C → flitCrcOk fl = false → leadsTo (exec (.hlkLinkFlit port fl) s) (fun t =>
      (now t).link.discarding = true ∧ ((l.discarding && l.nakHeld) = true → now t = h ∧ t.dev.out = s.dev.out) ∧
      ((l.discarding && l.nakHeld) = false → (now t).opened = [] ∧ (now t).whole = [] ∧ (now t).link.nextHead = l.expected ∧
        (∃ cr, t.dev.out = s.dev.out ++ [.hostLink q cr true l.lastSeq])) ∧
      t.dev.fld Fld.HLK_PERR_LERR q = min 0xFFFF (s.dev.fld Fld.HLK_PERR_LERR q + 1) ∧
      Frame { reg := fun k i => k = .HLK_PERR ∧ i = q } s.dev t.dev ∧ t.flash = s.flash)) ∧
    (∀ (serial : Word) (sender : BitVec 3), lk s = 1 ∨ lk s = 2 → leadsTo (exec (.hlkIdentFlit port serial sender) s) (fun t =>
      now t = { h with adapter := some (serial.toNat, sender.toNat) } ∧ t.dev.out = s.dev.out ∧ Frame {} s.dev t.dev ∧ t.flash = s.flash)) ∧
    (lk s = 2 → leadsTo (exec (.hlkIdentTimer port) s) (fun t => t.dev.out = s.dev.out ++ [.hostIdent q Config.serial.toNat l.lastSeq] ∧ now t = h ∧
      Frame {} s.dev t.dev ∧ t.flash = s.flash)) ∧
    (exec (.hlkNakHoldoffExpiry port) s = .next { s with dev := s.dev.setHost q { h with link := { l with nakHeld := false } } }) ∧
    (lk s = 2 → l.replay ≠ [] →
      (l.resends < 8 → leadsTo (exec (.hlkReplayTimeout port) s) (fun t => (now t).link = l.renewed ∧
        t.dev.out = s.dev.out ++ l.renewed.replay.flatMap (fun x => x.outs q l.lastSeq) ∧ Frame { reg := fun k i => k = .HLK_PERR ∧ i = q } s.dev t.dev ∧
        t.flash = s.flash)) ∧
      (8 ≤ l.resends → drained → leadsTo (exec (.hlkReplayTimeout port) s) down)) ∧
    (lk s = 2 → drained → leadsTo (exec (.hlkLaneSignalLoss port) s) down) ∧
    (lk s = 3 → s.dev.hostPowered q = true → leadsTo (exec (.hlkRetrainTimer port) s) (fun t => lk t = 1 ∧ now t = h ∧ t.dev.out = s.dev.out ∧
      Frame { reg := fun k i => k = .HLK_PSTAT ∧ i = q } s.dev t.dev ∧ t.flash = s.flash)) ∧
    (lk s = 1 → s.dev.hostPowered q = true → leadsTo (exec (.hlkLinkUp port) s) (fun t => lk t = 2 ∧ (now t).opened = [] ∧ (now t).whole = [] ∧
      (s.dev.out ++ [.hostIdent q Config.serial.toNat none]) <+: t.dev.out ∧ Frame { reg := fun k i => k = .HLK_PSTAT ∧ i = q } s.dev t.dev ∧
      t.flash = s.flash)) ∧
    (∀ (tag : BitVec 12) r, h.reads.find? (fun r => r.tag == tag.toNat) = some r → let i := qIdx r.part r.queue;
      leadsTo (exec (.hlkReadTimeout port tag) s) (fun t =>
        t.dev.events q Ev.HLK_TIMEOUT = min 0xFFFFFFFF (s.dev.events q Ev.HLK_TIMEOUT + 1) ∧
        (∀ e ∈ (t.dev.queue r.part r.queue).started, e.ended.isSome = true) ∧
        (∀ x < 6, ∀ y ∈ (t.dev.hostPort x).reads, ¬ (y.part = r.part ∧ y.queue = r.queue)) ∧ t.flash = s.flash ∧
        (s.dev.flag Fld.HLK_Q_CFG_EN i = true → t.dev.flag Fld.HLK_Q_CFG_EN i = false ∧ t.dev.flag Fld.HLK_Q_STAT_STOP i = true ∧
          t.dev.fld Fld.HLK_Q_STAT_ERR i = Ev.HLK_TIMEOUT) ∧
        Frame { part := fun p => p = r.part, reg := fun k j => j = i ∧ (k = .HLK_Q_CFG ∨ k = .HLK_Q_STAT) } s.dev t.dev))

/-- R423 to R426, R429, R440, R445: in READY a read of the window is answered with the bytes there, and a whole payload tile with its scruple; a write
of a whole tile stores the scruple it carries, one of part of a tile leaves the recomputed scruple (R426), or the poison where the tile had it (R445;
assumption 42, DESIGN CHOICE); a completion of a TX4 read in RUN or IDLE gives a queue its next entry or a copy its next tile; a write of a served register writes that register. -/
def Obligations.HostRequestsCarriedOut : Prop :=
  ∀ (s : State) (port : HostPort),
    let q := port.val
    let p := s.dev.partOf q
    let h := s.dev.hostPort q
    let ready : Prop := s.dev.serves q ∧ h.whole = [] ∧ h.link.expected = h.link.nextHead
    let counts (k : RegKind) (i : Nat) : Prop := k = .HLK_PC_RX ∧ i = q;
    (∀ (tag : BitVec 12) (addr : Word) (len : BitVec 32), let a := addr.toNat % 2 ^ 52
      let n := len.toNat
      let whole : Prop := n = tileSize ∧ s.dev.payloadTile p a = true
      let answer (t : State) (x : HPkt) : Prop := (s.dev.out ++ [.host q h.link.nextSeq (some h.link.nextHead) { x with op := 4, tag := tag.toNat, len := n }]) <+: t.dev.out ∧
        Frame { reg := counts } s.dev t.dev ∧ t.flash = s.flash;
      ready → reqMalformed a n = false → h.link.queue = [] → h.link.replay = [] → 65 ≤ h.credit 3 →
      (isCtl a = false → s.dev.memServed q a n = true → leadsTo (exec (.hlkMrd port tag addr len false) s) (fun t =>
        (whole → answer t { op := 4, sv := true, scruple := Memory.scruple s.dev.mem a, data := Memory.bytes s.dev.mem a n }) ∧
        (¬ whole → answer t { op := 4, data := Memory.bytes s.dev.mem a n }))) ∧
      (∀ k d off j, isCtl a = true → ctlPlace a = .die d off → regAt .die off = some (k, j) → k ∈ bootRegs → s.dev.partOf d = p → s.dev.reaches q d = true →
        leadsTo (exec (.hlkMrd port tag addr len false) s) (fun t => answer t { op := 4, data := leBytes 8 (s.dev.stored k (dieIdx k d j)) }))) ∧
    (∀ (addr : Word) (len : BitVec 32) (sv : Bool) (scruple : Word) (data : List Byte), let a := addr.toNat % 2 ^ 52
      let n := len.toNat
      let tile := a / tileSize * tileSize
      let stored (b : Nat) : Prop := (a ≤ b ∧ b < a + n) ∨ ∃ sa, scrupleAddr tile = some sa ∧ sa ≤ b ∧ b < sa + 8;
      ready → reqMalformed a n = false → isCtl a = false → s.dev.memServed q a n = true → s.dev.payloadTile p tile = true → data.length = n →
      leadsTo (exec (.hlkMwr port addr len sv scruple data) s) (fun t => Memory.bytes t.dev.mem a n = data ∧
        Memory.scruple t.dev.mem tile = (if n = tileSize ∧ sv = true then scruple.toNat
          else if n < tileSize ∧ Memory.scruple s.dev.mem tile = poisonScruple then poisonScruple else tileScruple (t.dev.tile tile)) ∧
        t.flash = s.flash ∧
        Frame { reg := counts, core := fun c => a / strideSize * strideSize = strideAddr c 0, byte := stored
                spr := coreBase ≤ a ∧ s.dev.spr.swaps ≠ [] } s.dev t.dev)) ∧
    (∀ (tag : BitVec 12) (sv : Bool) (scruple : Word) (data : List Byte) r, ready → s.dev.power ≤ 1 → h.reads.find? (fun r => r.tag == tag.toNat) = some r →
      let y := s.dev.queue r.part r.queue
      let i := qIdx r.part r.queue;
      (r.tile = none → leadsTo (exec (.hlkCpl port tag 0 sv scruple data) s) (fun t => t.flash = s.flash ∧
        (t.dev.queue r.part r.queue).fetched = y.fetched ++ [parseEntry r.entry ((data ++ zeros 64).take 64)] ∧
        (t.dev.queue r.part r.queue).started = y.started ∧ t.dev.fld Fld.HLK_Q_STAT_HEAD i = (r.entry + 1) % s.dev.qSize r.part r.queue ∧
        Frame { reg := fun k j => counts k j ∨ (k = .HLK_Q_STAT ∧ j = i), part := fun x => x = r.part } s.dev t.dev)) ∧
      (∀ m e, r.tile = some m → y.started.find? (fun e => e.idx == r.entry && e.moved == m && e.ended.isNone) = some e →
        let a := e.daddr + m * tileSize
        let e' : QEntry := if m + 1 < e.tiles then { e with moved := m + 1 } else { e with moved := m + 1, ended := some (0, 0) };
        s.dev.payloadTile r.part a = true → s.dev.reaches q (addrDie a) = true → data.length = tileSize → leadsTo (exec (.hlkCpl port tag 0 sv scruple data) s) (fun t =>
          Memory.bytes t.dev.mem a tileSize = data ∧ Memory.scruple t.dev.mem a = (if sv then scruple.toNat else tileScruple data) ∧
          (t.dev.queue r.part r.queue).started = (y.putEntry e').started ∧ t.flash = s.flash ∧
          (sv = false →
            t.dev.events q Ev.HLK_MALFORMED = min 0xFFFFFFFF (s.dev.events q Ev.HLK_MALFORMED + 1))))) ∧
    (∀ (addr : BitVec 52) (value : Word), let a := addr.toNat
      s.dev.serves q → a % 8 = 0 → isCtl a = true → s.dev.ctlServed q (ctlPlace a) = true →
      exec (.registerWrite port addr value) s = okFlash s (s.dev.ctlWrite s.flash (some q) (ctlPlace a) value.toNat)) ∧
    (∀ (value : Word), s.dev.serves q → s.dev.reaches q p = true →
      leadsTo (exec (.registerWrite port (BitVec.ofNat 52 (ctlBase + p * ctlSize + 0x380100)) value) s) (fun t =>
        t.dev.fld Fld.HLK_IMASK_CLASS p = value.toNat % 2 ^ 16 ∧ Frame { reg := fun k i => k = .HLK_IMASK ∧ i = p } s.dev t.dev ∧ t.flash = s.flash))

/-- R427 to R430, R440: a doorbell within the ring moves the tail and asks for the next entry, one outside it stops the queue, which clears EN (assumption 21, DESIGN CHOICE); EN starts a queue
from nothing and ends its fetching; a fetched entry starts, or ends with its status where it is malformed, outside the window or no payload; an entry that has
ended, a COPY_OUT and a fence leave the queue with a completion record, whose phase turns at the ring's end, and an interrupt of the PRIMARY port where the entry asks for one. -/
def Obligations.CopyQueuesAndEntries : Prop :=
  ∀ (s : State) (port : HostPort) (part : DieId) (queue : BitVec 4),
    let q := port.val
    let n := queue.toNat
    let en (x : Dev) (p : Nat) : Bool := x.flag Fld.HLK_Q_CFG_EN (qIdx p n)
    let only (p : Nat) (t : State) : Prop := t.flash = s.flash ∧
      Frame { part := fun x => x = p, reg := fun k j => j = qIdx p n ∧ (k = .HLK_Q_CFG ∨ k = .HLK_Q_STAT) } s.dev t.dev
    let asks (t : State) (p entry : Nat) (tile : Option Nat) : Prop := ∃ r ∈ (t.dev.hostPort (s.dev.qPort p n)).reads,
      r.part = p ∧ r.queue = n ∧ r.entry = entry ∧ r.tile = tile
    let sends (t : State) (to' : Nat) (x : HPkt) : Prop := (∃ seq ack, .host to' seq ack x ∈ t.dev.out.drop s.dev.out.length) ∨
      ⟨x.vc, to', x, 0, false⟩ ∈ (t.dev.hostPort to').link.queue;
    (let p := s.dev.partOf q
     let y := s.dev.queue p n
     let m := s.dev.qSize p n
     let hd := s.dev.qHead p n;
     (∀ (value : Word), let d := value.toNat % 2 ^ 16
       s.dev.servesPart q → en s.dev p = true → d ≠ y.tail →
       (d < m → (y.tail + m - hd) % m ≤ (d + m - hd) % m → leadsTo (exec (.hlkDoorbell port queue value) s) (fun t =>
         t.dev.queue p n = { y with tail := d } ∧ only p t ∧ (s.dev.portServes p (s.dev.qPort p n) = true →
           s.dev.fld Fld.HLK_PSTAT_LINK (s.dev.qPort p n) = 2 → s.dev.queuesRun = true → hd ≠ d → asks t p hd none ∨
           ∃ r ∈ (s.dev.hostPort (s.dev.qPort p n)).reads, r.part = p ∧ r.queue = n ∧ r.tile = none))) ∧
       (m ≤ d ∨ (d + m - hd) % m < (y.tail + m - hd) % m → leadsTo (exec (.hlkDoorbell port queue value) s) (fun t =>
         en t.dev p = false ∧ t.dev.flag Fld.HLK_Q_STAT_STOP (qIdx p n) = true ∧ t.dev.fld Fld.HLK_Q_STAT_ERR (qIdx p n) = Ev.HLK_QUEUE ∧
         t.dev.queue p n = y ∧ only p t ∧
         t.dev.events (s.dev.qPort p n) Ev.HLK_QUEUE = min 0xFFFFFFFF (s.dev.events (s.dev.qPort p n) Ev.HLK_QUEUE + 1)))) ∧
     (∀ (value : Word), let log := bits value.toNat 4 1
       let pt := bits value.toNat 7 5
       let set (t : State) : Prop := t.dev.fld Fld.HLK_Q_CFG_LOG2 (qIdx p n) = (if 4 ≤ log then log else s.dev.fld Fld.HLK_Q_CFG_LOG2 (qIdx p n)) ∧
         t.dev.qPort p n = (if s.dev.portServes p pt = true then pt else s.dev.qPort p n) ∧ only p t;
       (s.dev.servesPart q → en s.dev p = false → s.dev.flag Fld.HLK_Q_STAT_BUSY (qIdx p n) = false →
         leadsTo (exec (.queueEnable port queue value) s) (fun t => en t.dev p = true ∧ t.dev.reg .HLK_Q_STAT (qIdx p n) = 0 ∧
           t.dev.queue p n = {} ∧ set t)) ∧
       (s.dev.servesPart q → en s.dev p = true → leadsTo (exec (.queueDisable port queue value) s) (fun t => en t.dev p = false ∧
         t.dev.queue p n = y ∧ t.dev.flag Fld.HLK_Q_STAT_BUSY (qIdx p n) = !(y.started.isEmpty && y.fetched.isEmpty) ∧
         (∀ x < 6, ∀ r ∈ (t.dev.hostPort x).reads, ¬ (r.part = p ∧ r.queue = n ∧ r.tile = none)) ∧ set t)))) ∧
    (let p := part.val
     let y := s.dev.queue p n
     let pt := s.dev.qPort p n
     let i := qIdx p n
     let now (t : State) : Queue := t.dev.queue p n;
     (∀ e es, y.fetched = e :: es → en s.dev p = true → y.started.length < 4 → s.dev.queuesRun = true →
       (e.order = true → ∀ x ∈ y.started, x.ended.isSome = true) →
       (e.bad = true → leadsTo (exec (.queueEntryStart part queue) s) (fun t => only p t ∧
         now t = { y with fetched := es, started := y.started ++ [{ e with ended := some (2, Ev.HLK_MALFORMED) }] } ∧
         t.dev.events pt Ev.HLK_MALFORMED = min 0xFFFFFFFF (s.dev.events pt Ev.HLK_MALFORMED + 1))) ∧
       (e.bad = false → (∃ a ∈ e.tileAddrs, s.dev.entryMapped p pt a = false) → leadsTo (exec (.queueEntryStart part queue) s) (fun t => only p t ∧
         now t = { y with fetched := es, started := y.started ++ [{ e with ended := some (1, Ev.HLK_UNMAPPED) }] } ∧
         t.dev.events pt Ev.HLK_UNMAPPED = min 0xFFFFFFFF (s.dev.events pt Ev.HLK_UNMAPPED + 1))) ∧
       (e.bad = false → (∀ a ∈ e.tileAddrs, s.dev.entryMapped p pt a = true) → (∃ a ∈ e.tileAddrs, s.dev.payloadTile p a = false) →
         leadsTo (exec (.queueEntryStart part queue) s) (fun t => only p t ∧
           now t = { y with fetched := es, started := y.started ++ [{ e with ended := some (2, Ev.HLK_MALFORMED) }] })) ∧
       (e.bad = false → (∀ a ∈ e.tileAddrs, s.dev.entryMapped p pt a = true ∧ s.dev.payloadTile p a = true) → leadsTo (exec (.queueEntryStart part queue) s) (fun t => only p t ∧
         now t = { y with fetched := es, started := y.started ++ [e] } ∧ (e.op = 1 → asks t p e.idx (some e.moved))))) ∧
     (∀ e es (ue : List (BitVec 52)), y.started = e :: es → s.dev.power ≤ pwrIdle → s.dev.fld Fld.HLK_PSTAT_LINK pt = 2 →
       let record16 (status event : Nat) : List Byte :=
         leBytes 8 e.user ++ leBytes 2 e.idx ++ leBytes 1 n ++ leBytes 1 (b2n y.phase + 2 * status) ++ leBytes 2 event ++ leBytes 2 0
       let leaves (t : State) (status event : Nat) : Prop := only p t ∧
         now t = { y with started := es, phase := if e.idx + 1 = s.dev.qSize p n then !y.phase else y.phase } ∧
         sends t pt { op := 2, len := 16, addr := s.dev.reg .HLK_Q_CBASE i / 4096 * 4096 + 16 * e.idx, data := record16 status event } ∧
         (∀ pr, e.irq = true → s.dev.primary p = some pr → s.dev.fld Fld.HLK_PSTAT_LINK pr = 2 → sends t pr { op := 5, vector := n });
       (∀ status event, e.ended = some (status, event) → leadsTo (exec (.queueEntryComplete part queue ue) s) (fun t => leaves t status event)) ∧
       (e.ended = none → e.op = 3 → leadsTo (exec (.queueEntryComplete part queue ue) s) (fun t => leaves t 0 0)) ∧
       (e.ended = none → e.op = 2 → (∀ a ∈ e.tileAddrs, s.dev.reaches pt (addrDie a) = true) →
         leadsTo (exec (.queueEntryComplete part queue []) s) (fun t => leaves t 0 0 ∧
         ∀ k < e.tiles, let a := e.daddr + k * tileSize
           let x : HPkt := { op := 2, len := tileSize, addr := e.haddr + k * tileSize, sv := true, data := s.dev.tile a, scruple := Memory.scruple s.dev.mem a };
           sends t pt x))))

/-- R433, R434, R441, R560: a claim waits for its decision, which changes the nonce whatever it is; with no owner key, or with the KEYID of one, its
Ed448 signature of the serial number, nonce and port, and zero last bytes, the port gains its HOLD bit, else EV_HLK_CLAIM_BAD counts; RELEASE gives the bit back.
The claim registers are read at the decision (assumption 41, DESIGN CHOICE). -/
def Obligations.OwnerCredentialClaims : Prop :=
  ∀ (s : State) (port : HostPort),
    let q := port.val
    let hold (t : State) (p : Nat) : Bool := (t.dev.fld Fld.HLK_OWNSTAT_HOLD 0).testBit p
    let asks : Prop := s.dev.fld Fld.HLK_PSTAT_LINK q = 2 ∧ s.dev.fld Fld.HLK_PSTAT_ROLE q ≠ 0 ∧
      (s.dev.fld Fld.CTL_BOOT_STAGE 0 = 6 ∨ s.dev.fld Fld.CTL_BOOT_STAGE 0 = 7) ∧ s.dev.flag Fld.HLK_OWNSTAT_CLBUSY 0 = false
    let others (t : State) : Prop := ∀ p, p < 6 → p ≠ q → hold t p = hold s p;
    (asks → leadsTo (exec (.ownerClaim port) s) (fun t => t.dev.sec = { s.dev.sec with claim := some q } ∧
      t.dev.flag Fld.HLK_OWNSTAT_CLBUSY 0 = true ∧ (∀ p, p < 6 → hold t p = hold s p) ∧ t.flash = s.flash ∧
      Frame { sec := True, reg := fun k i => k = .HLK_OWNSTAT ∧ i = 0 } s.dev t.dev)) ∧
    (asks → leadsTo (exec (.ownerRelease port) s) (fun t => hold t q = false ∧ others t ∧ t.flash = s.flash ∧
      Frame { reg := fun k i => k = .HLK_OWNSTAT ∧ i = 0 } s.dev t.dev ∧
      (s.dev.isOwner q = true → t.dev.eventsDev Ev.HLK_OWNER = min 0xFFFFFFFF (s.dev.eventsDev Ev.HLK_OWNER + 1)))) ∧
    (s.dev.sec.claim = some q →
      let claim := (List.range 16).flatMap (fun j => leBytes 8 (s.dev.reg .HLK_CLAIM (16 * q + j)))
      let msg := leBytes 8 Config.serial.toNat ++ leBytes 8 (s.dev.reg .HLK_OWNNONCE 0) ++ leBytes 1 q
      let named : Prop := (∀ b ∈ claim.drop 122, b = 0) ∧ ∃ k ∈ s.flash.keys 1, keyId k = leNat (claim.take 8) ∧
        Ed448.verify k "FENRAM-TX4-OWNR" msg ((claim.drop 8).take 114) = true
      let decided (t : State) : Prop := t.dev.sec = { s.dev.sec with claim := none } ∧ t.dev.flag Fld.HLK_OWNSTAT_CLBUSY 0 = false ∧
        t.dev.reg .HLK_OWNNONCE 0 = (Config.nonce s.dev.fresh).toNat ∧ t.flash = s.flash ∧ others t ∧
        Frame { sec := True, reg := fun k i => (k = .HLK_OWNSTAT ∨ k = .HLK_OWNNONCE) ∧ i = 0 } s.dev t.dev;
      (s.flash.keys 1 = [] ∨ named → s.dev.fld Fld.HLK_PSTAT_LINK q = 2 → s.dev.fld Fld.HLK_PSTAT_ROLE q ≠ 0 →
        leadsTo (exec .ownerClaimDecide s) (fun t => decided t ∧ hold t q = true ∧
          t.dev.owner = some (match s.dev.owner with
            | some p => min p q
            | none => q))) ∧
      (s.flash.keys 1 ≠ [] → ¬ named → leadsTo (exec .ownerClaimDecide s) (fun t => decided t ∧ hold t q = hold s q ∧
        t.dev.events q Ev.HLK_CLAIM_BAD = min 0xFFFFFFFF (s.dev.events q Ev.HLK_CLAIM_BAD + 1))))

/-- R34, R325, R417, R437, R441: the owner's HLK_PARTCMD gives every port its role and partition and takes HOLD from OFF ports; a new layout scrubs the
dies whose sets change, and no other byte, ends their UNCERT, and leaves the queues and masks as after reset. A value that names no layout, or one that comes while a
command runs or the dies are not free, is refused. What it changes changes when it is written, with BUSY standing until the command completes, and one
written while BUSY is refused (assumption 41, DESIGN CHOICE). -/
def Obligations.PartitionCommandsOfOwner : Prop :=
  ∀ (s : State) (port : HostPort) (value : Word),
    let v := value.toNat
    let n := v % 16
    let owns : Prop := s.dev.serves port.val ∧ s.dev.isOwner port.val = true
    let role (d : Nat) : Nat := v / 2 ^ (2 * d + 4) % 4
    let lowest (parts d : Nat) : Nat := match parts with
      | 2 => if d < 3 then 0 else 3
      | 3 => d % 3
      | 6 => d
      | _ => 0
    let good : Prop := (n = 1 ∨ n = 2 ∨ n = 3 ∨ n = 6) ∧ (∀ d < 6, role d ≠ 3) ∧
      ∀ d < 6, ∃ e, e < 6 ∧ lowest n e = lowest n d ∧ role e = 1 ∧ ∀ f < 6, lowest n f = lowest n d → role f = 1 → f = e
    let busy (t : State) : Bool := t.dev.flag Fld.HLK_PARTCFG_BUSY 0
    let changed (d : Nat) : Prop := s.dev.fenced d = false ∧ ∃ e < 6, ¬ (lowest n e = lowest n d ↔ s.dev.partOf e = s.dev.partOf d)
    let dieByte (d a : Nat) : Prop := (4 * d * stackSize ≤ a ∧ a < (4 * d + 4) * stackSize) ∨ (strideAddr (8192 * d) 0 ≤ a ∧ a < strideAddr (8192 * d + 8192) 0)
    let given (t : State) : Prop := busy t = true ∧ t.flash = s.flash ∧ t.dev.nparts = n ∧
      (∀ d < 6, t.dev.fld Fld.HLK_PSTAT_ROLE d = role d ∧ t.dev.fld Fld.HLK_PSTAT_PART d = lowest n d ∧
        (t.dev.fld Fld.HLK_OWNSTAT_HOLD 0).testBit d = ((s.dev.fld Fld.HLK_OWNSTAT_HOLD 0).testBit d && decide (role d ≠ 0)))
    let refused (c : Instr) : Prop := leadsTo (exec c s) (fun t => Frame {} s.dev t.dev ∧ t.flash = s.flash ∧
      t.dev.eventsDev Ev.HLK_REFUSED = min 0xFFFFFFFF (s.dev.eventsDev Ev.HLK_REFUSED + 1));
    (owns → good → busy s = false → n ≠ s.dev.nparts → s.dev.layoutFree = true →
      leadsTo (exec (.partitionLayoutChange port value) s) (fun t => given t ∧
        (∀ d < 6, changed d → ∀ a, dieByte d a → Memory.byte t.dev.mem a = 0) ∧
        (∀ a, (∀ d < 6, changed d → ¬ dieByte d a) → Memory.byte t.dev.mem a = Memory.byte s.dev.mem a) ∧
        (∀ d < 6, t.dev.reg .HLK_IMASK d = regReset .HLK_IMASK d ∧ t.dev.reg .FAB_PARTSLICE d = regReset .FAB_PARTSLICE d ∧
          ((∃ e < 6, ¬ (lowest n e = lowest n d ↔ s.dev.partOf e = s.dev.partOf d)) → t.dev.flag Fld.STEP_STAT_UNCERT d = false) ∧
          (∀ m < 16, t.dev.reg .HLK_Q_CFG (qIdx d m) = regReset .HLK_Q_CFG (qIdx d m) ∧ t.dev.queue d m = {})))) ∧
    (owns → good → busy s = false → n = s.dev.nparts → s.dev.rolesFree v = true →
      leadsTo (exec (.partitionRoleChange port value) s) (fun t => given t ∧
        Frame { reg := fun k _ => k = .HLK_PSTAT ∨ k = .HLK_PARTCFG ∨ k = .HLK_OWNSTAT } s.dev t.dev)) ∧
    (owns → ¬ good ∨ busy s = true ∨ (n ≠ s.dev.nparts ∧ s.dev.layoutFree = false) ∨ (n = s.dev.nparts ∧ s.dev.rolesFree v = false) →
      refused (.partitionLayoutChange port value) ∧ refused (.partitionRoleChange port value)) ∧
    leadsTo (exec .partitionCommandComplete s) (fun t => busy t = false ∧ t.flash = s.flash ∧
      Frame { reg := fun k i => k = .HLK_PARTCFG ∧ i = 0 } s.dev t.dev)

/-! ### Checks, tests and flash -/

/-- R461 to R463, R477: a capture is replayed on the failing slot and on the capture slot, whose defects invert bits of some cells, and classed
by whether the replays agree and pass; LAST says so, the class is counted, a PERMANENT slot's retirement is requested, and the last capture
ends the diagnosis. CHK_LOGACK frees the oldest records of a die's log. -/
def Obligations.DiagnosisAndLogAcknowledge : Prop :=
  ∀ (s : State),
    (∀ (part : DieId) (index : Nat) (failing taken : List (BitVec 12 × BitVec 32)) cap, let p := part.val
      let d := coreDie cap.core
      let tail := s.dev.replayTail cap
      let upset (us : List (BitVec 12 × BitVec 32)) : SMap Nat := upsetValues tail.1 (us.map (fun u => (u.1.toNat, u.2.toNat)))
      let same := decide (upset failing = upset taken)
      let failPass := s.dev.replayPasses cap tail.2 (upset failing)
      let capPass := s.dev.replayPasses cap tail.2 (upset taken)
      let cls := if cap.capSlot = none ∨ cap.spans = [] then 4 else if same then (if capPass then 1 else 3) else if capPass || failPass then 2 else 4
      let slot := if capPass then cap.slot else cap.capSlot.getD 0
      let left := (s.dev.part p).captures.eraseIdx index;
      s.dev.settled → s.dev.flag Fld.CHK_STAT_DIAG p = true → (s.dev.part p).captures[index]? = some cap →
      (cls = 2 → s.dev.flag Fld.SPR_POLICY_AUTO 0 = false ∧ s.dev.spr.requests.length < 64) →
      leadsTo (exec (.diagnosis part index failing taken) s) (fun t => t.dev.part p = { s.dev.part p with captures := left } ∧ t.flash = s.flash ∧
        t.dev.fld Fld.CHK_STAT_LAST p = cls ∧ t.dev.flag Fld.CHK_STAT_DIAG p = !left.isEmpty ∧
        t.dev.events d (0x1002 + cls) = min 0xFFFFFFFF (s.dev.events d (0x1002 + cls) + 1) ∧
        (∀ a, Memory.byte t.dev.mem a = Memory.byte s.dev.mem a) ∧
        (s.dev.fld Fld.CHK_LOGSTAT_COUNT d < 32 → t.dev.fld Fld.CHK_LOGSTAT_COUNT d = s.dev.fld Fld.CHK_LOGSTAT_COUNT d + 1) ∧
        (cls ≠ 2 → t.dev.spr = s.dev.spr) ∧
        (cls = 2 → s.dev.retired slot = false → (∀ r ∈ s.dev.spr.requests, r.1 ≠ slot) → t.dev.spr = { s.dev.spr with requests := s.dev.spr.requests ++ [(slot, 1)] }))) ∧
    (∀ (port : HostPort) (die : DieId) (value : Word), let d := die.val
      let count := s.dev.fld Fld.CHK_LOGSTAT_COUNT d
      let k := min (value.toNat % 64) count;
      s.dev.serves port.val →
      (s.dev.servesDie port.val d → leadsTo (exec (.chkLogack port die value) s) (fun t =>
        t.dev.fld Fld.CHK_LOGSTAT_HEAD d = (s.dev.fld Fld.CHK_LOGSTAT_HEAD d + k) % 32 ∧ t.dev.fld Fld.CHK_LOGSTAT_COUNT d = count - k ∧
        Frame { reg := fun r i => r = .CHK_LOGSTAT ∧ i = d } s.dev t.dev ∧ t.flash = s.flash)) ∧
      (s.dev.partOf d ≠ s.dev.partOf port.val ∨ s.dev.reaches port.val d = false → leadsTo (exec (.chkLogack port die value) s) (fun t => Frame {} s.dev t.dev ∧ t.flash = s.flash ∧
        t.dev.events port.val Ev.HLK_UNMAPPED = min 0xFFFFFFFF (s.dev.events port.val Ev.HLK_UNMAPPED + 1))))

/-- R448, R469, R482, R556, R559, R562: a bushel of the right form that is signed and no older than its kind, writes that wait for flash included
(assumption 84, DESIGN CHOICE), waits for flash, another raises its event. A flash write that completes leaves the firmware, the key table in both
copies, with EV_SEC_KEYS then (assumption 67, DESIGN CHOICE), the bushel in its slot and no valid one with its ID elsewhere, or a retirement in both
copies of its list, which the remap then follows. -/
def Obligations.BushelsAndFlashWrites : Prop :=
  ∀ (s : State),
    (∀ (port : HostPort) (value : Word) (ue : List (BitVec 52)), let a := value.toNat % 2 ^ 52
      let slot := value.toNat / 2 ^ 52 % 8
      let p := s.dev.partOf port.val
      let same (t : State) (code : Nat) : Prop := Frame (Touches.withLog {} ue) s.dev t.dev ∧ t.flash = s.flash ∧ t.dev.eventsDev code = min 0xFFFFFFFF (s.dev.eventsDev code + 1)
      let go : Instr := .testBinst port value ue
      let newer (r : BushelRec) : Prop := ∀ i b, (s.dev.bushelsAhead s.flash)[i]? = some b → i ≠ slot → b.valid = true → b.id = r.id → b.version ≤ r.version
      let signed (r : BushelRec) : Prop := sigTileOk "FENRAM-TX4-BUSH" (leBytes 64 r.digest) (s.dev.lastTile a) (s.dev.fwKeys 1) = true;
      s.dev.serves port.val → s.dev.isOwner port.val = true →
      (∀ r, s.dev.running = true → ({ s.dev with ue := ue.map (fun a => a.toNat) } : Dev).parseBushel p a = some r →
        (signed r → newer r → leadsTo (exec go s) (fun t => t.dev.sec = { s.dev.sec with flashQ := s.dev.sec.flashQ ++ [.bushel slot r] } ∧
          Frame (Touches.withLog { sec := True } ue) s.dev t.dev ∧ t.flash = s.flash)) ∧
        (¬ signed r → leadsTo (exec go s) (fun t => same t Ev.BUSHEL_SIG_BAD)) ∧
        (signed r → ¬ newer r → leadsTo (exec go s) (fun t => same t Ev.BUSHEL_REFUSED))) ∧
      (s.dev.running = false ∨ s.dev.parseBushel p a = none → leadsTo (exec go s) (fun t => same t Ev.BUSHEL_REFUSED))) ∧
    (∀ r pc ws, s.dev.sec.flashQ = .retire pc :: ws → r ∈ s.dev.ctl.journal → Leads s.dev [] [pc] [] [r] → r.isOpen = true → r.type = 1 ∨ r.type = 3 →
      r.target = pc → r.openAck = true → s.dev.retireReady pc = true → isSlot pc = true → leadsTo (exec .flashWriteComplete s) (fun t =>
        t.flash = s.flash.addRetired pc ∧ t.dev.retired pc = true ∧ t.dev.spr.due = [] ∧ t.dev.sec.flashQ = ws)) ∧
    (∀ w ws, s.dev.sec.flashQ = w :: ws → s.dev.settled → leadsTo (exec .flashWriteComplete s) (fun t => t.dev.sec = { s.dev.sec with flashQ := ws } ∧
      t.flash.floor = s.flash.floor ∧
      Frame { sec := True, reg := fun k i => k = .SEC_STAT ∧ i = 0 } s.dev t.dev ∧
      (match w with
        | .retire pc => t.flash = s.flash.addRetired pc ∧ pc ∈ t.flash.retireA.val ∧ pc ∈ t.flash.retireB.val
        | .fw r => t.flash = { s.flash with fw := some r } ∧ t.dev.flag Fld.SEC_STAT_FWBUSY 0 = false ∧
            t.dev.eventsDev Ev.FW_UPDATE_DONE = min 0xFFFFFFFF (s.dev.eventsDev Ev.FW_UPDATE_DONE + 1)
        | .keys k => t.flash = { s.flash with keysA := ⟨true, k⟩, keysB := ⟨true, k⟩ } ∧ t.flash.keyTable = k ∧
            t.dev.eventsDev Ev.SEC_KEYS = min 0xFFFFFFFF (s.dev.eventsDev Ev.SEC_KEYS + 1)
        | .bushel n r => t.flash.retireA = s.flash.retireA ∧ t.flash.retireB = s.flash.retireB ∧ t.flash.fw = s.flash.fw ∧ t.flash.keyTable = s.flash.keyTable ∧ (n < s.flash.bushels.length → t.flash.bushels[n]? = some r) ∧
            (∀ i b, i ≠ n → t.flash.bushels[i]? = some b → b.id = r.id → b.valid = false) ∧
            (∀ i b, i ≠ n → s.flash.bushels[i]? = some b → b.id ≠ r.id → t.flash.bushels[i]? = some b))))

/-- R471, R472, R495, R496: a rolling test goes on from its boundary copy to the record of its switch, from a passed test to the copy back, and
from there to the record of the switch back, which a lead that acts unmirrored carries out at once while no plan runs; a failed test is counted
and its slot's retirement recorded, and sent to flash at once by such a lead, or carried out where flash holds it. -/
def Obligations.RollingTestsGoOn : Prop :=
  ∀ (s : State) (die : DieId) (k9 : BitVec 9) (x : SwapTest),
    let d := die.val
    let k := k9.toNat
    let p := s.dev.partOf d
    let pc := slotId d k x.tested
    let kept (t : State) : Prop := t.flash = s.flash ∧ t.dev.spr.requests = s.dev.spr.requests ∧ t.dev.spr.due = s.dev.spr.due ∧
      t.dev.spr.fills = s.dev.spr.fills ∧ t.dev.spr.policies = s.dev.spr.policies
    let only (t : State) : Prop := Frame { spr := True, ctl := True } s.dev t.dev ∧ kept t
    let recorded (type : Nat) (t : State) : Prop := ∃ r, t.dev.ctl.journal.getLast? = some r ∧ r.type = type ∧ r.target = pc ∧ r.isOpen = true ∧
      r.openAck = s.dev.solo;
    s.dev.swapOf d k = some x → Leads s.dev [] [] [x] [] → s.dev.clusterOpen d k [] = false →
    (x.phase = 1 → x.step = s.dev.step p → leadsTo (exec (.rollingCopyComplete die k9) s) (fun t =>
      t.dev.swapOf d k = some { x with phase := 2, copy := s.dev.recopy x, dirty := [] } ∧ recorded 4 t ∧ only t)) ∧
    (x.phase = 3 → x.bushel.firstFail = none → leadsTo (exec (.rollingTestComplete die k9 none) s) (fun t =>
      t.dev.swapOf d k = some { x with phase := 4, copy := s.dev.stride x.core, dirty := [] } ∧ kept t ∧ t.dev.mem = s.dev.mem)) ∧
    (∀ n m, x.phase = 3 → x.bushel.failing (some n.toNat) = some m → k < 272 → x.tested < 17 → s.dev.retired pc = false → s.dev.servedBy pc = none →
      s.dev.fenced d = false → s.dev.isShort d k = false → leadsTo (exec (.rollingTestComplete die k9 (some n)) s) (fun t =>
        t.dev.events d Ev.TEST_FAIL = min 0xFFFFFFFF (s.dev.events d Ev.TEST_FAIL + 1) ∧
        t.flash = s.flash ∧
        (s.dev.solo = true → s.flash.holdsRetired pc = true → t.dev.swapOf d k = none ∧ t.dev.retired pc = true) ∧
        (s.dev.solo = true → s.flash.holdsRetired pc = false → t.dev.retired pc = false ∧ FlashWrite.retire pc ∈ t.dev.sec.flashQ) ∧
        (s.dev.solo = false → recorded 1 t ∧ t.dev.retired pc = false))) ∧
    (x.phase = 4 → s.dev.planState p = 3 ∨ s.dev.solo = false → leadsTo (exec (.swapBackCopyComplete die k9) s) (fun t =>
      t.dev.swapOf d k = some { x with phase := 5, copy := s.dev.recopy x, dirty := [] } ∧ recorded 5 t ∧ only t)) ∧
    (x.phase = 4 → s.dev.planState p ≠ 3 → s.dev.solo = true → x.core = coreId d k (coreNum x.core) → x.tested < 17 → x.spare < 17 →
      leadsTo (exec (.swapBackCopyComplete die k9) s) (fun t => t.dev.swapOf d k = none ∧ t.dev.slotOf x.core = x.tested ∧ t.dev.spareOf d k = x.spare ∧
        t.dev.flag Fld.SPR_CLSTAT_SWAP (clIdx d k) = false ∧ t.flash = s.flash))

/-- R474, R478: TEST_CMD starts a test of the dies it names at once where no plan runs on them, waits for the plans where FORCE stops them, and is
refused where they run or a test is under way. A waiting test starts when its dies are free. A test whose slot holds no bushel passes (assumption 20, DEDUCED). A test that ends says how many slots failed, and asks
for their retirement. -/
def Obligations.DeviceTestsRun : Prop :=
  ∀ (s : State),
    let st (t : State) : Nat := t.dev.fld Fld.TEST_STAT_STATE 0
    let result (t : State) : Nat := t.dev.fld Fld.TEST_STAT_RESULT 0
    let nfail (t : State) : Nat := t.dev.fld Fld.TEST_STAT_NFAIL 0
    let holds (n : Nat) : Option BushelRec := (s.flash.bushels[n]?).filter (fun b => b.valid);
    (∀ (port : HostPort) (value : Word), let mask := value.toNat % 64
      let slot := value.toNat / 256 % 8
      let run := s.dev.maskRunning mask
      let refused (t : State) : Prop := t.dev.eventsDev Ev.TEST_BUSY = min 0xFFFFFFFF (s.dev.eventsDev Ev.TEST_BUSY + 1) ∧ t.flash = s.flash ∧ st t = st s
      let free : Prop := st s ≠ 1 ∧ st s ≠ 2 ∧ s.dev.running = true;
      s.dev.serves port.val → s.dev.isOwner port.val = true → mask ≠ 0 →
      (free → run = [] → leadsTo (exec (.testCmd port value) s) (fun t => st t = 2 ∧ result t = 0 ∧ nfail t = 0 ∧ t.flash = s.flash ∧
        t.dev.sec = { s.dev.sec with testDies := mask, testSlot := slot, testBushel := holds slot } ∧
        Frame { sec := True, reg := fun k i => k = .TEST_STAT ∧ i = 0 } s.dev t.dev)) ∧
      (free → run ≠ [] → s.dev.flag Fld.TEST_CTL_FORCE 0 = false → leadsTo (exec (.testCmd port value) s) (fun t => refused t ∧ result t = 3 ∧
        Frame { reg := fun k i => k = .TEST_STAT ∧ i = 0 } s.dev t.dev)) ∧
      (free → run ≠ [] → s.dev.flag Fld.TEST_CTL_FORCE 0 = true → leadsTo (exec (.testCmd port value) s) (fun t => st t = 1 ∧ t.flash = s.flash ∧
        t.dev.sec = { s.dev.sec with testDies := mask, testSlot := slot } ∧
        (∀ p ∈ run, t.dev.events p Ev.TEST_FORCED = min 0xFFFFFFFF (s.dev.events p Ev.TEST_FORCED + 1)))) ∧
      (¬ free → leadsTo (exec (.testCmd port value) s) (fun t => refused t ∧ Frame {} s.dev t.dev))) ∧
    (st s = 1 → s.dev.maskRunning s.dev.sec.testDies = [] → (∀ p ∈ s.dev.maskParts s.dev.sec.testDies, s.dev.fld Fld.CTX_DSTAT_STATE p ≠ 1) →
      leadsTo (exec .deviceTestStart s) (fun t => st t = 2 ∧ t.dev.sec = { s.dev.sec with testBushel := holds s.dev.sec.testSlot } ∧ t.flash = s.flash ∧
        Frame { sec := True, reg := fun k i => k = .TEST_STAT ∧ i = 0 } s.dev t.dev)) ∧
    (st s = 2 → s.dev.settled →
      (∀ ue, s.dev.sec.testBushel.bind BushelRec.firstFail = none → leadsTo (exec (.deviceTestComplete [] ue) s) (fun t =>
        st t = 3 ∧ result t = 1 ∧ nfail t = 0 ∧ t.flash = s.flash)) ∧
      (∀ b (pc : BitVec 17) (test : BitVec 16) ue, let n := pc.toNat
        s.dev.sec.testBushel = some b → b.firstFail = none → test.toNat < b.ntest → isSlot n = true → s.dev.sec.testDies.testBit (slotDie n) = true →
        s.dev.fenced (slotDie n) = false → s.dev.retired n = false → leadsTo (exec (.deviceTestComplete [(pc, test)] ue) s) (fun t =>
          st t = 3 ∧ result t = 2 ∧ nfail t = 1 ∧
          t.dev.events (slotDie n) Ev.TEST_FAIL = min 0xFFFFFFFF (s.dev.events (slotDie n) Ev.TEST_FAIL + 1) ∧
          (s.dev.flag Fld.SPR_POLICY_AUTO 0 = false → s.dev.spr.requests.length < 64 → (∀ r ∈ s.dev.spr.requests, r.1 ≠ n) →
            t.flash = s.flash ∧ t.dev.spr.requests = s.dev.spr.requests ++ [(n, 2)]))))

/-! ### Security, attestation and debug -/

/-- R448, R556 to R562: the owner's update waits for flash where its image has the right form, is signed and no older than the fuse floor, and asks for
a reset where its compatibility differs from the running one; any other is refused, with its event in ERR (assumption 66, DESIGN CHOICE). The owner adds a key while there is room for its kind and no key
with its ID, removes one but the last owner key, and DEPROVISION empties every store, the table and the HOLD bits; they are judged by the table with
every waiting write done, and DEPROVISION zeroes when it is written (assumption 67, DESIGN CHOICE). -/
def Obligations.FirmwareAndKeyCommands : Prop :=
  ∀ (s : State) (port : HostPort),
    let q := port.val
    let stage := s.dev.fld Fld.CTL_BOOT_STAGE 0
    let queued (w : FlashWrite) (t : State) : Prop := t.dev.sec = { s.dev.sec with flashQ := s.dev.sec.flashQ ++ [w] } ∧ t.flash = s.flash
    let refused (c : Instr) (code : Nat) : Prop := leadsTo (exec c s) (fun t => t.dev.fld Fld.SEC_STAT_ERR 0 = code ∧ t.flash = s.flash ∧
      t.dev.eventsDev code = min 0xFFFFFFFF (s.dev.eventsDev code + 1) ∧ t.dev.sec = s.dev.sec ∧
      (∀ a, Memory.byte t.dev.mem a = Memory.byte s.dev.mem a))
    let ahead := s.dev.keysAhead s.flash
    let key := s.dev.keyInput
    let has (kind : Nat) : Nat := (ahead.filter (fun k => k.1 == kind)).length;
    (∀ (value : Word) (ue : List (BitVec 52)), let a := value.toNat % 2 ^ 52
      let fits (n : Nat) : Bool := if stage = 7 then decide (s.dev.recoveryBase ≤ a) && decide (a + n * tileSize ≤ s.dev.recoveryBase + 0x1000000)
        else s.dev.tilesInHbm (s.dev.partOf q) a n
      let accepted (r : FwRec) : Prop := s.dev.parseFirmware a fits = some r ∧ r.signer = keyId s.flash.romKey ∧
        Ed448.verify s.flash.romKey "FENRAM-TX4-FIRM" (leBytes 64 r.digest) r.sig = true ∧ s.flash.floor ≤ r.svn
      let busy : Bool := s.dev.flag Fld.SEC_STAT_FWBUSY 0
      let other (r : FwRec) : Prop := ∀ run, s.dev.sec.running = some run → run.compat ≠ r.compat
      let go : Instr := .fwUpdate port value ue;
      s.dev.fld Fld.HLK_PSTAT_LINK q = 2 → s.dev.fld Fld.HLK_PSTAT_ROLE q ≠ 0 → s.dev.isOwner q = true →
      (∀ r, stage = 6 → accepted r → busy = false → s.dev.power ≠ 1 → s.dev.power ≠ 2 → (other r → s.dev.allEmpty = true) →
        leadsTo (exec go s) (fun t => queued (.fw r) t ∧ t.dev.flag Fld.SEC_STAT_FWBUSY 0 = true ∧ (other r → t.dev.flag Fld.SEC_STAT_RESETREQ 0 = true) ∧
          Frame (Touches.withLog { sec := True, reg := fun k i => k = .SEC_STAT ∧ i = 0 } ue) s.dev t.dev)) ∧
      (∀ r, stage = 7 → accepted r → busy = false → leadsTo (exec go s) (fun t => queued (.fw r) t ∧ t.dev.flag Fld.SEC_STAT_FWBUSY 0 = true ∧
          Frame (Touches.withLog { sec := True, reg := fun k i => k = .SEC_STAT ∧ i = 0 } ue) s.dev t.dev)) ∧
      (stage = 6 ∨ stage = 7 → (∀ r, ¬ accepted r) ∨ busy = true ∨ (stage = 6 ∧ (s.dev.power = 1 ∨ s.dev.power = 2)) ∨
        (stage = 6 ∧ s.dev.allEmpty = false ∧ ∃ r, accepted r ∧ other r) → refused go Ev.FW_REFUSED)) ∧
    (s.dev.serves q → s.dev.isOwner q = true →
      (s.dev.keysBarred = false → (∀ k ∈ ahead, keyId k.2 ≠ keyId key) →
        (has 1 < 4 → leadsTo (exec (.keyAddOwner port) s) (fun t => queued (.keys (ahead ++ [(1, key)])) t ∧ Frame { sec := True } s.dev t.dev)) ∧
        (has 2 < 16 → leadsTo (exec (.keyAddOperator port) s) (fun t => queued (.keys (ahead ++ [(2, key)])) t ∧ Frame { sec := True } s.dev t.dev))) ∧
      (4 ≤ has 1 ∨ (∃ k ∈ ahead, keyId k.2 = keyId key) → refused (.keyAddOwner port) Ev.SEC_REFUSED) ∧
      (16 ≤ has 2 ∨ (∃ k ∈ ahead, keyId k.2 = keyId key) → refused (.keyAddOperator port) Ev.SEC_REFUSED) ∧
      (let left := ahead.filter (fun k => decide (keyId k.2 ≠ s.dev.reg .SEC_KEY 0))
       (s.dev.keysBarred = false → (∃ k ∈ ahead, keyId k.2 = s.dev.reg .SEC_KEY 0) → ((∃ k ∈ ahead, k.1 = 1) → ∃ k ∈ left, k.1 = 1) →
         leadsTo (exec (.keyRemove port) s) (fun t => queued (.keys left) t ∧ Frame { sec := True } s.dev t.dev)) ∧
       ((∀ k ∈ ahead, keyId k.2 ≠ s.dev.reg .SEC_KEY 0) ∨ ((∃ k ∈ ahead, k.1 = 1) ∧ ∀ k ∈ left, k.1 ≠ 1) →
         refused (.keyRemove port) Ev.SEC_REFUSED)) ∧
      (s.dev.keysBarred = false → s.dev.allEmpty = true → leadsTo (exec (.deprovision port) s) (fun t => queued (.keys []) t ∧
        t.dev.fld Fld.HLK_OWNSTAT_HOLD 0 = 0 ∧ t.dev.owner = none ∧ t.dev.reg .HLK_OWNNONCE 0 = (Config.nonce s.dev.fresh).toNat ∧
        (∀ d < 6, s.dev.fenced d = false → ∀ a, (4 * d * stackSize ≤ a ∧ a < (4 * d + 4) * stackSize) ∨
          (strideAddr (8192 * d) 0 ≤ a ∧ a < strideAddr (8192 * d + 8192) 0) → Memory.byte t.dev.mem a = 0))) ∧
      (s.dev.keysBarred = true ∨ s.dev.allEmpty = false → refused (.deprovision port) Ev.SEC_REFUSED) ∧
      (s.dev.keysBarred = true → refused (.keyAddOwner port) Ev.SEC_REFUSED ∧ refused (.keyAddOperator port) Ev.SEC_REFUSED ∧
        refused (.keyRemove port) Ev.SEC_REFUSED))

/-- R566 to R568, with the message layouts and codes of SPDM 1.2 that assumption 22 takes: a port's write of REQLEN takes the request of its mailbox
up, with BUSY set, and one that comes while BUSY is refused. Each request taken up that its port's negotiation allows is answered in the mailbox, a
request of a code the TX4 does not support by ERROR, and one that comes out of order leaves the negotiation as it was. -/
def Obligations.AttestationRequestsAnswered : Prop :=
  ∀ (s : State) (port : HostPort) (m : List Byte),
    let q := port.val
    let n := m.length
    let h := s.dev.hostPort q
    let now (t : State) : HostPortSt := t.dev.hostPort q
    let mailbox (t : State) (r : List Byte) : Prop := t.dev.flag Fld.SEC_SPDM_READY q = true ∧ t.dev.flag Fld.SEC_SPDM_BUSY q = false ∧ (now t).asked = none ∧
      t.dev.fld Fld.SEC_SPDM_RSPLEN q = r.length % 2 ^ 13 ∧
      (∀ i < r.length, t.dev.reg .SPDM_RSP (512 * q + i / 8) / 2 ^ (8 * (i % 8)) % 256 = (r.getD i 0).toNat) ∧
      Frame { reg := fun k i => (k = .SEC_SPDM ∧ i = q) ∨ k = .SPDM_RSP } s.dev t.dev ∧ t.flash = s.flash
    let shape (bytes : Nat) (code : Nat) : Prop := n = bytes ∧ msgNum m 0 1 = 0x12 ∧ msgNum m 1 1 = code
    let stage := h.spdm % 4
    let measured (is : List Nat) : List Byte := s.dev.measBlocks s.flash q is
    let nonce : List Byte := (List.range 4).flatMap (fun i => leBytes 8 (Config.nonce (s.dev.fresh + i)).toNat);
    (∀ (value : Word), s.dev.serves q → let go : Instr := .registerWrite port (BitVec.ofNat 52 (devBase + 0xA100 + 8 * q)) value
      let len := value.toNat % 2 ^ 13;
      (s.dev.flag Fld.SEC_SPDM_BUSY q = false → leadsTo (exec go s) (fun t => t.dev.flag Fld.SEC_SPDM_BUSY q = true ∧
        t.dev.flag Fld.SEC_SPDM_READY q = false ∧ now t = { h with asked := some (if len ≤ 4096 then s.dev.spdmRequest q len else []) } ∧
        Frame { reg := fun k i => k = .SEC_SPDM ∧ i = q } s.dev t.dev ∧ t.flash = s.flash)) ∧
      (s.dev.flag Fld.SEC_SPDM_BUSY q = true → leadsTo (exec go s) (fun t => t.dev.fld Fld.SEC_STAT_ERR 0 = Ev.SEC_REFUSED ∧
        t.dev.eventsDev Ev.SEC_REFUSED = min 0xFFFFFFFF (s.dev.eventsDev Ev.SEC_REFUSED + 1) ∧ (now t).asked = h.asked ∧
        Frame { reg := fun k i => k = .SEC_STAT ∧ i = 0 } s.dev t.dev ∧ t.flash = s.flash))) ∧
    (h.asked = some m →
    (n = 4 → msgNum m 0 1 = 0x10 → msgNum m 1 1 = 0x84 → leadsTo (exec (.getVersion port) s) (fun t =>
      mailbox t [0x10, 0x04, 0, 0, 0, 1, 0, 0x12] ∧ (now t).spdm = 1)) ∧
    (shape 20 0xE1 → 42 ≤ msgNum m 12 4 → msgNum m 12 4 ≤ msgNum m 16 4 →
      (stage = 1 → leadsTo (exec (.getCapabilities port) s) (fun t => mailbox t [0x12, 0x61, 0, 0, 0, 16, 0, 0, 0x16, 0, 0, 0, 0, 16, 0, 0, 0, 16, 0, 0] ∧
        (now t).spdm = 2)) ∧
      (stage ≠ 1 → leadsTo (exec (.getCapabilities port) s) (fun t => mailbox t [0x12, 0x7F, 0x04, 0] ∧ now t = { h with asked := none }))) ∧
    (msgNum m 28 1 = 0 → msgNum m 29 1 = 0 → msgNum m 4 2 = 32 → shape 32 0xE3 → stage = 2 →
      let spec := msgNum m 6 1 % 2
      let asym := msgNum m 8 4 / 2 ^ 11 % 2
      let hash := msgNum m 12 4 / 2 ^ 5 % 2;
      spec + asym + hash ≠ 0 → leadsTo (exec (.negotiateAlgorithms port) s) (fun t => (now t).spdm = 3 + 4 * asym + 8 * hash + 16 * spec ∧
        mailbox t ([0x12, 0x63, 0, 0, 36, 0] ++ leBytes 1 spec ++ [0] ++ leBytes 4 spec ++ leBytes 4 (asym * 2 ^ 11) ++ leBytes 4 (hash * 2 ^ 5) ++ zeros 16))) ∧
    (shape 4 0x81 → stage = 3 → h.spdm.testBit 3 = true → leadsTo (exec (.getDigests port) s) (fun t =>
      mailbox t ([0x12, 0x01, 0, 1] ++ sha3 certChain) ∧ (now t).spdm = h.spdm)) ∧
    (shape 8 0x82 → stage = 3 → msgNum m 2 1 = 0 → msgNum m 4 2 < certChain.length →
      let part := (certChain.drop (msgNum m 4 2)).take (min (msgNum m 6 2) 4088);
      leadsTo (exec (.getCertificate port) s) (fun t => (now t).spdm = h.spdm ∧
        mailbox t ([0x12, 0x02, 0, 0] ++ leBytes 2 part.length ++ leBytes 2 (certChain.length - msgNum m 4 2 - part.length) ++ part))) ∧
    (shape 36 0x83 → msgNum m 2 1 = 0 → h.spdm % 16 / 4 = 3 → msgNum m 3 1 = 0 →
      (s.dev.flag Fld.SEC_STAT_IDOK 0 = true →
        let r := [0x12, 0x03, 0, 1] ++ (sha3 certChain ++ nonce ++ [] ++ [0, 0]);
        leadsTo (exec (.challenge port) s) (fun t => mailbox t (r ++ spdmSign "responder-challenge_auth signing" (h.vca ++ h.certMsgs ++ m ++ r)) ∧
          t.dev.fresh = s.dev.fresh + 4 ∧ (now t).spdm = h.spdm)) ∧
      (s.dev.flag Fld.SEC_STAT_IDOK 0 = false → leadsTo (exec (.challenge port) s) (fun t => mailbox t [0x12, 0x7F, 0x05, 0] ∧ now t = { h with asked := none }))) ∧
    (∀ i, shape 4 0xE0 → stage = 3 → h.spdm.testBit 4 = true → msgNum m 2 1 = 0 → msgNum m 3 1 = i → 1 ≤ i → i ≤ 13 →
      leadsTo (exec (.getMeasurements port) s) (fun t => (now t).spdm = h.spdm ∧
        mailbox t ([0x12, 0x60, 0, 0] ++ (leBytes 1 1 ++ leBytes 3 (measured [i]).length ++ measured [i] ++ nonce ++ [0, 0])))) ∧
    (4 ≤ n → n ≤ 4096 → ¬ msgNum m 1 1 ∈ [0x81, 0x82, 0x83, 0x84, 0xE0, 0xE1, 0xE3] → leadsTo (exec (.spdmUnsupportedRequest port) s) (fun t =>
      mailbox t ([0x12, 0x7F, 0x07] ++ leBytes 1 (msgNum m 1 1)) ∧ now t = { h with asked := none })))

/-- R569 to R573: the owner sets D1 and D0 and clears ALLOWD2, which while PROVISIONED ends D2; a change of level is counted and one from D2 changes
the nonce. A token waits for its decision, which changes the nonce: a good one that the device's state allows begins the zeroing, which empties the
stores of every die, grants D2 and is counted. The level that clearing ALLOWD2 leaves is DBG_CTL.LEVEL, and the stores are zeroed when the zeroing
completes (assumption 68, DEDUCED). -/
def Obligations.DebugLevelsAndTokens : Prop :=
  ∀ (s : State) (port : HostPort),
    let q := port.val
    let owns : Prop := s.dev.serves q ∧ s.dev.isOwner q = true ∧ s.dev.flag Fld.DBG_STAT_BUSY 0 = false
    let lv (t : State) : Nat := t.dev.fld Fld.DBG_STAT_LEVEL 0
    let nonce (t : State) : Nat := t.dev.reg .DBG_NONCE 0
    let fresh : Nat := (Config.nonce s.dev.fresh).toNat
    let goes (n : Nat) (t : State) : Prop := lv t = n ∧ t.flash = s.flash ∧
      (n ≠ lv s → t.dev.eventsDev Ev.DBG_LEVEL = min 0xFFFFFFFF (s.dev.eventsDev Ev.DBG_LEVEL + 1)) ∧
      (n ≠ lv s → lv s = 2 → nonce t = fresh) ∧ (n = lv s ∨ lv s ≠ 2 → nonce t = nonce s) ∧
      Frame { reg := fun k i => (k = .DBG_CTL ∨ k = .DBG_STAT ∨ k = .DBG_NONCE) ∧ i = 0 } s.dev t.dev
    let allow (t : State) : Bool := t.dev.flag Fld.DBG_CTL_ALLOWD2 0
    let decided (t : State) : Prop := nonce t = fresh ∧ t.flash = s.flash ∧ lv t = lv s ∧ (∀ a, Memory.byte t.dev.mem a = Memory.byte s.dev.mem a);
    (owns → leadsTo (exec (.dbgSetD1 port) s) (fun t => goes 1 t ∧ allow t = allow s ∧ t.dev.fld Fld.DBG_CTL_LEVEL 0 = 1)) ∧
    (owns → leadsTo (exec (.dbgSetD0 port) s) (fun t => goes 0 t ∧ allow t = allow s ∧ t.dev.fld Fld.DBG_CTL_LEVEL 0 = 0)) ∧
    (owns → leadsTo (exec (.dbgAllowd2Clear port) s) (fun t => allow t = false ∧
      goes (if allow s = true ∧ lv s = 2 ∧ s.dev.secState s.flash = 1 then s.dev.fld Fld.DBG_CTL_LEVEL 0 else lv s) t)) ∧
    (∀ v : Word, s.dev.serves q → s.dev.isOwner q = true → leadsTo (exec (.dbgTokenSubmit (.inl (port, v))) s) (fun t => t.flash = s.flash ∧
      t.dev.sec = { s.dev.sec with tokens := s.dev.sec.tokens ++ [(List.range 19).flatMap (fun j => leBytes 8 (s.dev.reg .DBG_TOKEN j)) ++ leBytes 8 v.toNat] } ∧
      Frame { sec := True, reg := fun k i => k = .DBG_TOKEN ∧ i = 19 } s.dev t.dev)) ∧
    (∀ x : BitVec 1280, s.dev.tapServed = true → leadsTo (exec (.dbgTokenSubmit (.inr x)) s) (fun t => t.flash = s.flash ∧
      t.dev.sec = { s.dev.sec with tokens := s.dev.sec.tokens ++ [leBytes 160 x.toNat] } ∧ t.dev.sby = { s.dev.sby with ir := 0x12 } ∧
      Frame { sec := True, sby := True } s.dev t.dev)) ∧
    (∀ tok ts, s.dev.sec.tokens = tok :: ts →
      let rd (o n : Nat) : Nat := leNat ((tok.drop o).take n)
      let signed (k : Nat) : Prop := Ed448.verify k "FENRAM-TX4-DBUG" (tok.take 40) ((tok.drop 40).take 114) = true
      let good : Prop := rd 0 8 = 0x4755424434585446 ∧ rd 8 8 = Config.serial.toNat ∧ rd 16 8 = nonce s ∧ rd 24 1 = 2 ∧ rd 25 7 = 0 ∧
        (∃ k ∈ s.dev.debugKeys s.flash, keyId k = rd 32 8 ∧ signed k) ∧ rd 154 6 = 0
      let refused (code : Nat) : Prop := leadsTo (exec .dbgTokenDecide s) (fun t => decided t ∧ t.dev.sec = { s.dev.sec with tokens := ts } ∧
        t.dev.fld Fld.DBG_STAT_ERR 0 = code ∧ t.dev.flag Fld.DBG_STAT_BUSY 0 = s.dev.flag Fld.DBG_STAT_BUSY 0 ∧
        t.dev.eventsDev code = min 0xFFFFFFFF (s.dev.eventsDev code + 1));
      (¬ good → refused Ev.DBG_TOKEN_BAD) ∧ (good → s.dev.tokenAllowed s.flash = false → refused Ev.DBG_REFUSED) ∧
      (good → s.dev.tokenAllowed s.flash = true → leadsTo (exec .dbgTokenDecide s) (fun t => decided t ∧
        t.dev.sec = { s.dev.sec with tokens := ts } ∧ t.dev.flag Fld.DBG_STAT_BUSY 0 = true))) ∧
    (s.dev.flag Fld.DBG_STAT_BUSY 0 = true → leadsTo (exec .d2ZeroingComplete s) (fun t => lv t = 2 ∧ t.dev.flag Fld.DBG_STAT_D2SEEN 0 = true ∧
      t.dev.flag Fld.DBG_STAT_BUSY 0 = false ∧ t.dev.eventsDev Ev.DBG_D2 = min 0xFFFFFFFF (s.dev.eventsDev Ev.DBG_D2 + 1) ∧ t.flash = s.flash ∧
      (∀ d < 6, s.dev.fenced d = false → ∀ a, (4 * d * stackSize ≤ a ∧ a < (4 * d + 4) * stackSize) ∨
        (strideAddr (8192 * d) 0 ≤ a ∧ a < strideAddr (8192 * d + 8192) 0) → Memory.byte t.dev.mem a = 0)))

/-- R569, R574 to R576: each command puts its code into the TAP's instruction register. The TAP shifts out the identity and level, the nonce, at D1 the
counters and at D2 memory and registers, and writes them; D2 halts, steps and resumes a core and reads and writes its window. A command whose level is
not granted acts as BYPASS and shifts one zero bit, DBGMEM reads at any alignment, and it answers with its error bit for memory that is lost or, in
SLEEP, for every region (assumption 32, DESIGN CHOICE). EXTEST holds every die in reset. -/
def Obligations.TapCommandsByLevel : Prop :=
  ∀ (s : State) (core : CoreId) (addr : BitVec 52) (value : Word) (off : BitVec 13),
    let c := core.toNat
    let a := addr.toNat
    let x := s.dev.core c
    let lv := s.dev.fld Fld.DBG_STAT_LEVEL 0
    let served := s.dev.tapServed = true
    let d2 : Prop := served ∧ 2 ≤ lv
    let chosen (code : Nat) : Dev := { s.dev with sby := { s.dev.sby with ir := code } }
    let shifts (o : Host.Outcome State Fault Refusal) (code v w : Nat) (e : Bool) : Prop :=
      o = .next { s with dev := { chosen code with out := s.dev.out ++ [.tap v w e] } }
    let sets (o : Host.Outcome State Fault Refusal) (y : Core) : Prop := o = .next { s with dev := (chosen 0x15).setCore c y }
    let stored (b : Nat) : Prop := (a ≤ b ∧ b < a + 8) ∨ ∃ sa, scrupleAddr a = some sa ∧ sa ≤ b ∧ b < sa + 8;
    shifts (exec .tapBypass s) 0xFF 0 1 false ∧
    (s.dev.power < 3 → leadsTo (exec .tapSamplePreload s) (fun t => (∃ v w, t.dev.out = s.dev.out ++ [.tap v w false]) ∧
      t.dev.sby = { s.dev.sby with ir := 1 } ∧ Frame { sby := True } s.dev t.dev ∧ t.flash = s.flash)) ∧
    (3 ≤ s.dev.power → shifts (exec .tapSamplePreload s) 1 0 1 false ∧ shifts (exec .tapExtest s) 0 0 1 false) ∧
    (s.dev.power < 3 → leadsTo (exec .tapExtest s) (fun t => t.dev.sby.extest = true ∧ t.dev.sby.ir = 0 ∧ t.dev.alive = false ∧ t.dev.cores = [] ∧
      t.dev.parts = [] ∧ t.dev.mem = [] ∧ (∀ k i, k ≠ .PWR_RSTCAUSE → t.dev.reg k i = regReset k i % 2 ^ 64) ∧ t.flash.floor = s.flash.floor ∧
      (s.dev.sec.flashQ = [] → t.flash = s.flash))) ∧
    (served → shifts (exec .dbgstat s) 0x10 (s.dev.stored .DBG_STAT 0 + 2 ^ 64 * Config.serial.toNat) 128 false ∧
      shifts (exec .dbgnonce s) 0x11 (s.dev.reg .DBG_NONCE 0) 64 false) ∧
    (∀ k d o j, served → 1 ≤ lv → ctlPlace a = .die d o → regAt .die o = some (k, j) →
      k = .CTL_EVCNT ∨ k.perfCounter = true ∨ k ∈ [RegKind.FMT_MON_BLK, .FMT_MON_SAT, .FMT_MON_ZERO, .FMT_MON_NZ, .FMT_MON_EXTRACT, .FMT_MON_CLIP] →
      (regDesc k).writer = .partition ∨ ((regDesc k).writer = .lowest ∧ s.dev.partOf d = d) → shifts (exec (.dbgctr addr) s) 0x13 (s.dev.stored k (dieIdx k d j)) 64 false) ∧
    (d2 → s.dev.tapMem a = true → s.dev.power ≠ 2 →
      shifts (exec (.dbgmemRead addr) s) 0x14 (Memory.num s.dev.mem a 8) 64 false ∧
      (a % 8 = 0 → (∀ g, memPlace a ≠ .gill g) → leadsTo (exec (.dbgmemWrite addr value) s) (fun t => Memory.bytes t.dev.mem a 8 = leBytes 8 value.toNat ∧
        t.flash = s.flash ∧ t.dev.out = s.dev.out ++ [.tap 0 64 false] ∧ t.dev.sby = { s.dev.sby with ir := 0x14 } ∧
        Frame { sby := True, core := fun c => a / strideSize * strideSize = strideAddr c 0, spr := coreBase ≤ a, byte := stored } s.dev t.dev))) ∧
    (d2 → memPlace a ≠ .other → s.dev.tapMem a = false ∨ s.dev.power = 2 →
      shifts (exec (.dbgmemRead addr) s) 0x14 0 64 true ∧ shifts (exec (.dbgmemWrite addr value) s) 0x14 0 64 true) ∧
    (d2 → s.dev.present c = true →
      sets (exec (.dbgcoreHalt core) s) { x with halted := true } ∧ sets (exec (.dbgcoreResume core) s) { x with halted := false } ∧
      (x.halted = true → let f := (chosen 0x15).fetch c
        let group := x.pc.toNat / 64 * 64
        let inGroup (g : List Byte) : Word := BitVec.ofNat 64 (leNat ((g.drop (x.pc.toNat % 64)).take 8))
        let t (w : Word) : Dev := (f.setCore c { f.core c with halted := false }).stepWord c w
        let stepped (w : Word) : Prop := exec (.dbgcoreStep core) s = .next { s with dev := (t w).setCore c { (t w).core c with halted := true } };
        (∀ g, x.fetched = some (group, g) → stepped (inGroup g)) ∧
        (group < payloadEnd → (∀ g, x.fetched ≠ some (group, g)) → stepped (inGroup (Memory.bytes s.dev.mem (strideAddr c group) 64)))) ∧
      shifts (exec (.dbgcoreRegRead core off) s) 0x15 (s.dev.windowRead c off.toNat) 64 false ∧
      exec (.dbgcoreRegWrite core off value) s = .next { s with dev := (chosen 0x15).windowWrite c off.toNat value.toNat }) ∧
    (s.dev.tapServed = false ∨ lv < 2 →
      (∀ i ∈ [Instr.dbgmemRead addr, .dbgmemWrite addr value], shifts (exec i s) 0x14 0 1 false) ∧
      (∀ i ∈ [Instr.dbgcoreHalt core, .dbgcoreStep core, .dbgcoreResume core, .dbgcoreRegRead core off, .dbgcoreRegWrite core off value],
        shifts (exec i s) 0x15 0 1 false)) ∧
    (s.dev.tapServed = false ∨ lv < 1 → shifts (exec (.dbgctr addr) s) 0x13 0 1 false)

/-- R25, R39, R43, R102, R382, R439: a write of CLR by a partition's port sets a counter of its window to zero, with its OVF bit, and touches no
other register; the counters of a die, those of the device-wide block and those of a core's window. -/
def Obligations.CountersCleared : Prop :=
  ∀ (s : State) (port : HostPort) (addr : BitVec 52),
    let q := port.val
    let a := addr.toNat
    let only (k : RegKind) (i : Nat) (t : State) : Prop := Frame { reg := fun r j => r = k ∧ j = i } s.dev t.dev ∧ t.flash = s.flash ∧
      (∀ r j, ¬ (r = k ∧ j = i) → t.dev.reg r j = s.dev.reg r j)
    let clears (k : RegKind) (i : Nat) : Prop :=
      (k ∈ eventRegs → leadsTo (exec (.eventCounterClear port addr) s) (fun t => t.dev.reg k i = 0 ∧ only k i t)) ∧
      (k.perfCounter = true → leadsTo (exec (.perfCounterClear port addr) s) (fun t => t.dev.reg k i = 0 ∧ only k i t)) ∧
      (k ∈ linkRegs → k ≠ .CTL_BRG → leadsTo (exec (.linkErrorCounterClear port addr) s) (fun t => t.dev.reg k i = 0 ∧ only k i t));
    s.dev.serves q → a % 8 = 0 → isCtl a = true →
    (∀ d off k n, ctlPlace a = .die d off → regAt .die off = some (k, n) → s.dev.mayWrite (some q) (regDesc k).writer d = true →
      s.dev.partOf d = s.dev.partOf q → s.dev.reaches q d = true →
      clears k (dieIdx k d n)) ∧
    (∀ off k n, ctlPlace a = .dev off → devRegAt off = some (k, n) → s.dev.mayWrite (some q) (regDesc k).writer 0 = true →
      clears k n ∧ (k = .CTL_BRG → leadsTo (exec (.linkErrorCounterClear port addr) s) (fun t => t.dev.fld Fld.CTL_BRG_RETRY n = 0 ∧
        t.dev.flag Fld.CTL_BRG_RETRY_OVF n = false ∧ t.dev.flag Fld.CTL_BRG_UP n = s.dev.flag Fld.CTL_BRG_UP n ∧ only k n t))) ∧
    (∀ c off k n, ctlPlace a = .core c off → regAt .core off = some (k, n) → (regDesc k).writer ≠ .none → s.dev.coreServed (s.dev.partOf q) c = true →
      s.dev.reaches q (coreDie c) = true →
      (k = .GILL_OVF → leadsTo (exec (.eventCounterClear port addr) s) (fun t => t.dev.reg k c = 0 ∧ only k c t)) ∧
      (k.perfCounter = true → leadsTo (exec (.perfCounterClear port addr) s) (fun t => t.dev.reg k c = 0 ∧ only k c t)))

/-! ### The whole block -/

/-- A step takes the command at the front of the queue and is that command on the state with the queue's rest; on an empty queue it is an idle tick
(assumption 5). -/
def Obligations.StepRunsFrontOrIdles : Prop :=
  (∀ (s : State) (c : Instr) (rest : List Instr), s.pending = c :: rest → Sys2Proof.Machine.step s = exec c { s with pending := rest }) ∧
  (∀ s : State, s.pending = [] → (s.dev.now + 1) % 544 ≠ 0 → Sys2Proof.Machine.step s = .next { s with dev := { s.dev with now := s.dev.now + 1 } }) ∧
  (∀ s : State, s.pending = [] → (s.dev.now + 1) % 544 = 0 → leadsTo (Sys2Proof.Machine.step s) (fun t => t.flash = s.flash ∧ t.pending = [] ∧
    t.dev.now = s.dev.now + 1 ∧ t.dev.mem = s.dev.mem ∧ t.dev.cores = s.dev.cores ∧ t.dev.parts = s.dev.parts ∧ t.dev.regs = s.dev.regs ∧
    t.dev.out = s.dev.out ++ ((List.range 36).filter (fun q => s.dev.fld Fld.FAB_PORT_STAT_LINK q == 2)).map (fun q =>
      let l := (s.dev.fabPort q).link;
      Out.fabLink q ((List.range 4).map (fun vc => SMap.read 0 l.owed vc)) false l.lastSeq)))

/-- Every command is carried out to a next state, and leaves the queue as it is: a command that names a happening for which the state has no room changes
nothing (assumption 1, DESIGN CHOICE). -/
def Obligations.EveryCommandGoesOn : Prop :=
  ∀ (c : Instr) (s : State), leadsTo (exec c s) (fun t => t.pending = s.pending)

/-- R34, R417, R440, R507, R509, R528: the state at reset: nothing queued or in memory, every register at its reset value, one partition of all the
dies with host port 0 PRIMARY and the others AUX and none of them up, no owner, the power state RUN, the interrupt masks of class 0 and 13 to 15 off;
and flash, which assumption 6 takes empty, is sound. -/
def Obligations.ResetState : Prop :=
  let d := State.reset.dev;
  State.reset.pending = [] ∧ Memory.wf d.mem = true ∧ (∀ a, Memory.byte d.mem a = 0) ∧ (∀ k i, d.reg k i = regReset k i % 2 ^ 64) ∧
    (∀ p, p < 6 → d.partOf p = 0 ∧ d.fld Fld.HLK_PSTAT_ROLE p = (if p = 0 then 1 else 2) ∧ d.fld Fld.HLK_PSTAT_LINK p = 0 ∧
      d.fld Fld.HLK_IMASK_CLASS p = 0x1FFE) ∧
    d.owner = none ∧ d.power = 0 ∧ d.alive = false ∧ State.reset.flash.Sound

/-- R467, R469, R557: whatever a step does, flash stays sound and the fuse floor never falls. -/
def Obligations.FlashStaysSound : Prop :=
  ∀ (s t : State), Sys2Proof.Machine.step s = .next t → s.flash.Sound → t.flash.Sound ∧ s.flash.floor ≤ t.flash.floor

/-- R417, R423, R433, R435: a request on a host port that is not UP changes nothing; one on an OFF port counts EV_HLK_MALFORMED and does no more;
one that is for the owner port, from another port, changes nothing. After a sparing command so turned away the lead carries out what it may, as after
any (R492, R496). -/
def Obligations.RequestsTurnedAway : Prop :=
  ∀ (c : Instr) (port : HostPort) (s : State), hostRequest c = some port →
    let gives (d : Dev) : Host.Outcome State Fault Refusal := match c with
      | .sprCmdRetire _ _ => okFlash s (Dev.lead (d, s.flash))
      | .sprCmdApprove _ => okFlash s (Dev.lead (d, s.flash))
      | _ => .next { s with dev := d };
    (s.dev.fld Fld.HLK_PSTAT_LINK port.val ≠ 2 → exec c s = gives s.dev) ∧
    (s.dev.fld Fld.HLK_PSTAT_LINK port.val = 2 → s.dev.fld Fld.HLK_PSTAT_ROLE port.val = 0 →
      exec c s = gives (s.dev.raise port.val Ev.HLK_MALFORMED)) ∧
    (ownerRequest c = some port → s.dev.serves port.val → s.dev.isOwner port.val = false → exec c s = gives s.dev)

/-- R443, R445: a write inside a tile that verifies, of whatever length and alignment, leaves the tile verifying: the scruple kept word by word is
that of the content. -/
def Obligations.StoresKeepTilesVerified : Prop :=
  ∀ (m : Memory) (a : Nat) (bs : List Byte), (scrupleAddr a).isSome = true → a % tileSize + bs.length ≤ tileSize → Memory.verify m a = true →
    Memory.verify (Memory.store m a bs) a = true ∧ Memory.scruple (Memory.store m a bs) a ≠ poisonScruple ∧
      Memory.bytes (Memory.store m a bs) a bs.length = bs
end

