-- ==== Sys2Proof/Laws/Maps.lean ====
section
/-!
SUPPORT. Laws of sparse tables: what a write, a splice and a clear leave at each key, and that they keep the canonical form. None
of the reading laws asks for the canonical form.
-/
namespace Sys2Proof.Machine

variable {β : Type}

@[simp] theorem SMap.read_nil (d : β) (k : Nat) : SMap.read d [] k = d := rfl

theorem SMap.read_cons (d : β) (p : Nat × β) (m : SMap β) (k : Nat) :
    SMap.read d (p :: m) k = if p.1 = k then p.2 else SMap.read d m k := by
  unfold SMap.read
  by_cases h : p.1 = k <;> simp [h]

theorem SMap.read_append (d : β) (m n : SMap β) (k : Nat) (h : ∀ p ∈ m, p.1 ≠ k) : SMap.read d (m ++ n) k = SMap.read d n k := by
  induction m with
  | nil => rfl
  | cons p m ih =>
    have hp := h p (by simp)
    simp only [List.cons_append, SMap.read_cons, hp, if_false]
    exact ih (fun q hq => h q (by simp [hq]))

/-- A table whose keys all miss `k` reads as unlisted there. -/
theorem SMap.read_absent (d : β) (m : SMap β) (k : Nat) (h : ∀ p ∈ m, p.1 ≠ k) : SMap.read d m k = d := by
  simpa using SMap.read_append d m [] k h

/-- Dropping entries of other keys does not change what is read. -/
theorem SMap.read_filter (d : β) (m : SMap β) (k : Nat) (f : Nat × β → Bool) (h : ∀ p, p.1 = k → f p = true) :
    SMap.read d (m.filter f) k = SMap.read d m k := by
  induction m with
  | nil => rfl
  | cons p m ih =>
    by_cases hf : f p = true
    · simp only [List.filter_cons, hf, if_true, SMap.read_cons, ih]
    · have hp : p.1 ≠ k := fun e => hf (h p e)
      simp only [List.filter_cons, hf, SMap.read_cons, hp, if_false]
      simpa using ih

/-- Reading past an append whose first part holds every entry of the key. -/
theorem SMap.read_append_left (d : β) (m n : SMap β) (k : Nat) (h : ∀ p ∈ n, p.1 ≠ k) : SMap.read d (m ++ n) k = SMap.read d m k := by
  induction m with
  | nil => simpa using SMap.read_absent d n k h
  | cons p m ih => simp only [List.cons_append, SMap.read_cons, ih]

/-- A splice leaves the keys outside its range alone. -/
theorem SMap.read_splice_out (d : β) (m mid : SMap β) (lo hi k : Nat) (hm : ∀ p ∈ mid, lo ≤ p.1 ∧ p.1 < hi) (hk : k < lo ∨ hi ≤ k)
    (hlh : lo ≤ hi) : SMap.read d (m.splice lo hi mid) k = SMap.read d m k := by
  unfold SMap.splice
  have hmid : ∀ p ∈ mid, p.1 ≠ k := fun p hp => by have := hm p hp; omega
  rcases hk with hk | hk
  · have h3 : ∀ p ∈ m.filter (fun p => decide (hi ≤ p.1)), p.1 ≠ k := by
      intro p hp
      simp only [List.mem_filter, decide_eq_true_eq] at hp
      omega
    rw [SMap.read_append_left d _ _ k h3, SMap.read_append_left d _ _ k hmid]
    exact SMap.read_filter d m k _ (fun p hp => by simp; omega)
  · have h1 : ∀ p ∈ m.filter (fun p => decide (p.1 < lo)), p.1 ≠ k := by
      intro p hp
      simp only [List.mem_filter, decide_eq_true_eq] at hp
      omega
    rw [List.append_assoc, SMap.read_append d _ _ k h1, SMap.read_append d _ _ k hmid]
    exact SMap.read_filter d m k _ (fun p hp => by simp; omega)

/-- A splice reads as its new part inside its range. -/
theorem SMap.read_splice_in (d : β) (m mid : SMap β) (lo hi k : Nat) (hlo : lo ≤ k) (hhi : k < hi) :
    SMap.read d (m.splice lo hi mid) k = SMap.read d mid k := by
  unfold SMap.splice
  have h1 : ∀ p ∈ m.filter (fun p => decide (p.1 < lo)), p.1 ≠ k := by
    intro p hp
    simp only [List.mem_filter, decide_eq_true_eq] at hp
    omega
  have h3 : ∀ p ∈ m.filter (fun p => decide (hi ≤ p.1)), p.1 ≠ k := by
    intro p hp
    simp only [List.mem_filter, decide_eq_true_eq] at hp
    omega
  rw [SMap.read_append_left d _ _ k h3, SMap.read_append d _ _ k h1]

/-- A write reads back. -/
@[simp] theorem SMap.read_write_self [DecidableEq β] (d : β) (m : SMap β) (k : Nat) (v : β) : SMap.read d (SMap.write d m k v) k = v := by
  unfold SMap.write
  rw [SMap.read_splice_in d m _ k (k + 1) k (Nat.le_refl k) (Nat.lt_succ_self k)]
  by_cases h : v = d <;> simp [h, SMap.read_cons]

/-- A write leaves every other key alone. -/
theorem SMap.read_write_ne [DecidableEq β] (d e : β) (m : SMap β) (k j : Nat) (v : β) (h : j ≠ k) :
    SMap.read e (SMap.write d m k v) j = SMap.read e m j := by
  unfold SMap.write
  refine SMap.read_splice_out e m _ k (k + 1) j ?_ (by omega) (by omega)
  intro p hp
  by_cases hv : v = d
  · simp [hv] at hp
  · simp [hv] at hp
    subst hp
    simp

/-- What a write leaves at any key. -/
theorem SMap.read_write [DecidableEq β] (d : β) (m : SMap β) (k j : Nat) (v : β) :
    SMap.read d (SMap.write d m k v) j = if j = k then v else SMap.read d m j := by
  by_cases h : j = k
  · subst h; simp
  · simp [h, SMap.read_write_ne d d m k j v h]

/-- A cleared range reads as unlisted; the rest is untouched. -/
theorem SMap.read_clear (d : β) (m : SMap β) (lo hi k : Nat) (h : lo ≤ hi) :
    SMap.read d (SMap.clear m lo hi) k = if lo ≤ k ∧ k < hi then d else SMap.read d m k := by
  unfold SMap.clear
  by_cases hk : lo ≤ k ∧ k < hi
  · rw [SMap.read_splice_in d m [] lo hi k hk.1 hk.2]; simp [hk]
  · rw [SMap.read_splice_out d m [] lo hi k (by simp) (by omega) h]; simp [hk]

/-! ### The canonical form -/

/-- The canonical form of an append whose parts lie apart. -/
theorem SMap.wfFrom_append [DecidableEq β] (d : Nat → β) (m n : SMap β) (lo mid : Nat) (hm : SMap.wfFrom d lo m = true)
    (hn : SMap.wfFrom d mid n = true) (hb : ∀ p ∈ m, p.1 < mid) (hl : lo ≤ mid) : SMap.wfFrom d lo (m ++ n) = true := by
  induction m generalizing lo with
  | nil =>
    simp only [List.nil_append]
    cases n with
    | nil => rfl
    | cons p n =>
      simp only [SMap.wfFrom, Bool.and_eq_true, decide_eq_true_eq] at hn ⊢
      exact ⟨⟨by omega, hn.1.2⟩, hn.2⟩
  | cons p m ih =>
    simp only [List.cons_append, SMap.wfFrom, Bool.and_eq_true, decide_eq_true_eq] at hm ⊢
    have hp := hb p (by simp)
    exact ⟨hm.1, ih (p.1 + 1) hm.2 (fun q hq => hb q (by simp [hq])) hp⟩

/-- Entries of a canonical table lie at or beyond its start. -/
theorem SMap.wfFrom_le [DecidableEq β] (d : Nat → β) (m : SMap β) (lo : Nat) (h : SMap.wfFrom d lo m = true) : ∀ p ∈ m, lo ≤ p.1 := by
  induction m generalizing lo with
  | nil => simp
  | cons q m ih =>
    simp only [SMap.wfFrom, Bool.and_eq_true, decide_eq_true_eq] at h
    intro p hp
    rcases List.mem_cons.1 hp with rfl | hp
    · exact h.1.1
    · have := ih (q.1 + 1) h.2 p hp
      omega

/-- A canonical table is canonical from an earlier start. -/
theorem SMap.wfFrom_mono [DecidableEq β] (d : Nat → β) (m : SMap β) (lo lo' : Nat) (h : SMap.wfFrom d lo m = true) (hl : lo' ≤ lo) :
    SMap.wfFrom d lo' m = true := by
  cases m with
  | nil => rfl
  | cons p m =>
    simp only [SMap.wfFrom, Bool.and_eq_true, decide_eq_true_eq] at h ⊢
    exact ⟨⟨by omega, h.1.2⟩, h.2⟩

/-- Dropping entries keeps the canonical form; from `lo'` on when every kept entry lies there. -/
theorem SMap.wfFrom_filter [DecidableEq β] (d : Nat → β) (m : SMap β) (lo lo' : Nat) (f : Nat × β → Bool)
    (h : SMap.wfFrom d lo m = true) (hf : ∀ p ∈ m, f p = true → lo' ≤ p.1) : SMap.wfFrom d lo' (m.filter f) = true := by
  induction m generalizing lo lo' with
  | nil => rfl
  | cons p m ih =>
    have h' := h
    simp only [SMap.wfFrom, Bool.and_eq_true, decide_eq_true_eq] at h
    by_cases hp : f p = true
    · simp only [List.filter_cons, hp, if_true, SMap.wfFrom, Bool.and_eq_true, decide_eq_true_eq]
      exact ⟨⟨hf p (by simp) hp, h.1.2⟩, ih (p.1 + 1) (p.1 + 1) h.2 (fun q hq _ => SMap.wfFrom_le d m _ h.2 q hq)⟩
    · simp only [List.filter_cons, hp]
      exact ih (p.1 + 1) lo' h.2 (fun q hq => hf q (by simp [hq]))

/-- A splice of a canonical middle keeps the canonical form. -/
theorem SMap.wf_splice [DecidableEq β] (d : Nat → β) (m mid : SMap β) (lo hi : Nat) (h : SMap.wf d m = true)
    (hm : SMap.wfFrom d lo mid = true) (hb : ∀ p ∈ mid, p.1 < hi) (hl : lo ≤ hi) : SMap.wf d (m.splice lo hi mid) = true := by
  unfold SMap.wf SMap.splice at *
  have h3 : SMap.wfFrom d hi (m.filter (fun p => decide (hi ≤ p.1))) = true :=
    SMap.wfFrom_filter d m 0 hi _ h (fun p _ hp => by simpa using hp)
  have h1 : SMap.wfFrom d 0 (m.filter (fun p => decide (p.1 < lo))) = true := SMap.wfFrom_filter d m 0 0 _ h (fun _ _ _ => Nat.zero_le _)
  have h12 : SMap.wfFrom d 0 (m.filter (fun p => decide (p.1 < lo)) ++ mid) = true :=
    SMap.wfFrom_append d _ _ 0 lo h1 hm (fun p hp => by simpa using (List.mem_filter.1 hp).2) (Nat.zero_le _)
  refine SMap.wfFrom_append d _ _ 0 hi h12 h3 ?_ (Nat.zero_le _)
  intro p hp
  rcases List.mem_append.1 hp with hp | hp
  · have : p.1 < lo := by simpa using (List.mem_filter.1 hp).2
    omega
  · exact hb p hp

/-- A write keeps the canonical form. -/
theorem SMap.wf_write [DecidableEq β] (d : Nat → β) (m : SMap β) (k : Nat) (v : β) (h : SMap.wf d m = true) :
    SMap.wf d (SMap.write (d k) m k v) = true := by
  unfold SMap.write
  by_cases hv : v = d k
  · simp only [hv, if_true]
    exact SMap.wf_splice d m [] k (k + 1) h rfl (by simp) (by omega)
  · simp only [hv, if_false]
    exact SMap.wf_splice d m [(k, v)] k (k + 1) h (by simp [SMap.wfFrom, hv]) (by simp) (by omega)

/-- Clearing a range keeps the canonical form. -/
theorem SMap.wf_clear [DecidableEq β] (d : Nat → β) (m : SMap β) (lo hi : Nat) (h : SMap.wf d m = true) (hl : lo ≤ hi) :
    SMap.wf d (SMap.clear m lo hi) = true := SMap.wf_splice d m [] lo hi h rfl (by simp) hl

/-- Entries for consecutive keys are canonical, and lie within them. -/
theorem SMap.wfFrom_ofList [DecidableEq β] (d : β) (k : Nat) (vs : List β) : SMap.wfFrom (fun _ => d) k (SMap.ofList d k vs) = true := by
  induction vs generalizing k with
  | nil => rfl
  | cons v vs ih =>
    unfold SMap.ofList
    by_cases hv : v = d
    · simp only [hv, if_true]
      exact SMap.wfFrom_mono _ _ (k + 1) k (ih (k + 1)) (by omega)
    · simp only [hv, if_false, SMap.wfFrom, Bool.and_eq_true, decide_eq_true_eq]
      exact ⟨⟨Nat.le_refl k, hv⟩, ih (k + 1)⟩

theorem SMap.ofList_bound [DecidableEq β] (d : β) (k : Nat) (vs : List β) : ∀ p ∈ SMap.ofList d k vs, k ≤ p.1 ∧ p.1 < k + vs.length := by
  induction vs generalizing k with
  | nil => simp [SMap.ofList]
  | cons v vs ih =>
    intro p hp
    unfold SMap.ofList at hp
    by_cases hv : v = d
    · simp only [hv, if_true] at hp
      have := ih (k + 1) p hp
      simp only [List.length_cons]
      omega
    · simp only [hv, if_false, List.mem_cons] at hp
      rcases hp with rfl | hp
      · simp
      · have := ih (k + 1) p hp
        simp only [List.length_cons]
        omega

/-- What consecutive entries read as. -/
theorem SMap.read_ofList [DecidableEq β] (d : β) (k j : Nat) (vs : List β) :
    SMap.read d (SMap.ofList d k vs) j = if k ≤ j ∧ j < k + vs.length then vs.getD (j - k) d else d := by
  induction vs generalizing k with
  | nil => simp [SMap.ofList]
  | cons v vs ih =>
    unfold SMap.ofList
    by_cases hj : j = k
    · subst hj
      by_cases hv : v = d
      · rw [if_pos hv, ih, if_neg (by omega), if_pos (by simp)]
        simp [hv]
      · simp [hv, SMap.read_cons]
    · have hs : j - k = (j - (k + 1)) + 1 ∨ j < k := by omega
      by_cases hv : v = d
      · simp only [hv, if_true, ih, List.length_cons]
        rcases hs with hs | hs
        · by_cases hc : k + 1 ≤ j ∧ j < k + 1 + vs.length
          · rw [if_pos hc, if_pos (by omega), hs, List.getD_cons_succ]
          · rw [if_neg hc, if_neg (by omega)]
        · rw [if_neg (by omega), if_neg (by omega)]
      · have hkj : k ≠ j := fun e => hj e.symm
        simp only [hv, if_false, SMap.read_cons, hkj, ih, List.length_cons]
        rcases hs with hs | hs
        · by_cases hc : k + 1 ≤ j ∧ j < k + 1 + vs.length
          · rw [if_pos hc, if_pos (by omega), hs, List.getD_cons_succ]
          · rw [if_neg hc, if_neg (by omega)]
        · rw [if_neg (by omega), if_neg (by omega)]

end Sys2Proof.Machine
end

