-- ==== Sys2Proof/Laws/State.lean ====
section
/-!
SUPPORT. What each update of the state leaves in each field and at each reader, and what a register or a field reads after a write.
-/
namespace Sys2Proof.Machine

variable (s : Dev)

/-! ### setReg -/

@[simp] theorem Dev.setReg_mem (k : RegKind) (i v : Nat) : (s.setReg k i v).mem = s.mem := rfl
@[simp] theorem Dev.setReg_cores (k : RegKind) (i v : Nat) : (s.setReg k i v).cores = s.cores := rfl
@[simp] theorem Dev.setReg_parts (k : RegKind) (i v : Nat) : (s.setReg k i v).parts = s.parts := rfl
@[simp] theorem Dev.setReg_fab (k : RegKind) (i v : Nat) : (s.setReg k i v).fab = s.fab := rfl
@[simp] theorem Dev.setReg_hosts (k : RegKind) (i v : Nat) : (s.setReg k i v).hosts = s.hosts := rfl
@[simp] theorem Dev.setReg_chain (k : RegKind) (i v : Nat) : (s.setReg k i v).chain = s.chain := rfl
@[simp] theorem Dev.setReg_spr (k : RegKind) (i v : Nat) : (s.setReg k i v).spr = s.spr := rfl
@[simp] theorem Dev.setReg_ctl (k : RegKind) (i v : Nat) : (s.setReg k i v).ctl = s.ctl := rfl
@[simp] theorem Dev.setReg_sby (k : RegKind) (i v : Nat) : (s.setReg k i v).sby = s.sby := rfl
@[simp] theorem Dev.setReg_sec (k : RegKind) (i v : Nat) : (s.setReg k i v).sec = s.sec := rfl
@[simp] theorem Dev.setReg_now (k : RegKind) (i v : Nat) : (s.setReg k i v).now = s.now := rfl
@[simp] theorem Dev.setReg_fresh (k : RegKind) (i v : Nat) : (s.setReg k i v).fresh = s.fresh := rfl
@[simp] theorem Dev.setReg_ue (k : RegKind) (i v : Nat) : (s.setReg k i v).ue = s.ue := rfl
@[simp] theorem Dev.setReg_out (k : RegKind) (i v : Nat) : (s.setReg k i v).out = s.out := rfl
@[simp] theorem Dev.setReg_core (k : RegKind) (i v : Nat) (j : Nat) : (s.setReg k i v).core j = s.core j := rfl
@[simp] theorem Dev.setReg_part (k : RegKind) (i v : Nat) (j : Nat) : (s.setReg k i v).part j = s.part j := rfl
@[simp] theorem Dev.setReg_fabPort (k : RegKind) (i v : Nat) (j : Nat) : (s.setReg k i v).fabPort j = s.fabPort j := rfl
@[simp] theorem Dev.setReg_hostPort (k : RegKind) (i v : Nat) (j : Nat) : (s.setReg k i v).hostPort j = s.hostPort j := rfl

/-! ### setFld -/

@[simp] theorem Dev.setFld_mem (f : Fld) (i v : Nat) : (s.setFld f i v).mem = s.mem := rfl
@[simp] theorem Dev.setFld_cores (f : Fld) (i v : Nat) : (s.setFld f i v).cores = s.cores := rfl
@[simp] theorem Dev.setFld_parts (f : Fld) (i v : Nat) : (s.setFld f i v).parts = s.parts := rfl
@[simp] theorem Dev.setFld_fab (f : Fld) (i v : Nat) : (s.setFld f i v).fab = s.fab := rfl
@[simp] theorem Dev.setFld_hosts (f : Fld) (i v : Nat) : (s.setFld f i v).hosts = s.hosts := rfl
@[simp] theorem Dev.setFld_chain (f : Fld) (i v : Nat) : (s.setFld f i v).chain = s.chain := rfl
@[simp] theorem Dev.setFld_spr (f : Fld) (i v : Nat) : (s.setFld f i v).spr = s.spr := rfl
@[simp] theorem Dev.setFld_ctl (f : Fld) (i v : Nat) : (s.setFld f i v).ctl = s.ctl := rfl
@[simp] theorem Dev.setFld_sby (f : Fld) (i v : Nat) : (s.setFld f i v).sby = s.sby := rfl
@[simp] theorem Dev.setFld_sec (f : Fld) (i v : Nat) : (s.setFld f i v).sec = s.sec := rfl
@[simp] theorem Dev.setFld_now (f : Fld) (i v : Nat) : (s.setFld f i v).now = s.now := rfl
@[simp] theorem Dev.setFld_fresh (f : Fld) (i v : Nat) : (s.setFld f i v).fresh = s.fresh := rfl
@[simp] theorem Dev.setFld_ue (f : Fld) (i v : Nat) : (s.setFld f i v).ue = s.ue := rfl
@[simp] theorem Dev.setFld_out (f : Fld) (i v : Nat) : (s.setFld f i v).out = s.out := rfl
@[simp] theorem Dev.setFld_core (f : Fld) (i v : Nat) (j : Nat) : (s.setFld f i v).core j = s.core j := rfl
@[simp] theorem Dev.setFld_part (f : Fld) (i v : Nat) (j : Nat) : (s.setFld f i v).part j = s.part j := rfl
@[simp] theorem Dev.setFld_fabPort (f : Fld) (i v : Nat) (j : Nat) : (s.setFld f i v).fabPort j = s.fabPort j := rfl
@[simp] theorem Dev.setFld_hostPort (f : Fld) (i v : Nat) (j : Nat) : (s.setFld f i v).hostPort j = s.hostPort j := rfl

/-! ### clearReg -/

@[simp] theorem Dev.clearReg_mem (k : RegKind) (i : Nat) : (s.clearReg k i).mem = s.mem := rfl
@[simp] theorem Dev.clearReg_cores (k : RegKind) (i : Nat) : (s.clearReg k i).cores = s.cores := rfl
@[simp] theorem Dev.clearReg_parts (k : RegKind) (i : Nat) : (s.clearReg k i).parts = s.parts := rfl
@[simp] theorem Dev.clearReg_fab (k : RegKind) (i : Nat) : (s.clearReg k i).fab = s.fab := rfl
@[simp] theorem Dev.clearReg_hosts (k : RegKind) (i : Nat) : (s.clearReg k i).hosts = s.hosts := rfl
@[simp] theorem Dev.clearReg_chain (k : RegKind) (i : Nat) : (s.clearReg k i).chain = s.chain := rfl
@[simp] theorem Dev.clearReg_spr (k : RegKind) (i : Nat) : (s.clearReg k i).spr = s.spr := rfl
@[simp] theorem Dev.clearReg_ctl (k : RegKind) (i : Nat) : (s.clearReg k i).ctl = s.ctl := rfl
@[simp] theorem Dev.clearReg_sby (k : RegKind) (i : Nat) : (s.clearReg k i).sby = s.sby := rfl
@[simp] theorem Dev.clearReg_sec (k : RegKind) (i : Nat) : (s.clearReg k i).sec = s.sec := rfl
@[simp] theorem Dev.clearReg_now (k : RegKind) (i : Nat) : (s.clearReg k i).now = s.now := rfl
@[simp] theorem Dev.clearReg_fresh (k : RegKind) (i : Nat) : (s.clearReg k i).fresh = s.fresh := rfl
@[simp] theorem Dev.clearReg_ue (k : RegKind) (i : Nat) : (s.clearReg k i).ue = s.ue := rfl
@[simp] theorem Dev.clearReg_out (k : RegKind) (i : Nat) : (s.clearReg k i).out = s.out := rfl
@[simp] theorem Dev.clearReg_core (k : RegKind) (i : Nat) (j : Nat) : (s.clearReg k i).core j = s.core j := rfl
@[simp] theorem Dev.clearReg_part (k : RegKind) (i : Nat) (j : Nat) : (s.clearReg k i).part j = s.part j := rfl
@[simp] theorem Dev.clearReg_fabPort (k : RegKind) (i : Nat) (j : Nat) : (s.clearReg k i).fabPort j = s.fabPort j := rfl
@[simp] theorem Dev.clearReg_hostPort (k : RegKind) (i : Nat) (j : Nat) : (s.clearReg k i).hostPort j = s.hostPort j := rfl

/-! ### setCore -/

@[simp] theorem Dev.setCore_regs (c : Nat) (x : Core) : (s.setCore c x).regs = s.regs := rfl
@[simp] theorem Dev.setCore_mem (c : Nat) (x : Core) : (s.setCore c x).mem = s.mem := rfl
@[simp] theorem Dev.setCore_parts (c : Nat) (x : Core) : (s.setCore c x).parts = s.parts := rfl
@[simp] theorem Dev.setCore_fab (c : Nat) (x : Core) : (s.setCore c x).fab = s.fab := rfl
@[simp] theorem Dev.setCore_hosts (c : Nat) (x : Core) : (s.setCore c x).hosts = s.hosts := rfl
@[simp] theorem Dev.setCore_chain (c : Nat) (x : Core) : (s.setCore c x).chain = s.chain := rfl
@[simp] theorem Dev.setCore_spr (c : Nat) (x : Core) : (s.setCore c x).spr = s.spr := rfl
@[simp] theorem Dev.setCore_ctl (c : Nat) (x : Core) : (s.setCore c x).ctl = s.ctl := rfl
@[simp] theorem Dev.setCore_sby (c : Nat) (x : Core) : (s.setCore c x).sby = s.sby := rfl
@[simp] theorem Dev.setCore_sec (c : Nat) (x : Core) : (s.setCore c x).sec = s.sec := rfl
@[simp] theorem Dev.setCore_now (c : Nat) (x : Core) : (s.setCore c x).now = s.now := rfl
@[simp] theorem Dev.setCore_fresh (c : Nat) (x : Core) : (s.setCore c x).fresh = s.fresh := rfl
@[simp] theorem Dev.setCore_ue (c : Nat) (x : Core) : (s.setCore c x).ue = s.ue := rfl
@[simp] theorem Dev.setCore_out (c : Nat) (x : Core) : (s.setCore c x).out = s.out := rfl
@[simp] theorem Dev.setCore_reg (c : Nat) (x : Core) (k' : RegKind) (j : Nat) : (s.setCore c x).reg k' j = s.reg k' j := rfl
@[simp] theorem Dev.setCore_fld (c : Nat) (x : Core) (f' : Fld) (j : Nat) : (s.setCore c x).fld f' j = s.fld f' j := rfl
@[simp] theorem Dev.setCore_flag (c : Nat) (x : Core) (f' : Fld) (j : Nat) : (s.setCore c x).flag f' j = s.flag f' j := rfl
@[simp] theorem Dev.setCore_part (c : Nat) (x : Core) (j : Nat) : (s.setCore c x).part j = s.part j := rfl
@[simp] theorem Dev.setCore_fabPort (c : Nat) (x : Core) (j : Nat) : (s.setCore c x).fabPort j = s.fabPort j := rfl
@[simp] theorem Dev.setCore_hostPort (c : Nat) (x : Core) (j : Nat) : (s.setCore c x).hostPort j = s.hostPort j := rfl

/-! ### setPart -/

@[simp] theorem Dev.setPart_regs (p : Nat) (x : Part) : (s.setPart p x).regs = s.regs := rfl
@[simp] theorem Dev.setPart_mem (p : Nat) (x : Part) : (s.setPart p x).mem = s.mem := rfl
@[simp] theorem Dev.setPart_cores (p : Nat) (x : Part) : (s.setPart p x).cores = s.cores := rfl
@[simp] theorem Dev.setPart_fab (p : Nat) (x : Part) : (s.setPart p x).fab = s.fab := rfl
@[simp] theorem Dev.setPart_hosts (p : Nat) (x : Part) : (s.setPart p x).hosts = s.hosts := rfl
@[simp] theorem Dev.setPart_chain (p : Nat) (x : Part) : (s.setPart p x).chain = s.chain := rfl
@[simp] theorem Dev.setPart_spr (p : Nat) (x : Part) : (s.setPart p x).spr = s.spr := rfl
@[simp] theorem Dev.setPart_ctl (p : Nat) (x : Part) : (s.setPart p x).ctl = s.ctl := rfl
@[simp] theorem Dev.setPart_sby (p : Nat) (x : Part) : (s.setPart p x).sby = s.sby := rfl
@[simp] theorem Dev.setPart_sec (p : Nat) (x : Part) : (s.setPart p x).sec = s.sec := rfl
@[simp] theorem Dev.setPart_now (p : Nat) (x : Part) : (s.setPart p x).now = s.now := rfl
@[simp] theorem Dev.setPart_fresh (p : Nat) (x : Part) : (s.setPart p x).fresh = s.fresh := rfl
@[simp] theorem Dev.setPart_ue (p : Nat) (x : Part) : (s.setPart p x).ue = s.ue := rfl
@[simp] theorem Dev.setPart_out (p : Nat) (x : Part) : (s.setPart p x).out = s.out := rfl
@[simp] theorem Dev.setPart_reg (p : Nat) (x : Part) (k' : RegKind) (j : Nat) : (s.setPart p x).reg k' j = s.reg k' j := rfl
@[simp] theorem Dev.setPart_fld (p : Nat) (x : Part) (f' : Fld) (j : Nat) : (s.setPart p x).fld f' j = s.fld f' j := rfl
@[simp] theorem Dev.setPart_flag (p : Nat) (x : Part) (f' : Fld) (j : Nat) : (s.setPart p x).flag f' j = s.flag f' j := rfl
@[simp] theorem Dev.setPart_core (p : Nat) (x : Part) (j : Nat) : (s.setPart p x).core j = s.core j := rfl
@[simp] theorem Dev.setPart_fabPort (p : Nat) (x : Part) (j : Nat) : (s.setPart p x).fabPort j = s.fabPort j := rfl
@[simp] theorem Dev.setPart_hostPort (p : Nat) (x : Part) (j : Nat) : (s.setPart p x).hostPort j = s.hostPort j := rfl

/-! ### setFab -/

@[simp] theorem Dev.setFab_regs (p : Nat) (x : FabPortSt) : (s.setFab p x).regs = s.regs := rfl
@[simp] theorem Dev.setFab_mem (p : Nat) (x : FabPortSt) : (s.setFab p x).mem = s.mem := rfl
@[simp] theorem Dev.setFab_cores (p : Nat) (x : FabPortSt) : (s.setFab p x).cores = s.cores := rfl
@[simp] theorem Dev.setFab_parts (p : Nat) (x : FabPortSt) : (s.setFab p x).parts = s.parts := rfl
@[simp] theorem Dev.setFab_hosts (p : Nat) (x : FabPortSt) : (s.setFab p x).hosts = s.hosts := rfl
@[simp] theorem Dev.setFab_chain (p : Nat) (x : FabPortSt) : (s.setFab p x).chain = s.chain := rfl
@[simp] theorem Dev.setFab_spr (p : Nat) (x : FabPortSt) : (s.setFab p x).spr = s.spr := rfl
@[simp] theorem Dev.setFab_ctl (p : Nat) (x : FabPortSt) : (s.setFab p x).ctl = s.ctl := rfl
@[simp] theorem Dev.setFab_sby (p : Nat) (x : FabPortSt) : (s.setFab p x).sby = s.sby := rfl
@[simp] theorem Dev.setFab_sec (p : Nat) (x : FabPortSt) : (s.setFab p x).sec = s.sec := rfl
@[simp] theorem Dev.setFab_now (p : Nat) (x : FabPortSt) : (s.setFab p x).now = s.now := rfl
@[simp] theorem Dev.setFab_fresh (p : Nat) (x : FabPortSt) : (s.setFab p x).fresh = s.fresh := rfl
@[simp] theorem Dev.setFab_ue (p : Nat) (x : FabPortSt) : (s.setFab p x).ue = s.ue := rfl
@[simp] theorem Dev.setFab_out (p : Nat) (x : FabPortSt) : (s.setFab p x).out = s.out := rfl
@[simp] theorem Dev.setFab_reg (p : Nat) (x : FabPortSt) (k' : RegKind) (j : Nat) : (s.setFab p x).reg k' j = s.reg k' j := rfl
@[simp] theorem Dev.setFab_fld (p : Nat) (x : FabPortSt) (f' : Fld) (j : Nat) : (s.setFab p x).fld f' j = s.fld f' j := rfl
@[simp] theorem Dev.setFab_flag (p : Nat) (x : FabPortSt) (f' : Fld) (j : Nat) : (s.setFab p x).flag f' j = s.flag f' j := rfl
@[simp] theorem Dev.setFab_core (p : Nat) (x : FabPortSt) (j : Nat) : (s.setFab p x).core j = s.core j := rfl
@[simp] theorem Dev.setFab_part (p : Nat) (x : FabPortSt) (j : Nat) : (s.setFab p x).part j = s.part j := rfl
@[simp] theorem Dev.setFab_hostPort (p : Nat) (x : FabPortSt) (j : Nat) : (s.setFab p x).hostPort j = s.hostPort j := rfl

/-! ### setHost -/

@[simp] theorem Dev.setHost_regs (p : Nat) (x : HostPortSt) : (s.setHost p x).regs = s.regs := rfl
@[simp] theorem Dev.setHost_mem (p : Nat) (x : HostPortSt) : (s.setHost p x).mem = s.mem := rfl
@[simp] theorem Dev.setHost_cores (p : Nat) (x : HostPortSt) : (s.setHost p x).cores = s.cores := rfl
@[simp] theorem Dev.setHost_parts (p : Nat) (x : HostPortSt) : (s.setHost p x).parts = s.parts := rfl
@[simp] theorem Dev.setHost_fab (p : Nat) (x : HostPortSt) : (s.setHost p x).fab = s.fab := rfl
@[simp] theorem Dev.setHost_chain (p : Nat) (x : HostPortSt) : (s.setHost p x).chain = s.chain := rfl
@[simp] theorem Dev.setHost_spr (p : Nat) (x : HostPortSt) : (s.setHost p x).spr = s.spr := rfl
@[simp] theorem Dev.setHost_ctl (p : Nat) (x : HostPortSt) : (s.setHost p x).ctl = s.ctl := rfl
@[simp] theorem Dev.setHost_sby (p : Nat) (x : HostPortSt) : (s.setHost p x).sby = s.sby := rfl
@[simp] theorem Dev.setHost_sec (p : Nat) (x : HostPortSt) : (s.setHost p x).sec = s.sec := rfl
@[simp] theorem Dev.setHost_now (p : Nat) (x : HostPortSt) : (s.setHost p x).now = s.now := rfl
@[simp] theorem Dev.setHost_fresh (p : Nat) (x : HostPortSt) : (s.setHost p x).fresh = s.fresh := rfl
@[simp] theorem Dev.setHost_ue (p : Nat) (x : HostPortSt) : (s.setHost p x).ue = s.ue := rfl
@[simp] theorem Dev.setHost_out (p : Nat) (x : HostPortSt) : (s.setHost p x).out = s.out := rfl
@[simp] theorem Dev.setHost_reg (p : Nat) (x : HostPortSt) (k' : RegKind) (j : Nat) : (s.setHost p x).reg k' j = s.reg k' j := rfl
@[simp] theorem Dev.setHost_fld (p : Nat) (x : HostPortSt) (f' : Fld) (j : Nat) : (s.setHost p x).fld f' j = s.fld f' j := rfl
@[simp] theorem Dev.setHost_flag (p : Nat) (x : HostPortSt) (f' : Fld) (j : Nat) : (s.setHost p x).flag f' j = s.flag f' j := rfl
@[simp] theorem Dev.setHost_core (p : Nat) (x : HostPortSt) (j : Nat) : (s.setHost p x).core j = s.core j := rfl
@[simp] theorem Dev.setHost_part (p : Nat) (x : HostPortSt) (j : Nat) : (s.setHost p x).part j = s.part j := rfl
@[simp] theorem Dev.setHost_fabPort (p : Nat) (x : HostPortSt) (j : Nat) : (s.setHost p x).fabPort j = s.fabPort j := rfl

/-! ### emit -/

@[simp] theorem Dev.emit_regs (o : Out) : (s.emit o).regs = s.regs := rfl
@[simp] theorem Dev.emit_mem (o : Out) : (s.emit o).mem = s.mem := rfl
@[simp] theorem Dev.emit_cores (o : Out) : (s.emit o).cores = s.cores := rfl
@[simp] theorem Dev.emit_parts (o : Out) : (s.emit o).parts = s.parts := rfl
@[simp] theorem Dev.emit_fab (o : Out) : (s.emit o).fab = s.fab := rfl
@[simp] theorem Dev.emit_hosts (o : Out) : (s.emit o).hosts = s.hosts := rfl
@[simp] theorem Dev.emit_chain (o : Out) : (s.emit o).chain = s.chain := rfl
@[simp] theorem Dev.emit_spr (o : Out) : (s.emit o).spr = s.spr := rfl
@[simp] theorem Dev.emit_ctl (o : Out) : (s.emit o).ctl = s.ctl := rfl
@[simp] theorem Dev.emit_sby (o : Out) : (s.emit o).sby = s.sby := rfl
@[simp] theorem Dev.emit_sec (o : Out) : (s.emit o).sec = s.sec := rfl
@[simp] theorem Dev.emit_now (o : Out) : (s.emit o).now = s.now := rfl
@[simp] theorem Dev.emit_fresh (o : Out) : (s.emit o).fresh = s.fresh := rfl
@[simp] theorem Dev.emit_ue (o : Out) : (s.emit o).ue = s.ue := rfl
@[simp] theorem Dev.emit_reg (o : Out) (k' : RegKind) (j : Nat) : (s.emit o).reg k' j = s.reg k' j := rfl
@[simp] theorem Dev.emit_fld (o : Out) (f' : Fld) (j : Nat) : (s.emit o).fld f' j = s.fld f' j := rfl
@[simp] theorem Dev.emit_flag (o : Out) (f' : Fld) (j : Nat) : (s.emit o).flag f' j = s.flag f' j := rfl
@[simp] theorem Dev.emit_core (o : Out) (j : Nat) : (s.emit o).core j = s.core j := rfl
@[simp] theorem Dev.emit_part (o : Out) (j : Nat) : (s.emit o).part j = s.part j := rfl
@[simp] theorem Dev.emit_fabPort (o : Out) (j : Nat) : (s.emit o).fabPort j = s.fabPort j := rfl
@[simp] theorem Dev.emit_hostPort (o : Out) (j : Nat) : (s.emit o).hostPort j = s.hostPort j := rfl

/-! ### setMem -/

@[simp] theorem Dev.setMem_regs (m : Memory) : (s.setMem m).regs = s.regs := rfl
@[simp] theorem Dev.setMem_cores (m : Memory) : (s.setMem m).cores = s.cores := rfl
@[simp] theorem Dev.setMem_parts (m : Memory) : (s.setMem m).parts = s.parts := rfl
@[simp] theorem Dev.setMem_fab (m : Memory) : (s.setMem m).fab = s.fab := rfl
@[simp] theorem Dev.setMem_hosts (m : Memory) : (s.setMem m).hosts = s.hosts := rfl
@[simp] theorem Dev.setMem_chain (m : Memory) : (s.setMem m).chain = s.chain := rfl
@[simp] theorem Dev.setMem_spr (m : Memory) : (s.setMem m).spr = s.spr := rfl
@[simp] theorem Dev.setMem_ctl (m : Memory) : (s.setMem m).ctl = s.ctl := rfl
@[simp] theorem Dev.setMem_sby (m : Memory) : (s.setMem m).sby = s.sby := rfl
@[simp] theorem Dev.setMem_sec (m : Memory) : (s.setMem m).sec = s.sec := rfl
@[simp] theorem Dev.setMem_now (m : Memory) : (s.setMem m).now = s.now := rfl
@[simp] theorem Dev.setMem_fresh (m : Memory) : (s.setMem m).fresh = s.fresh := rfl
@[simp] theorem Dev.setMem_ue (m : Memory) : (s.setMem m).ue = s.ue := rfl
@[simp] theorem Dev.setMem_out (m : Memory) : (s.setMem m).out = s.out := rfl
@[simp] theorem Dev.setMem_reg (m : Memory) (k' : RegKind) (j : Nat) : (s.setMem m).reg k' j = s.reg k' j := rfl
@[simp] theorem Dev.setMem_fld (m : Memory) (f' : Fld) (j : Nat) : (s.setMem m).fld f' j = s.fld f' j := rfl
@[simp] theorem Dev.setMem_flag (m : Memory) (f' : Fld) (j : Nat) : (s.setMem m).flag f' j = s.flag f' j := rfl
@[simp] theorem Dev.setMem_core (m : Memory) (j : Nat) : (s.setMem m).core j = s.core j := rfl
@[simp] theorem Dev.setMem_part (m : Memory) (j : Nat) : (s.setMem m).part j = s.part j := rfl
@[simp] theorem Dev.setMem_fabPort (m : Memory) (j : Nat) : (s.setMem m).fabPort j = s.fabPort j := rfl
@[simp] theorem Dev.setMem_hostPort (m : Memory) (j : Nat) : (s.setMem m).hostPort j = s.hostPort j := rfl

/-! ### zero -/

@[simp] theorem Dev.zero_regs (lo hi : Nat) : (s.zero lo hi).regs = s.regs := rfl
@[simp] theorem Dev.zero_cores (lo hi : Nat) : (s.zero lo hi).cores = s.cores := rfl
@[simp] theorem Dev.zero_parts (lo hi : Nat) : (s.zero lo hi).parts = s.parts := rfl
@[simp] theorem Dev.zero_fab (lo hi : Nat) : (s.zero lo hi).fab = s.fab := rfl
@[simp] theorem Dev.zero_hosts (lo hi : Nat) : (s.zero lo hi).hosts = s.hosts := rfl
@[simp] theorem Dev.zero_chain (lo hi : Nat) : (s.zero lo hi).chain = s.chain := rfl
@[simp] theorem Dev.zero_spr (lo hi : Nat) : (s.zero lo hi).spr = s.spr := rfl
@[simp] theorem Dev.zero_ctl (lo hi : Nat) : (s.zero lo hi).ctl = s.ctl := rfl
@[simp] theorem Dev.zero_sby (lo hi : Nat) : (s.zero lo hi).sby = s.sby := rfl
@[simp] theorem Dev.zero_sec (lo hi : Nat) : (s.zero lo hi).sec = s.sec := rfl
@[simp] theorem Dev.zero_now (lo hi : Nat) : (s.zero lo hi).now = s.now := rfl
@[simp] theorem Dev.zero_fresh (lo hi : Nat) : (s.zero lo hi).fresh = s.fresh := rfl
@[simp] theorem Dev.zero_ue (lo hi : Nat) : (s.zero lo hi).ue = s.ue := rfl
@[simp] theorem Dev.zero_out (lo hi : Nat) : (s.zero lo hi).out = s.out := rfl
@[simp] theorem Dev.zero_reg (lo hi : Nat) (k' : RegKind) (j : Nat) : (s.zero lo hi).reg k' j = s.reg k' j := rfl
@[simp] theorem Dev.zero_fld (lo hi : Nat) (f' : Fld) (j : Nat) : (s.zero lo hi).fld f' j = s.fld f' j := rfl
@[simp] theorem Dev.zero_flag (lo hi : Nat) (f' : Fld) (j : Nat) : (s.zero lo hi).flag f' j = s.flag f' j := rfl
@[simp] theorem Dev.zero_core (lo hi : Nat) (j : Nat) : (s.zero lo hi).core j = s.core j := rfl
@[simp] theorem Dev.zero_part (lo hi : Nat) (j : Nat) : (s.zero lo hi).part j = s.part j := rfl
@[simp] theorem Dev.zero_fabPort (lo hi : Nat) (j : Nat) : (s.zero lo hi).fabPort j = s.fabPort j := rfl
@[simp] theorem Dev.zero_hostPort (lo hi : Nat) (j : Nat) : (s.zero lo hi).hostPort j = s.hostPort j := rfl

/-! ### What was written reads back -/

@[simp] theorem Dev.setCore_self (c : Nat) (x : Core) : (s.setCore c x).core c = x := SMap.read_write_self _ _ _ _
@[simp] theorem Dev.setPart_self (p : Nat) (x : Part) : (s.setPart p x).part p = x := SMap.read_write_self _ _ _ _
@[simp] theorem Dev.setFab_self (p : Nat) (x : FabPortSt) : (s.setFab p x).fabPort p = x := SMap.read_write_self _ _ _ _
@[simp] theorem Dev.setHost_self (p : Nat) (x : HostPortSt) : (s.setHost p x).hostPort p = x := SMap.read_write_self _ _ _ _

theorem Dev.setCore_ne (c j : Nat) (x : Core) (h : j ≠ c) : (s.setCore c x).core j = s.core j := SMap.read_write_ne _ _ _ _ _ _ h
theorem Dev.setPart_ne (p j : Nat) (x : Part) (h : j ≠ p) : (s.setPart p x).part j = s.part j := SMap.read_write_ne _ _ _ _ _ _ h
theorem Dev.setFab_ne (p j : Nat) (x : FabPortSt) (h : j ≠ p) : (s.setFab p x).fabPort j = s.fabPort j := SMap.read_write_ne _ _ _ _ _ _ h
theorem Dev.setHost_ne (p j : Nat) (x : HostPortSt) (h : j ≠ p) : (s.setHost p x).hostPort j = s.hostPort j := SMap.read_write_ne _ _ _ _ _ _ h

/-! ### Registers -/

theorem RegKind.num_lt (k : RegKind) : k.num < 1024 := by cases k <;> decide

theorem RegKind.num_inj (k k' : RegKind) (h : k.num = k'.num) : k = k' := by
  have e : ∀ j : RegKind, allRegs[j.num]? = some j := by intro j; cases j <;> rfl
  have h1 := e k
  rw [h, e k'] at h1
  exact (Option.some.inj h1).symm

/-- Different registers have different keys. -/
theorem regKey_inj (k k' : RegKind) (i i' : Nat) (h : regKey k i = regKey k' i') : k = k' ∧ i = i' := by
  have h1 := k.num_lt
  have h2 := k'.num_lt
  unfold regKey at h
  have e : k.num = k'.num := by omega
  exact ⟨RegKind.num_inj k k' e, by omega⟩

/-- A register reads back what was written, in its 64 bits. -/
theorem Dev.reg_setReg_self (k : RegKind) (i v : Nat) : (s.setReg k i v).reg k i = v % 2 ^ 64 := by
  simp [Dev.reg, Dev.setReg, BitVec.toNat_ofNat]

/-- A write of a register leaves every other register alone. -/
theorem Dev.reg_setReg_ne (k k' : RegKind) (i i' v : Nat) (h : ¬(k' = k ∧ i' = i)) : (s.setReg k i v).reg k' i' = s.reg k' i' := by
  unfold Dev.reg Dev.setReg
  rw [SMap.read_write_ne]
  intro e
  exact h (regKey_inj _ _ _ _ e)

theorem Dev.reg_setReg_kind (k k' : RegKind) (i i' v : Nat) (h : k' ≠ k) : (s.setReg k i v).reg k' i' = s.reg k' i' :=
  s.reg_setReg_ne k k' i i' v (fun e => h e.1)

theorem Dev.reg_lt (k : RegKind) (i : Nat) : s.reg k i < 2 ^ 64 := BitVec.isLt _

theorem Dev.reg_setFld_kind (f : Fld) (k' : RegKind) (i i' v : Nat) (h : k' ≠ f.reg) : (s.setFld f i v).reg k' i' = s.reg k' i' :=
  s.reg_setReg_kind f.reg k' i i' _ h

theorem Dev.reg_setFld_ne (f : Fld) (k' : RegKind) (i i' v : Nat) (h : ¬(k' = f.reg ∧ i' = i)) : (s.setFld f i v).reg k' i' = s.reg k' i' :=
  s.reg_setReg_ne f.reg k' i i' _ h

theorem Dev.fld_setReg_kind (f : Fld) (k : RegKind) (i i' v : Nat) (h : f.reg ≠ k) : (s.setReg k i v).fld f i' = s.fld f i' := by
  unfold Dev.fld
  rw [s.reg_setReg_kind k f.reg i i' v h]

theorem Dev.fld_setFld_kind (f g : Fld) (i i' v : Nat) (h : g.reg ≠ f.reg) : (s.setFld f i v).fld g i' = s.fld g i' :=
  s.fld_setReg_kind g f.reg i i' _ h

theorem Dev.fld_setFld_inst (f g : Fld) (i i' v : Nat) (h : i' ≠ i) : (s.setFld f i v).fld g i' = s.fld g i' := by
  unfold Dev.fld
  rw [s.reg_setFld_ne f g.reg i i' v (fun e => h e.2)]

/-- The bits put in a place are those read there. -/
theorem putBits_self (n lo width v : Nat) : putBits n lo width v / 2 ^ lo % 2 ^ width = v % 2 ^ width := by
  unfold putBits
  have hp : 0 < 2 ^ lo := Nat.pow_pos (by decide)
  have e : n / 2 ^ (lo + width) * 2 ^ (lo + width) + v % 2 ^ width * 2 ^ lo + n % 2 ^ lo
      = n % 2 ^ lo + 2 ^ lo * (v % 2 ^ width + 2 ^ width * (n / 2 ^ (lo + width))) := by
    rw [Nat.pow_add]
    ring
  rw [e, Nat.add_mul_div_left _ _ hp, Nat.div_eq_of_lt (Nat.mod_lt _ hp), Nat.zero_add, Nat.add_mul_mod_self_left, Nat.mod_mod]

theorem putBits_lt (n lo width v : Nat) (hn : n < 2 ^ 64) (h : lo + width ≤ 64) : putBits n lo width v < 2 ^ 64 := by
  unfold putBits
  have hp : 0 < 2 ^ lo := Nat.pow_pos (by decide)
  have hw : 0 < 2 ^ width := Nat.pow_pos (by decide)
  have hq : n / 2 ^ (lo + width) < 2 ^ (64 - (lo + width)) := by
    rw [Nat.div_lt_iff_lt_mul (Nat.pow_pos (by decide)), ← Nat.pow_add]
    have : 64 - (lo + width) + (lo + width) = 64 := by omega
    rw [this]; exact hn
  have h1 : n % 2 ^ lo < 2 ^ lo := Nat.mod_lt _ hp
  have h2 : v % 2 ^ width < 2 ^ width := Nat.mod_lt _ hw
  have h3 : v % 2 ^ width * 2 ^ lo + n % 2 ^ lo < 2 ^ (lo + width) := by
    rw [Nat.pow_add, Nat.mul_comm (2 ^ lo)]
    calc v % 2 ^ width * 2 ^ lo + n % 2 ^ lo < v % 2 ^ width * 2 ^ lo + 2 ^ lo := by omega
      _ = (v % 2 ^ width + 1) * 2 ^ lo := by ring
      _ ≤ 2 ^ width * 2 ^ lo := Nat.mul_le_mul_right _ h2
  have h4 : 2 ^ (64 - (lo + width)) * 2 ^ (lo + width) = 2 ^ 64 := by
    rw [← Nat.pow_add]
    congr 1
    omega
  calc n / 2 ^ (lo + width) * 2 ^ (lo + width) + v % 2 ^ width * 2 ^ lo + n % 2 ^ lo
      < n / 2 ^ (lo + width) * 2 ^ (lo + width) + 2 ^ (lo + width) := by omega
    _ = (n / 2 ^ (lo + width) + 1) * 2 ^ (lo + width) := by ring
    _ ≤ 2 ^ (64 - (lo + width)) * 2 ^ (lo + width) := Nat.mul_le_mul_right _ hq
    _ = 2 ^ 64 := h4

/-- A field reads back what was written, in its width. -/
theorem Dev.fld_setFld_self (f : Fld) (i v : Nat) (h : f.lo + f.width ≤ 64) : (s.setFld f i v).fld f i = v % 2 ^ f.width := by
  unfold Dev.fld Dev.setFld
  rw [Dev.reg_setReg_self, Nat.mod_eq_of_lt (putBits_lt _ _ _ _ (s.reg_lt f.reg i) h), putBits_self]

/-- Bits below a field stay as they were. -/
theorem putBits_below (n lo width v lo' w' : Nat) (h : lo' + w' ≤ lo) : putBits n lo width v / 2 ^ lo' % 2 ^ w' = n / 2 ^ lo' % 2 ^ w' := by
  unfold putBits
  obtain ⟨k, rfl⟩ := Nat.exists_eq_add_of_le h
  have e : n / 2 ^ (lo' + w' + k + width) * 2 ^ (lo' + w' + k + width) + v % 2 ^ width * 2 ^ (lo' + w' + k) + n % 2 ^ (lo' + w' + k)
      = n % 2 ^ (lo' + w' + k) + 2 ^ lo' * (2 ^ w' * (2 ^ k * (v % 2 ^ width + 2 ^ width * (n / 2 ^ (lo' + w' + k + width))))) := by
    rw [Nat.pow_add, Nat.pow_add, Nat.pow_add]
    ring
  have hp : 0 < 2 ^ lo' := Nat.pow_pos (by decide)
  rw [e, Nat.add_mul_div_left _ _ hp, Nat.add_mul_mod_self_left]
  have : 2 ^ (lo' + w' + k) = 2 ^ lo' * (2 ^ w' * 2 ^ k) := by rw [Nat.pow_add, Nat.pow_add]; ring
  rw [this, Nat.mod_mul_right_div_self, Nat.mod_mul_right_mod]

/-- Bits above a field stay as they were. -/
theorem putBits_above (n lo width v lo' : Nat) (h : lo + width ≤ lo') : putBits n lo width v / 2 ^ lo' = n / 2 ^ lo' := by
  unfold putBits
  obtain ⟨k, rfl⟩ := Nat.exists_eq_add_of_le h
  have hp : 0 < 2 ^ lo := Nat.pow_pos (by decide)
  have hl : v % 2 ^ width * 2 ^ lo + n % 2 ^ lo < 2 ^ (lo + width) := by
    rw [Nat.pow_add, Nat.mul_comm (2 ^ lo)]
    have h1 : n % 2 ^ lo < 2 ^ lo := Nat.mod_lt _ hp
    have h2 : v % 2 ^ width < 2 ^ width := Nat.mod_lt _ (Nat.pow_pos (by decide))
    calc v % 2 ^ width * 2 ^ lo + n % 2 ^ lo < v % 2 ^ width * 2 ^ lo + 2 ^ lo := by omega
      _ = (v % 2 ^ width + 1) * 2 ^ lo := by ring
      _ ≤ 2 ^ width * 2 ^ lo := Nat.mul_le_mul_right _ h2
  rw [Nat.pow_add 2 (lo + width) k, ← Nat.div_div_eq_div_mul, ← Nat.div_div_eq_div_mul, Nat.add_assoc, Nat.mul_comm (n / 2 ^ (lo + width)),
    Nat.mul_add_div (Nat.pow_pos (by decide)), Nat.div_eq_of_lt hl, Nat.add_zero]

/-- A write of a field leaves the other fields of its register alone. -/
theorem Dev.fld_setFld_apart (f g : Fld) (i i' v : Nat) (h : f.lo + f.width ≤ 64) (hr : g.lo + g.width ≤ f.lo ∨ f.lo + f.width ≤ g.lo) :
    (s.setFld f i v).fld g i' = s.fld g i' := by
  by_cases hk : g.reg = f.reg ∧ i' = i
  · unfold Dev.fld Dev.setFld
    rw [hk.1, hk.2, Dev.reg_setReg_self, Nat.mod_eq_of_lt (putBits_lt _ _ _ _ (s.reg_lt f.reg i) h)]
    rcases hr with hr | hr
    · rw [putBits_below _ _ _ _ _ _ hr]
    · rw [putBits_above _ _ _ _ _ hr]
  · unfold Dev.fld
    rw [s.reg_setFld_ne f g.reg i i' v hk]

/-! ### At reset -/

@[simp] theorem Dev.reset_reg (k : RegKind) (i : Nat) : Dev.reset.reg k i = (BitVec.ofNat 64 (regReset k i)).toNat := rfl
@[simp] theorem Dev.reset_core (c : Nat) : Dev.reset.core c = {} := rfl
@[simp] theorem Dev.reset_part (p : Nat) : Dev.reset.part p = {} := rfl

/-! ### A command in which reads report uncorrectable errors -/

@[simp] theorem Dev.withUe_regs (ue : List Nat) (f : Dev → Dev) : (s.withUe ue f).regs = (f { s with ue := ue }).regs := rfl
@[simp] theorem Dev.withUe_mem (ue : List Nat) (f : Dev → Dev) : (s.withUe ue f).mem = (f { s with ue := ue }).mem := rfl
@[simp] theorem Dev.withUe_cores (ue : List Nat) (f : Dev → Dev) : (s.withUe ue f).cores = (f { s with ue := ue }).cores := rfl
@[simp] theorem Dev.withUe_parts (ue : List Nat) (f : Dev → Dev) : (s.withUe ue f).parts = (f { s with ue := ue }).parts := rfl
@[simp] theorem Dev.withUe_fab (ue : List Nat) (f : Dev → Dev) : (s.withUe ue f).fab = (f { s with ue := ue }).fab := rfl
@[simp] theorem Dev.withUe_hosts (ue : List Nat) (f : Dev → Dev) : (s.withUe ue f).hosts = (f { s with ue := ue }).hosts := rfl
@[simp] theorem Dev.withUe_chain (ue : List Nat) (f : Dev → Dev) : (s.withUe ue f).chain = (f { s with ue := ue }).chain := rfl
@[simp] theorem Dev.withUe_spr (ue : List Nat) (f : Dev → Dev) : (s.withUe ue f).spr = (f { s with ue := ue }).spr := rfl
@[simp] theorem Dev.withUe_ctl (ue : List Nat) (f : Dev → Dev) : (s.withUe ue f).ctl = (f { s with ue := ue }).ctl := rfl
@[simp] theorem Dev.withUe_sby (ue : List Nat) (f : Dev → Dev) : (s.withUe ue f).sby = (f { s with ue := ue }).sby := rfl
@[simp] theorem Dev.withUe_sec (ue : List Nat) (f : Dev → Dev) : (s.withUe ue f).sec = (f { s with ue := ue }).sec := rfl
@[simp] theorem Dev.withUe_now (ue : List Nat) (f : Dev → Dev) : (s.withUe ue f).now = (f { s with ue := ue }).now := rfl
@[simp] theorem Dev.withUe_fresh (ue : List Nat) (f : Dev → Dev) : (s.withUe ue f).fresh = (f { s with ue := ue }).fresh := rfl
@[simp] theorem Dev.withUe_out (ue : List Nat) (f : Dev → Dev) : (s.withUe ue f).out = (f { s with ue := ue }).out := rfl
@[simp] theorem Dev.withUe_ue (ue : List Nat) (f : Dev → Dev) : (s.withUe ue f).ue = [] := rfl
@[simp] theorem Dev.withUe_reg (ue : List Nat) (f : Dev → Dev) (k : RegKind) (i : Nat) : (s.withUe ue f).reg k i = (f { s with ue := ue }).reg k i := rfl
@[simp] theorem Dev.withUe_core (ue : List Nat) (f : Dev → Dev) (c : Nat) : (s.withUe ue f).core c = (f { s with ue := ue }).core c := rfl
@[simp] theorem Dev.withUe_part (ue : List Nat) (f : Dev → Dev) (p : Nat) : (s.withUe ue f).part p = (f { s with ue := ue }).part p := rfl

end Sys2Proof.Machine
end

