-- ==== Sys2Proof/Laws/Events.lean ====
section
/-!
SUPPORT. What events, interrupts and counters leave alone.
-/
namespace Sys2Proof.Machine

theorem Quiet.refl (s : Dev) : Quiet s s := ⟨fun _ _ _ => rfl, rfl, rfl, rfl, rfl, rfl, rfl, rfl, rfl, rfl, rfl, rfl, rfl⟩

theorem Quiet.trans {s t u : Dev} (h : Quiet s t) (g : Quiet t u) : Quiet s u :=
  ⟨fun k i hk => (g.reg k i hk).trans (h.reg k i hk), g.mem.trans h.mem, g.cores.trans h.cores, g.parts.trans h.parts, g.fab.trans h.fab,
    g.chain.trans h.chain, g.spr.trans h.spr, g.ctl.trans h.ctl, g.sby.trans h.sby, g.sec.trans h.sec, g.now.trans h.now,
    g.fresh.trans h.fresh, g.ue.trans h.ue⟩

theorem Quiet.setReg (s : Dev) (k : RegKind) (i v : Nat) (h : k.counting = true) : Quiet s (s.setReg k i v) :=
  ⟨fun k' i' hk => s.reg_setReg_kind k k' i i' v (fun e => by rw [e, h] at hk; exact absurd hk (by decide)),
    rfl, rfl, rfl, rfl, rfl, rfl, rfl, rfl, rfl, rfl, rfl, rfl⟩

theorem Quiet.setHost (s : Dev) (p : Nat) (x : HostPortSt) : Quiet s (s.setHost p x) :=
  ⟨fun _ _ _ => rfl, rfl, rfl, rfl, rfl, rfl, rfl, rfl, rfl, rfl, rfl, rfl, rfl⟩

theorem Quiet.out (s : Dev) (o : List Out) : Quiet s { s with out := o } :=
  ⟨fun _ _ _ => rfl, rfl, rfl, rfl, rfl, rfl, rfl, rfl, rfl, rfl, rfl, rfl, rfl⟩

/-- A fold of quiet steps is quiet. -/
theorem Quiet.each {α : Type} (s : Dev) (xs : List α) (f : α → Dev → Dev) (h : ∀ x s, Quiet s (f x s)) : Quiet s (s.each xs f) := by
  unfold Dev.each
  induction xs generalizing s with
  | nil => exact Quiet.refl s
  | cons x xs ih => exact (h x s).trans (ih (f x s))

theorem Quiet.countEvent (s : Dev) (code : Nat) (die : Option Nat) (n : Nat) : Quiet s (s.countEvent code die n) := by
  unfold Dev.countEvent
  cases die <;> dsimp only <;> split <;> exact Quiet.setReg _ _ _ _ rfl

theorem Quiet.sendIntr (s : Dev) (port : Nat) (h : HostPortSt) (p : HPkt) : Quiet s (s.sendIntr port h p) := by
  unfold Dev.sendIntr
  split
  · exact Quiet.setHost s _ _
  · exact (Quiet.setHost s _ _).trans (Quiet.out _ _)

theorem Quiet.intr (s : Dev) (port code : Nat) : Quiet s (s.intr port code) := by
  unfold Dev.intr
  dsimp only
  split
  · exact Quiet.refl s
  · split
    · exact Quiet.refl s
    · exact Quiet.sendIntr s _ _ _

theorem Quiet.intrMasked (s : Dev) (port code : Nat) : Quiet s (s.intrMasked port code) := by
  unfold Dev.intrMasked
  split
  · exact Quiet.intr s port code
  · exact Quiet.refl s

theorem Quiet.intrOwner (s : Dev) (code : Nat) : Quiet s (s.intrOwner code) := by
  unfold Dev.intrOwner
  split
  · exact Quiet.intrMasked s _ _
  · exact Quiet.each s _ _ (fun p t => Quiet.intrMasked t p code)

theorem Quiet.raiseN (s : Dev) (die code n : Nat) : Quiet s (s.raiseN die code n) := by
  unfold Dev.raiseN
  dsimp only
  split
  · exact Quiet.refl s
  · split
    · exact (Quiet.countEvent s _ _ _).trans (Quiet.intrMasked _ _ _)
    · exact Quiet.countEvent s _ _ _

theorem Quiet.raise (s : Dev) (die code : Nat) : Quiet s (s.raise die code) := Quiet.raiseN s die code 1

theorem Quiet.raiseDev (s : Dev) (code : Nat) : Quiet s (s.raiseDev code) := (Quiet.countEvent s code none 1).trans (Quiet.intrOwner _ _)

theorem Quiet.perf (s : Dev) (k : RegKind) (i die n : Nat) (h : k.counting = true) : Quiet s (s.perf k i die n) := by
  unfold Dev.perf
  dsimp only
  split
  · exact (Quiet.setReg s k i _ h).trans (Quiet.raise _ _ _)
  · exact Quiet.setReg s k i _ h

theorem Quiet.hostPump (s : Dev) (port : Nat) : Quiet s (s.hostPump port) := by
  unfold Dev.hostPump
  split
  · exact Quiet.refl s
  · exact ((Quiet.setHost s _ _).trans (Quiet.out _ _)).trans (Quiet.perf _ _ _ _ _ rfl)

theorem Quiet.hostSend (s : Dev) (port : Nat) (p : HPkt) : Quiet s (s.hostSend port p) := by
  unfold Dev.hostSend
  split
  · exact Quiet.refl s
  · exact (Quiet.setHost s _ _).trans (Quiet.hostPump _ _)

/-- A field of a register that no event counts in stays. -/
theorem Quiet.fld {s t : Dev} (h : Quiet s t) (f : Fld) (i : Nat) (hk : f.reg.counting = false) : t.fld f i = s.fld f i := by
  unfold Dev.fld
  rw [h.reg f.reg i hk]

theorem Quiet.core {s t : Dev} (h : Quiet s t) (c : Nat) : t.core c = s.core c := by unfold Dev.core; rw [h.cores]
theorem Quiet.part {s t : Dev} (h : Quiet s t) (p : Nat) : t.part p = s.part p := by unfold Dev.part; rw [h.parts]
theorem Quiet.fabPort {s t : Dev} (h : Quiet s t) (p : Nat) : t.fabPort p = s.fabPort p := by unfold Dev.fabPort; rw [h.fab]

/-! ### Events and counters, field by field -/

variable (s : Dev)

@[simp] theorem Dev.countEvent_mem (c : Nat) (die : Option Nat) (n : Nat) : (s.countEvent c die n).mem = s.mem := (Quiet.countEvent s c die n).mem
@[simp] theorem Dev.countEvent_cores (c : Nat) (die : Option Nat) (n : Nat) : (s.countEvent c die n).cores = s.cores := (Quiet.countEvent s c die n).cores
@[simp] theorem Dev.countEvent_parts (c : Nat) (die : Option Nat) (n : Nat) : (s.countEvent c die n).parts = s.parts := (Quiet.countEvent s c die n).parts
@[simp] theorem Dev.countEvent_fab (c : Nat) (die : Option Nat) (n : Nat) : (s.countEvent c die n).fab = s.fab := (Quiet.countEvent s c die n).fab
@[simp] theorem Dev.countEvent_chain (c : Nat) (die : Option Nat) (n : Nat) : (s.countEvent c die n).chain = s.chain := (Quiet.countEvent s c die n).chain
@[simp] theorem Dev.countEvent_spr (c : Nat) (die : Option Nat) (n : Nat) : (s.countEvent c die n).spr = s.spr := (Quiet.countEvent s c die n).spr
@[simp] theorem Dev.countEvent_ctl (c : Nat) (die : Option Nat) (n : Nat) : (s.countEvent c die n).ctl = s.ctl := (Quiet.countEvent s c die n).ctl
@[simp] theorem Dev.countEvent_sby (c : Nat) (die : Option Nat) (n : Nat) : (s.countEvent c die n).sby = s.sby := (Quiet.countEvent s c die n).sby
@[simp] theorem Dev.countEvent_sec (c : Nat) (die : Option Nat) (n : Nat) : (s.countEvent c die n).sec = s.sec := (Quiet.countEvent s c die n).sec
@[simp] theorem Dev.countEvent_now (c : Nat) (die : Option Nat) (n : Nat) : (s.countEvent c die n).now = s.now := (Quiet.countEvent s c die n).now
@[simp] theorem Dev.countEvent_fresh (c : Nat) (die : Option Nat) (n : Nat) : (s.countEvent c die n).fresh = s.fresh := (Quiet.countEvent s c die n).fresh
@[simp] theorem Dev.countEvent_ue (c : Nat) (die : Option Nat) (n : Nat) : (s.countEvent c die n).ue = s.ue := (Quiet.countEvent s c die n).ue
@[simp] theorem Dev.countEvent_core (c : Nat) (die : Option Nat) (n : Nat) (j : Nat) : (s.countEvent c die n).core j = s.core j := (Quiet.countEvent s c die n).core j
@[simp] theorem Dev.countEvent_part (c : Nat) (die : Option Nat) (n : Nat) (j : Nat) : (s.countEvent c die n).part j = s.part j := (Quiet.countEvent s c die n).part j
@[simp] theorem Dev.countEvent_fabPort (c : Nat) (die : Option Nat) (n : Nat) (j : Nat) : (s.countEvent c die n).fabPort j = s.fabPort j := (Quiet.countEvent s c die n).fabPort j
@[simp] theorem Dev.hostPump_mem (p : Nat) : (s.hostPump p).mem = s.mem := (Quiet.hostPump s p).mem
@[simp] theorem Dev.hostPump_cores (p : Nat) : (s.hostPump p).cores = s.cores := (Quiet.hostPump s p).cores
@[simp] theorem Dev.hostPump_parts (p : Nat) : (s.hostPump p).parts = s.parts := (Quiet.hostPump s p).parts
@[simp] theorem Dev.hostPump_fab (p : Nat) : (s.hostPump p).fab = s.fab := (Quiet.hostPump s p).fab
@[simp] theorem Dev.hostPump_chain (p : Nat) : (s.hostPump p).chain = s.chain := (Quiet.hostPump s p).chain
@[simp] theorem Dev.hostPump_spr (p : Nat) : (s.hostPump p).spr = s.spr := (Quiet.hostPump s p).spr
@[simp] theorem Dev.hostPump_ctl (p : Nat) : (s.hostPump p).ctl = s.ctl := (Quiet.hostPump s p).ctl
@[simp] theorem Dev.hostPump_sby (p : Nat) : (s.hostPump p).sby = s.sby := (Quiet.hostPump s p).sby
@[simp] theorem Dev.hostPump_sec (p : Nat) : (s.hostPump p).sec = s.sec := (Quiet.hostPump s p).sec
@[simp] theorem Dev.hostPump_now (p : Nat) : (s.hostPump p).now = s.now := (Quiet.hostPump s p).now
@[simp] theorem Dev.hostPump_fresh (p : Nat) : (s.hostPump p).fresh = s.fresh := (Quiet.hostPump s p).fresh
@[simp] theorem Dev.hostPump_ue (p : Nat) : (s.hostPump p).ue = s.ue := (Quiet.hostPump s p).ue
@[simp] theorem Dev.hostPump_core (p : Nat) (j : Nat) : (s.hostPump p).core j = s.core j := (Quiet.hostPump s p).core j
@[simp] theorem Dev.hostPump_part (p : Nat) (j : Nat) : (s.hostPump p).part j = s.part j := (Quiet.hostPump s p).part j
@[simp] theorem Dev.hostPump_fabPort (p : Nat) (j : Nat) : (s.hostPump p).fabPort j = s.fabPort j := (Quiet.hostPump s p).fabPort j
@[simp] theorem Dev.hostSend_mem (p : Nat) (k : HPkt) : (s.hostSend p k).mem = s.mem := (Quiet.hostSend s p k).mem
@[simp] theorem Dev.hostSend_cores (p : Nat) (k : HPkt) : (s.hostSend p k).cores = s.cores := (Quiet.hostSend s p k).cores
@[simp] theorem Dev.hostSend_parts (p : Nat) (k : HPkt) : (s.hostSend p k).parts = s.parts := (Quiet.hostSend s p k).parts
@[simp] theorem Dev.hostSend_fab (p : Nat) (k : HPkt) : (s.hostSend p k).fab = s.fab := (Quiet.hostSend s p k).fab
@[simp] theorem Dev.hostSend_chain (p : Nat) (k : HPkt) : (s.hostSend p k).chain = s.chain := (Quiet.hostSend s p k).chain
@[simp] theorem Dev.hostSend_spr (p : Nat) (k : HPkt) : (s.hostSend p k).spr = s.spr := (Quiet.hostSend s p k).spr
@[simp] theorem Dev.hostSend_ctl (p : Nat) (k : HPkt) : (s.hostSend p k).ctl = s.ctl := (Quiet.hostSend s p k).ctl
@[simp] theorem Dev.hostSend_sby (p : Nat) (k : HPkt) : (s.hostSend p k).sby = s.sby := (Quiet.hostSend s p k).sby
@[simp] theorem Dev.hostSend_sec (p : Nat) (k : HPkt) : (s.hostSend p k).sec = s.sec := (Quiet.hostSend s p k).sec
@[simp] theorem Dev.hostSend_now (p : Nat) (k : HPkt) : (s.hostSend p k).now = s.now := (Quiet.hostSend s p k).now
@[simp] theorem Dev.hostSend_fresh (p : Nat) (k : HPkt) : (s.hostSend p k).fresh = s.fresh := (Quiet.hostSend s p k).fresh
@[simp] theorem Dev.hostSend_ue (p : Nat) (k : HPkt) : (s.hostSend p k).ue = s.ue := (Quiet.hostSend s p k).ue
@[simp] theorem Dev.hostSend_core (p : Nat) (k : HPkt) (j : Nat) : (s.hostSend p k).core j = s.core j := (Quiet.hostSend s p k).core j
@[simp] theorem Dev.hostSend_part (p : Nat) (k : HPkt) (j : Nat) : (s.hostSend p k).part j = s.part j := (Quiet.hostSend s p k).part j
@[simp] theorem Dev.hostSend_fabPort (p : Nat) (k : HPkt) (j : Nat) : (s.hostSend p k).fabPort j = s.fabPort j := (Quiet.hostSend s p k).fabPort j
@[simp] theorem Dev.intr_mem (p c : Nat) : (s.intr p c).mem = s.mem := (Quiet.intr s p c).mem
@[simp] theorem Dev.intr_cores (p c : Nat) : (s.intr p c).cores = s.cores := (Quiet.intr s p c).cores
@[simp] theorem Dev.intr_parts (p c : Nat) : (s.intr p c).parts = s.parts := (Quiet.intr s p c).parts
@[simp] theorem Dev.intr_fab (p c : Nat) : (s.intr p c).fab = s.fab := (Quiet.intr s p c).fab
@[simp] theorem Dev.intr_chain (p c : Nat) : (s.intr p c).chain = s.chain := (Quiet.intr s p c).chain
@[simp] theorem Dev.intr_spr (p c : Nat) : (s.intr p c).spr = s.spr := (Quiet.intr s p c).spr
@[simp] theorem Dev.intr_ctl (p c : Nat) : (s.intr p c).ctl = s.ctl := (Quiet.intr s p c).ctl
@[simp] theorem Dev.intr_sby (p c : Nat) : (s.intr p c).sby = s.sby := (Quiet.intr s p c).sby
@[simp] theorem Dev.intr_sec (p c : Nat) : (s.intr p c).sec = s.sec := (Quiet.intr s p c).sec
@[simp] theorem Dev.intr_now (p c : Nat) : (s.intr p c).now = s.now := (Quiet.intr s p c).now
@[simp] theorem Dev.intr_fresh (p c : Nat) : (s.intr p c).fresh = s.fresh := (Quiet.intr s p c).fresh
@[simp] theorem Dev.intr_ue (p c : Nat) : (s.intr p c).ue = s.ue := (Quiet.intr s p c).ue
@[simp] theorem Dev.intr_core (p c : Nat) (j : Nat) : (s.intr p c).core j = s.core j := (Quiet.intr s p c).core j
@[simp] theorem Dev.intr_part (p c : Nat) (j : Nat) : (s.intr p c).part j = s.part j := (Quiet.intr s p c).part j
@[simp] theorem Dev.intr_fabPort (p c : Nat) (j : Nat) : (s.intr p c).fabPort j = s.fabPort j := (Quiet.intr s p c).fabPort j
@[simp] theorem Dev.intrMasked_mem (p c : Nat) : (s.intrMasked p c).mem = s.mem := (Quiet.intrMasked s p c).mem
@[simp] theorem Dev.intrMasked_cores (p c : Nat) : (s.intrMasked p c).cores = s.cores := (Quiet.intrMasked s p c).cores
@[simp] theorem Dev.intrMasked_parts (p c : Nat) : (s.intrMasked p c).parts = s.parts := (Quiet.intrMasked s p c).parts
@[simp] theorem Dev.intrMasked_fab (p c : Nat) : (s.intrMasked p c).fab = s.fab := (Quiet.intrMasked s p c).fab
@[simp] theorem Dev.intrMasked_chain (p c : Nat) : (s.intrMasked p c).chain = s.chain := (Quiet.intrMasked s p c).chain
@[simp] theorem Dev.intrMasked_spr (p c : Nat) : (s.intrMasked p c).spr = s.spr := (Quiet.intrMasked s p c).spr
@[simp] theorem Dev.intrMasked_ctl (p c : Nat) : (s.intrMasked p c).ctl = s.ctl := (Quiet.intrMasked s p c).ctl
@[simp] theorem Dev.intrMasked_sby (p c : Nat) : (s.intrMasked p c).sby = s.sby := (Quiet.intrMasked s p c).sby
@[simp] theorem Dev.intrMasked_sec (p c : Nat) : (s.intrMasked p c).sec = s.sec := (Quiet.intrMasked s p c).sec
@[simp] theorem Dev.intrMasked_now (p c : Nat) : (s.intrMasked p c).now = s.now := (Quiet.intrMasked s p c).now
@[simp] theorem Dev.intrMasked_fresh (p c : Nat) : (s.intrMasked p c).fresh = s.fresh := (Quiet.intrMasked s p c).fresh
@[simp] theorem Dev.intrMasked_ue (p c : Nat) : (s.intrMasked p c).ue = s.ue := (Quiet.intrMasked s p c).ue
@[simp] theorem Dev.intrMasked_core (p c : Nat) (j : Nat) : (s.intrMasked p c).core j = s.core j := (Quiet.intrMasked s p c).core j
@[simp] theorem Dev.intrMasked_part (p c : Nat) (j : Nat) : (s.intrMasked p c).part j = s.part j := (Quiet.intrMasked s p c).part j
@[simp] theorem Dev.intrMasked_fabPort (p c : Nat) (j : Nat) : (s.intrMasked p c).fabPort j = s.fabPort j := (Quiet.intrMasked s p c).fabPort j
@[simp] theorem Dev.intrOwner_mem (c : Nat) : (s.intrOwner c).mem = s.mem := (Quiet.intrOwner s c).mem
@[simp] theorem Dev.intrOwner_cores (c : Nat) : (s.intrOwner c).cores = s.cores := (Quiet.intrOwner s c).cores
@[simp] theorem Dev.intrOwner_parts (c : Nat) : (s.intrOwner c).parts = s.parts := (Quiet.intrOwner s c).parts
@[simp] theorem Dev.intrOwner_fab (c : Nat) : (s.intrOwner c).fab = s.fab := (Quiet.intrOwner s c).fab
@[simp] theorem Dev.intrOwner_chain (c : Nat) : (s.intrOwner c).chain = s.chain := (Quiet.intrOwner s c).chain
@[simp] theorem Dev.intrOwner_spr (c : Nat) : (s.intrOwner c).spr = s.spr := (Quiet.intrOwner s c).spr
@[simp] theorem Dev.intrOwner_ctl (c : Nat) : (s.intrOwner c).ctl = s.ctl := (Quiet.intrOwner s c).ctl
@[simp] theorem Dev.intrOwner_sby (c : Nat) : (s.intrOwner c).sby = s.sby := (Quiet.intrOwner s c).sby
@[simp] theorem Dev.intrOwner_sec (c : Nat) : (s.intrOwner c).sec = s.sec := (Quiet.intrOwner s c).sec
@[simp] theorem Dev.intrOwner_now (c : Nat) : (s.intrOwner c).now = s.now := (Quiet.intrOwner s c).now
@[simp] theorem Dev.intrOwner_fresh (c : Nat) : (s.intrOwner c).fresh = s.fresh := (Quiet.intrOwner s c).fresh
@[simp] theorem Dev.intrOwner_ue (c : Nat) : (s.intrOwner c).ue = s.ue := (Quiet.intrOwner s c).ue
@[simp] theorem Dev.intrOwner_core (c : Nat) (j : Nat) : (s.intrOwner c).core j = s.core j := (Quiet.intrOwner s c).core j
@[simp] theorem Dev.intrOwner_part (c : Nat) (j : Nat) : (s.intrOwner c).part j = s.part j := (Quiet.intrOwner s c).part j
@[simp] theorem Dev.intrOwner_fabPort (c : Nat) (j : Nat) : (s.intrOwner c).fabPort j = s.fabPort j := (Quiet.intrOwner s c).fabPort j
@[simp] theorem Dev.raiseN_mem (d c n : Nat) : (s.raiseN d c n).mem = s.mem := (Quiet.raiseN s d c n).mem
@[simp] theorem Dev.raiseN_cores (d c n : Nat) : (s.raiseN d c n).cores = s.cores := (Quiet.raiseN s d c n).cores
@[simp] theorem Dev.raiseN_parts (d c n : Nat) : (s.raiseN d c n).parts = s.parts := (Quiet.raiseN s d c n).parts
@[simp] theorem Dev.raiseN_fab (d c n : Nat) : (s.raiseN d c n).fab = s.fab := (Quiet.raiseN s d c n).fab
@[simp] theorem Dev.raiseN_chain (d c n : Nat) : (s.raiseN d c n).chain = s.chain := (Quiet.raiseN s d c n).chain
@[simp] theorem Dev.raiseN_spr (d c n : Nat) : (s.raiseN d c n).spr = s.spr := (Quiet.raiseN s d c n).spr
@[simp] theorem Dev.raiseN_ctl (d c n : Nat) : (s.raiseN d c n).ctl = s.ctl := (Quiet.raiseN s d c n).ctl
@[simp] theorem Dev.raiseN_sby (d c n : Nat) : (s.raiseN d c n).sby = s.sby := (Quiet.raiseN s d c n).sby
@[simp] theorem Dev.raiseN_sec (d c n : Nat) : (s.raiseN d c n).sec = s.sec := (Quiet.raiseN s d c n).sec
@[simp] theorem Dev.raiseN_now (d c n : Nat) : (s.raiseN d c n).now = s.now := (Quiet.raiseN s d c n).now
@[simp] theorem Dev.raiseN_fresh (d c n : Nat) : (s.raiseN d c n).fresh = s.fresh := (Quiet.raiseN s d c n).fresh
@[simp] theorem Dev.raiseN_ue (d c n : Nat) : (s.raiseN d c n).ue = s.ue := (Quiet.raiseN s d c n).ue
@[simp] theorem Dev.raiseN_core (d c n : Nat) (j : Nat) : (s.raiseN d c n).core j = s.core j := (Quiet.raiseN s d c n).core j
@[simp] theorem Dev.raiseN_part (d c n : Nat) (j : Nat) : (s.raiseN d c n).part j = s.part j := (Quiet.raiseN s d c n).part j
@[simp] theorem Dev.raiseN_fabPort (d c n : Nat) (j : Nat) : (s.raiseN d c n).fabPort j = s.fabPort j := (Quiet.raiseN s d c n).fabPort j
@[simp] theorem Dev.raise_mem (d c : Nat) : (s.raise d c).mem = s.mem := (Quiet.raise s d c).mem
@[simp] theorem Dev.raise_cores (d c : Nat) : (s.raise d c).cores = s.cores := (Quiet.raise s d c).cores
@[simp] theorem Dev.raise_parts (d c : Nat) : (s.raise d c).parts = s.parts := (Quiet.raise s d c).parts
@[simp] theorem Dev.raise_fab (d c : Nat) : (s.raise d c).fab = s.fab := (Quiet.raise s d c).fab
@[simp] theorem Dev.raise_chain (d c : Nat) : (s.raise d c).chain = s.chain := (Quiet.raise s d c).chain
@[simp] theorem Dev.raise_spr (d c : Nat) : (s.raise d c).spr = s.spr := (Quiet.raise s d c).spr
@[simp] theorem Dev.raise_ctl (d c : Nat) : (s.raise d c).ctl = s.ctl := (Quiet.raise s d c).ctl
@[simp] theorem Dev.raise_sby (d c : Nat) : (s.raise d c).sby = s.sby := (Quiet.raise s d c).sby
@[simp] theorem Dev.raise_sec (d c : Nat) : (s.raise d c).sec = s.sec := (Quiet.raise s d c).sec
@[simp] theorem Dev.raise_now (d c : Nat) : (s.raise d c).now = s.now := (Quiet.raise s d c).now
@[simp] theorem Dev.raise_fresh (d c : Nat) : (s.raise d c).fresh = s.fresh := (Quiet.raise s d c).fresh
@[simp] theorem Dev.raise_ue (d c : Nat) : (s.raise d c).ue = s.ue := (Quiet.raise s d c).ue
@[simp] theorem Dev.raise_core (d c : Nat) (j : Nat) : (s.raise d c).core j = s.core j := (Quiet.raise s d c).core j
@[simp] theorem Dev.raise_part (d c : Nat) (j : Nat) : (s.raise d c).part j = s.part j := (Quiet.raise s d c).part j
@[simp] theorem Dev.raise_fabPort (d c : Nat) (j : Nat) : (s.raise d c).fabPort j = s.fabPort j := (Quiet.raise s d c).fabPort j
@[simp] theorem Dev.raiseDev_mem (c : Nat) : (s.raiseDev c).mem = s.mem := (Quiet.raiseDev s c).mem
@[simp] theorem Dev.raiseDev_cores (c : Nat) : (s.raiseDev c).cores = s.cores := (Quiet.raiseDev s c).cores
@[simp] theorem Dev.raiseDev_parts (c : Nat) : (s.raiseDev c).parts = s.parts := (Quiet.raiseDev s c).parts
@[simp] theorem Dev.raiseDev_fab (c : Nat) : (s.raiseDev c).fab = s.fab := (Quiet.raiseDev s c).fab
@[simp] theorem Dev.raiseDev_chain (c : Nat) : (s.raiseDev c).chain = s.chain := (Quiet.raiseDev s c).chain
@[simp] theorem Dev.raiseDev_spr (c : Nat) : (s.raiseDev c).spr = s.spr := (Quiet.raiseDev s c).spr
@[simp] theorem Dev.raiseDev_ctl (c : Nat) : (s.raiseDev c).ctl = s.ctl := (Quiet.raiseDev s c).ctl
@[simp] theorem Dev.raiseDev_sby (c : Nat) : (s.raiseDev c).sby = s.sby := (Quiet.raiseDev s c).sby
@[simp] theorem Dev.raiseDev_sec (c : Nat) : (s.raiseDev c).sec = s.sec := (Quiet.raiseDev s c).sec
@[simp] theorem Dev.raiseDev_now (c : Nat) : (s.raiseDev c).now = s.now := (Quiet.raiseDev s c).now
@[simp] theorem Dev.raiseDev_fresh (c : Nat) : (s.raiseDev c).fresh = s.fresh := (Quiet.raiseDev s c).fresh
@[simp] theorem Dev.raiseDev_ue (c : Nat) : (s.raiseDev c).ue = s.ue := (Quiet.raiseDev s c).ue
@[simp] theorem Dev.raiseDev_core (c : Nat) (j : Nat) : (s.raiseDev c).core j = s.core j := (Quiet.raiseDev s c).core j
@[simp] theorem Dev.raiseDev_part (c : Nat) (j : Nat) : (s.raiseDev c).part j = s.part j := (Quiet.raiseDev s c).part j
@[simp] theorem Dev.raiseDev_fabPort (c : Nat) (j : Nat) : (s.raiseDev c).fabPort j = s.fabPort j := (Quiet.raiseDev s c).fabPort j
theorem Dev.raise_reg (d c : Nat) (k : RegKind) (i : Nat) (h : k.counting = false) : (s.raise d c).reg k i = s.reg k i := (Quiet.raise s d c).reg k i h
theorem Dev.raiseN_reg (d c n : Nat) (k : RegKind) (i : Nat) (h : k.counting = false) : (s.raiseN d c n).reg k i = s.reg k i := (Quiet.raiseN s d c n).reg k i h
theorem Dev.raiseDev_reg (c : Nat) (k : RegKind) (i : Nat) (h : k.counting = false) : (s.raiseDev c).reg k i = s.reg k i := (Quiet.raiseDev s c).reg k i h
theorem Dev.raise_fld (d c : Nat) (f : Fld) (i : Nat) (h : f.reg.counting = false) : (s.raise d c).fld f i = s.fld f i := (Quiet.raise s d c).fld f i h
theorem Dev.raiseN_fld (d c n : Nat) (f : Fld) (i : Nat) (h : f.reg.counting = false) : (s.raiseN d c n).fld f i = s.fld f i := (Quiet.raiseN s d c n).fld f i h
theorem Dev.raiseDev_fld (c : Nat) (f : Fld) (i : Nat) (h : f.reg.counting = false) : (s.raiseDev c).fld f i = s.fld f i := (Quiet.raiseDev s c).fld f i h

/-- A counter's register aside, counting leaves the registers that no event counts in alone. -/
theorem Dev.perf_reg (k : RegKind) (i die n : Nat) (k' : RegKind) (i' : Nat) (h : k'.counting = false) (hk : k' ≠ k) :
    (s.perf k i die n).reg k' i' = s.reg k' i' := by
  unfold Dev.perf
  dsimp only
  split
  · rw [Dev.raise_reg _ _ _ _ _ h, Dev.reg_setReg_kind _ _ _ _ _ _ hk]
  · rw [Dev.reg_setReg_kind _ _ _ _ _ _ hk]

theorem Dev.perf_fld (k : RegKind) (i die n : Nat) (f : Fld) (i' : Nat) (h : f.reg.counting = false) (hk : f.reg ≠ k) :
    (s.perf k i die n).fld f i' = s.fld f i' := by
  unfold Dev.fld
  rw [Dev.perf_reg s k i die n f.reg i' h hk]

theorem Dev.perfDev_reg (k : RegKind) (i n : Nat) (k' : RegKind) (i' : Nat) (h : k'.counting = false) (hk : k' ≠ k) :
    (s.perfDev k i n).reg k' i' = s.reg k' i' := by
  unfold Dev.perfDev
  dsimp only
  split
  · rw [Dev.raiseDev_reg _ _ _ _ h, Dev.reg_setReg_kind _ _ _ _ _ _ hk]
  · rw [Dev.reg_setReg_kind _ _ _ _ _ _ hk]

theorem Dev.perfCore_reg (k : RegKind) (c n : Nat) (k' : RegKind) (i' : Nat) (h : k'.counting = false) (hk : k' ≠ k) :
    (s.perfCore k c n).reg k' i' = s.reg k' i' := by
  unfold Dev.perfCore
  split
  · rfl
  · exact Dev.perf_reg s k c _ n k' i' h hk

/-- The value of a performance counter after it counts, wrapping at 48 bits; an event of the same counter never follows (R41). -/
theorem Dev.perf_self (k : RegKind) (i die n : Nat) (h : k.counting = false) : (s.perf k i die n).reg k i % 2 ^ 48 = (s.reg k i + n) % 2 ^ 48 := by
  have e : ∀ t : Dev, t.reg k i = putBits (s.reg k i) 0 48 (s.reg k i % 2 ^ 48 + n) → t.reg k i % 2 ^ 48 = (s.reg k i + n) % 2 ^ 48 := by
    intro t ht
    have := putBits_self (s.reg k i) 0 48 (s.reg k i % 2 ^ 48 + n)
    rw [ht]
    simp only [Nat.pow_zero, Nat.div_one] at this
    rw [this]
    omega
  have hv : (s.setReg k i (putBits (s.reg k i) 0 48 (s.reg k i % 2 ^ 48 + n))).reg k i = putBits (s.reg k i) 0 48 (s.reg k i % 2 ^ 48 + n) := by
    rw [Dev.reg_setReg_self, Nat.mod_eq_of_lt (putBits_lt _ _ _ _ (s.reg_lt k i) (by decide))]
  unfold Dev.perf
  dsimp only
  split
  · exact e _ (by rw [Dev.raise_reg _ _ _ _ _ h, hv])
  · exact e _ hv

@[simp] theorem Dev.perf_mem (k : RegKind) (i d n : Nat) : (s.perf k i d n).mem = s.mem := by unfold Dev.perf; dsimp only; split <;> simp
@[simp] theorem Dev.perf_cores (k : RegKind) (i d n : Nat) : (s.perf k i d n).cores = s.cores := by unfold Dev.perf; dsimp only; split <;> simp
@[simp] theorem Dev.perf_parts (k : RegKind) (i d n : Nat) : (s.perf k i d n).parts = s.parts := by unfold Dev.perf; dsimp only; split <;> simp
@[simp] theorem Dev.perf_fab (k : RegKind) (i d n : Nat) : (s.perf k i d n).fab = s.fab := by unfold Dev.perf; dsimp only; split <;> simp
@[simp] theorem Dev.perf_chain (k : RegKind) (i d n : Nat) : (s.perf k i d n).chain = s.chain := by unfold Dev.perf; dsimp only; split <;> simp
@[simp] theorem Dev.perf_spr (k : RegKind) (i d n : Nat) : (s.perf k i d n).spr = s.spr := by unfold Dev.perf; dsimp only; split <;> simp
@[simp] theorem Dev.perf_ctl (k : RegKind) (i d n : Nat) : (s.perf k i d n).ctl = s.ctl := by unfold Dev.perf; dsimp only; split <;> simp
@[simp] theorem Dev.perf_sby (k : RegKind) (i d n : Nat) : (s.perf k i d n).sby = s.sby := by unfold Dev.perf; dsimp only; split <;> simp
@[simp] theorem Dev.perf_sec (k : RegKind) (i d n : Nat) : (s.perf k i d n).sec = s.sec := by unfold Dev.perf; dsimp only; split <;> simp
@[simp] theorem Dev.perf_now (k : RegKind) (i d n : Nat) : (s.perf k i d n).now = s.now := by unfold Dev.perf; dsimp only; split <;> simp
@[simp] theorem Dev.perf_fresh (k : RegKind) (i d n : Nat) : (s.perf k i d n).fresh = s.fresh := by unfold Dev.perf; dsimp only; split <;> simp
@[simp] theorem Dev.perf_ue (k : RegKind) (i d n : Nat) : (s.perf k i d n).ue = s.ue := by unfold Dev.perf; dsimp only; split <;> simp
@[simp] theorem Dev.perf_core (k : RegKind) (i d n : Nat) (j : Nat) : (s.perf k i d n).core j = s.core j := by unfold Dev.perf; dsimp only; split <;> simp
@[simp] theorem Dev.perf_part (k : RegKind) (i d n : Nat) (j : Nat) : (s.perf k i d n).part j = s.part j := by unfold Dev.perf; dsimp only; split <;> simp
@[simp] theorem Dev.perf_fabPort (k : RegKind) (i d n : Nat) (j : Nat) : (s.perf k i d n).fabPort j = s.fabPort j := by unfold Dev.perf; dsimp only; split <;> simp
@[simp] theorem Dev.perfCore_mem (k : RegKind) (c n : Nat) : (s.perfCore k c n).mem = s.mem := by unfold Dev.perfCore; split <;> simp
@[simp] theorem Dev.perfCore_cores (k : RegKind) (c n : Nat) : (s.perfCore k c n).cores = s.cores := by unfold Dev.perfCore; split <;> simp
@[simp] theorem Dev.perfCore_parts (k : RegKind) (c n : Nat) : (s.perfCore k c n).parts = s.parts := by unfold Dev.perfCore; split <;> simp
@[simp] theorem Dev.perfCore_fab (k : RegKind) (c n : Nat) : (s.perfCore k c n).fab = s.fab := by unfold Dev.perfCore; split <;> simp
@[simp] theorem Dev.perfCore_chain (k : RegKind) (c n : Nat) : (s.perfCore k c n).chain = s.chain := by unfold Dev.perfCore; split <;> simp
@[simp] theorem Dev.perfCore_spr (k : RegKind) (c n : Nat) : (s.perfCore k c n).spr = s.spr := by unfold Dev.perfCore; split <;> simp
@[simp] theorem Dev.perfCore_ctl (k : RegKind) (c n : Nat) : (s.perfCore k c n).ctl = s.ctl := by unfold Dev.perfCore; split <;> simp
@[simp] theorem Dev.perfCore_sby (k : RegKind) (c n : Nat) : (s.perfCore k c n).sby = s.sby := by unfold Dev.perfCore; split <;> simp
@[simp] theorem Dev.perfCore_sec (k : RegKind) (c n : Nat) : (s.perfCore k c n).sec = s.sec := by unfold Dev.perfCore; split <;> simp
@[simp] theorem Dev.perfCore_now (k : RegKind) (c n : Nat) : (s.perfCore k c n).now = s.now := by unfold Dev.perfCore; split <;> simp
@[simp] theorem Dev.perfCore_fresh (k : RegKind) (c n : Nat) : (s.perfCore k c n).fresh = s.fresh := by unfold Dev.perfCore; split <;> simp
@[simp] theorem Dev.perfCore_ue (k : RegKind) (c n : Nat) : (s.perfCore k c n).ue = s.ue := by unfold Dev.perfCore; split <;> simp
@[simp] theorem Dev.perfCore_core (k : RegKind) (c n : Nat) (j : Nat) : (s.perfCore k c n).core j = s.core j := by unfold Dev.perfCore; split <;> simp
@[simp] theorem Dev.perfCore_part (k : RegKind) (c n : Nat) (j : Nat) : (s.perfCore k c n).part j = s.part j := by unfold Dev.perfCore; split <;> simp
@[simp] theorem Dev.perfCore_fabPort (k : RegKind) (c n : Nat) (j : Nat) : (s.perfCore k c n).fabPort j = s.fabPort j := by unfold Dev.perfCore; split <;> simp
@[simp] theorem Dev.perfDev_mem (k : RegKind) (i n : Nat) : (s.perfDev k i n).mem = s.mem := by unfold Dev.perfDev; dsimp only; split <;> simp
@[simp] theorem Dev.perfDev_cores (k : RegKind) (i n : Nat) : (s.perfDev k i n).cores = s.cores := by unfold Dev.perfDev; dsimp only; split <;> simp
@[simp] theorem Dev.perfDev_parts (k : RegKind) (i n : Nat) : (s.perfDev k i n).parts = s.parts := by unfold Dev.perfDev; dsimp only; split <;> simp
@[simp] theorem Dev.perfDev_fab (k : RegKind) (i n : Nat) : (s.perfDev k i n).fab = s.fab := by unfold Dev.perfDev; dsimp only; split <;> simp
@[simp] theorem Dev.perfDev_chain (k : RegKind) (i n : Nat) : (s.perfDev k i n).chain = s.chain := by unfold Dev.perfDev; dsimp only; split <;> simp
@[simp] theorem Dev.perfDev_spr (k : RegKind) (i n : Nat) : (s.perfDev k i n).spr = s.spr := by unfold Dev.perfDev; dsimp only; split <;> simp
@[simp] theorem Dev.perfDev_ctl (k : RegKind) (i n : Nat) : (s.perfDev k i n).ctl = s.ctl := by unfold Dev.perfDev; dsimp only; split <;> simp
@[simp] theorem Dev.perfDev_sby (k : RegKind) (i n : Nat) : (s.perfDev k i n).sby = s.sby := by unfold Dev.perfDev; dsimp only; split <;> simp
@[simp] theorem Dev.perfDev_sec (k : RegKind) (i n : Nat) : (s.perfDev k i n).sec = s.sec := by unfold Dev.perfDev; dsimp only; split <;> simp
@[simp] theorem Dev.perfDev_now (k : RegKind) (i n : Nat) : (s.perfDev k i n).now = s.now := by unfold Dev.perfDev; dsimp only; split <;> simp
@[simp] theorem Dev.perfDev_fresh (k : RegKind) (i n : Nat) : (s.perfDev k i n).fresh = s.fresh := by unfold Dev.perfDev; dsimp only; split <;> simp
@[simp] theorem Dev.perfDev_ue (k : RegKind) (i n : Nat) : (s.perfDev k i n).ue = s.ue := by unfold Dev.perfDev; dsimp only; split <;> simp
@[simp] theorem Dev.perfDev_core (k : RegKind) (i n : Nat) (j : Nat) : (s.perfDev k i n).core j = s.core j := by unfold Dev.perfDev; dsimp only; split <;> simp
@[simp] theorem Dev.perfDev_part (k : RegKind) (i n : Nat) (j : Nat) : (s.perfDev k i n).part j = s.part j := by unfold Dev.perfDev; dsimp only; split <;> simp
@[simp] theorem Dev.perfDev_fabPort (k : RegKind) (i n : Nat) (j : Nat) : (s.perfDev k i n).fabPort j = s.fabPort j := by unfold Dev.perfDev; dsimp only; split <;> simp

end Sys2Proof.Machine
end

