-- ==== Sys2Proof/Laws/EventCounts.lean ====
section
/-!
SUPPORT. What the event counters count (R39).
-/
namespace Sys2Proof.Machine

variable (s : Dev)

/-- An interrupt writes no register. -/
theorem Dev.intr_reg (p c : Nat) (k : RegKind) (i : Nat) : (s.intr p c).reg k i = s.reg k i := by
  unfold Dev.intr Dev.sendIntr
  dsimp only
  split
  · rfl
  · split
    · rfl
    · split <;> rfl

theorem Dev.intrMasked_reg (p c : Nat) (k : RegKind) (i : Nat) : (s.intrMasked p c).reg k i = s.reg k i := by
  unfold Dev.intrMasked
  split
  · exact Dev.intr_reg s p c k i
  · rfl

/-- What an update of every member of a list keeps, the fold keeps. -/
theorem Dev.each_keeps {α β : Type} (f : Dev → β) (xs : List α) (g : α → Dev → Dev) (h : ∀ x ∈ xs, ∀ s, f (g x s) = f s) (s : Dev) :
    f (s.each xs g) = f s := by
  unfold Dev.each
  induction xs generalizing s with
  | nil => rfl
  | cons x xs ih => exact (ih (fun y hy => h y (by simp [hy])) (g x s)).trans (h x (by simp) s)

theorem Dev.intrOwner_reg (c : Nat) (k : RegKind) (i : Nat) : (s.intrOwner c).reg k i = s.reg k i := by
  unfold Dev.intrOwner
  split
  · exact Dev.intrMasked_reg s _ c k i
  · exact Dev.each_keeps (fun t => t.reg k i) _ _ (fun x _ t => Dev.intrMasked_reg t x c k i) s

theorem dieIdx_evcnt (d d' c c' : Nat) (hc : c < 65536) (hc' : c' < 65536) :
    dieIdx .CTL_EVCNT d c = dieIdx .CTL_EVCNT d' c' ↔ d = d' ∧ c = c' := by
  have h : ∀ d n : Nat, dieIdx .CTL_EVCNT d n = d * 65536 + n := fun _ _ => rfl
  rw [h, h]
  omega

/-- The COUNT of a counter after `n` occurrences: it stops at its largest value. -/
theorem Dev.countEvent_die (code d n : Nat) :
    (s.countEvent code (some d) n).fld Fld.CTL_EVCNT_COUNT (dieIdx .CTL_EVCNT d code) =
      min 0xFFFFFFFF (s.fld Fld.CTL_EVCNT_COUNT (dieIdx .CTL_EVCNT d code) + n) := by
  have w : ∀ v : Nat, v < 2 ^ 64 → (s.setReg .CTL_EVCNT (dieIdx .CTL_EVCNT d code) v).fld Fld.CTL_EVCNT_COUNT (dieIdx .CTL_EVCNT d code) = v % 2 ^ 32 := by
    intro v hv
    unfold Dev.fld
    simp only [Fld.CTL_EVCNT_COUNT, Dev.reg_setReg_self, Nat.mod_eq_of_lt hv, Nat.pow_zero, Nat.div_one]
  have p : ∀ r v, r < 2 ^ 64 → putBits r 0 32 v < 2 ^ 64 := fun r v hr => putBits_lt r 0 32 v hr (by decide)
  have q : ∀ r v, putBits r 0 32 v % 2 ^ 32 = v % 2 ^ 32 := fun r v => by simpa using putBits_self r 0 32 v
  have e : s.fld Fld.CTL_EVCNT_COUNT (dieIdx .CTL_EVCNT d code) = s.reg .CTL_EVCNT (dieIdx .CTL_EVCNT d code) % 2 ^ 32 := by
    unfold Dev.fld; simp [Fld.CTL_EVCNT_COUNT]
  have hr := s.reg_lt .CTL_EVCNT (dieIdx .CTL_EVCNT d code)
  rw [e]
  unfold Dev.countEvent
  dsimp only
  split
  · rw [w _ (p _ _ hr), q]; omega
  · rw [w _ (putBits_lt _ 32 1 _ (p _ _ hr) (by decide))]
    have := putBits_below (putBits (s.reg .CTL_EVCNT (dieIdx .CTL_EVCNT d code)) 0 32 0xFFFFFFFF) 32 1 1 0 32 (by decide)
    simp only [Nat.pow_zero, Nat.div_one] at this
    rw [this, q]; omega

theorem Dev.countEvent_dev (code n : Nat) :
    (s.countEvent code none n).fld Fld.CTL_EVCNT_DEV_COUNT code = min 0xFFFFFFFF (s.fld Fld.CTL_EVCNT_DEV_COUNT code + n) := by
  have w : ∀ v : Nat, v < 2 ^ 64 → (s.setReg .CTL_EVCNT_DEV code v).fld Fld.CTL_EVCNT_DEV_COUNT code = v % 2 ^ 32 := by
    intro v hv
    unfold Dev.fld
    simp only [Fld.CTL_EVCNT_DEV_COUNT, Dev.reg_setReg_self, Nat.mod_eq_of_lt hv, Nat.pow_zero, Nat.div_one]
  have p : ∀ r v, r < 2 ^ 64 → putBits r 0 32 v < 2 ^ 64 := fun r v hr => putBits_lt r 0 32 v hr (by decide)
  have q : ∀ r v, putBits r 0 32 v % 2 ^ 32 = v % 2 ^ 32 := fun r v => by simpa using putBits_self r 0 32 v
  have e : s.fld Fld.CTL_EVCNT_DEV_COUNT code = s.reg .CTL_EVCNT_DEV code % 2 ^ 32 := by unfold Dev.fld; simp [Fld.CTL_EVCNT_DEV_COUNT]
  have hr := s.reg_lt .CTL_EVCNT_DEV code
  rw [e]
  unfold Dev.countEvent
  dsimp only
  split
  · rw [w _ (p _ _ hr), q]; omega
  · rw [w _ (putBits_lt _ 32 1 _ (p _ _ hr) (by decide))]
    have := putBits_below (putBits (s.reg .CTL_EVCNT_DEV code) 0 32 0xFFFFFFFF) 32 1 1 0 32 (by decide)
    simp only [Nat.pow_zero, Nat.div_one] at this
    rw [this, q]; omega

theorem Dev.countEvent_die_reg (code d n : Nat) (k : RegKind) (i : Nat) (h : ¬(k = .CTL_EVCNT ∧ i = dieIdx .CTL_EVCNT d code)) :
    (s.countEvent code (some d) n).reg k i = s.reg k i := by
  unfold Dev.countEvent
  dsimp only
  split <;> exact Dev.reg_setReg_ne _ _ _ _ _ _ h

theorem Dev.countEvent_dev_reg (code n : Nat) (k : RegKind) (i : Nat) (h : ¬(k = .CTL_EVCNT_DEV ∧ i = code)) :
    (s.countEvent code none n).reg k i = s.reg k i := by
  unfold Dev.countEvent
  dsimp only
  split <;> exact Dev.reg_setReg_ne _ _ _ _ _ _ h

theorem Dev.raiseN_reg_ne (d code n : Nat) (k : RegKind) (i : Nat) (g : ¬(k = .CTL_EVCNT ∧ i = dieIdx .CTL_EVCNT d code)) :
    (s.raiseN d code n).reg k i = s.reg k i := by
  unfold Dev.raiseN
  dsimp only
  split
  · rfl
  · split
    · rw [Dev.intrMasked_reg, Dev.countEvent_die_reg _ _ _ _ _ _ g]
    · rw [Dev.countEvent_die_reg _ _ _ _ _ _ g]

theorem Dev.raiseN_events (d code n : Nat) : (s.raiseN d code n).events d code = min 0xFFFFFFFF (s.events d code + n) := by
  have b : s.events d code ≤ 0xFFFFFFFF := by
    have : s.events d code < 2 ^ 32 := Nat.mod_lt _ (by decide)
    omega
  have e : ∀ t u : Dev, u.reg .CTL_EVCNT (dieIdx .CTL_EVCNT d code) = t.reg .CTL_EVCNT (dieIdx .CTL_EVCNT d code) → u.events d code = t.events d code := by
    intro t u h; unfold Dev.events Dev.fld; simp only [Fld.CTL_EVCNT_COUNT, h]
  unfold Dev.raiseN
  dsimp only
  split
  · omega
  · split
    · rw [e _ _ (Dev.intrMasked_reg _ _ _ _ _)]; exact Dev.countEvent_die s code d n
    · exact Dev.countEvent_die s code d n

theorem Dev.raiseN_events_ne (d d' code code' n : Nat) (hc : code < 65536) (hc' : code' < 65536) (h : ¬(d' = d ∧ code' = code)) :
    (s.raiseN d code n).events d' code' = s.events d' code' := by
  unfold Dev.events Dev.fld
  have : (s.raiseN d code n).reg .CTL_EVCNT (dieIdx .CTL_EVCNT d' code') = s.reg .CTL_EVCNT (dieIdx .CTL_EVCNT d' code') :=
    Dev.raiseN_reg_ne s d code n _ _ (fun e => h ((dieIdx_evcnt d' d code' code hc' hc).mp e.2))
  simp only [Fld.CTL_EVCNT_COUNT, this]

theorem Dev.raise_events (d code : Nat) : (s.raise d code).events d code = min 0xFFFFFFFF (s.events d code + 1) := s.raiseN_events d code 1

theorem Dev.raise_events_ne (d d' code code' : Nat) (hc : code < 65536) (hc' : code' < 65536) (h : ¬(d' = d ∧ code' = code)) :
    (s.raise d code).events d' code' = s.events d' code' := s.raiseN_events_ne d d' code code' 1 hc hc' h

theorem Dev.raiseDev_events (code d c : Nat) : (s.raiseDev code).events d c = s.events d c := by
  unfold Dev.events Dev.fld Dev.raiseDev
  simp only [Fld.CTL_EVCNT_COUNT, Dev.intrOwner_reg,
    Dev.countEvent_dev_reg _ _ _ RegKind.CTL_EVCNT _ (fun e => absurd e.1 (by decide))]

theorem Dev.raise_eventsDev (d code c : Nat) : (s.raise d code).eventsDev c = s.eventsDev c := by
  unfold Dev.eventsDev Dev.fld Dev.raise
  simp only [Fld.CTL_EVCNT_DEV_COUNT, Dev.raiseN_reg_ne s d code 1 RegKind.CTL_EVCNT_DEV _ (fun e => absurd e.1 (by decide))]

theorem Dev.raiseDev_eventsDev (code : Nat) : (s.raiseDev code).eventsDev code = min 0xFFFFFFFF (s.eventsDev code + 1) := by
  have : (s.raiseDev code).eventsDev code = (s.countEvent code none 1).fld Fld.CTL_EVCNT_DEV_COUNT code := by
    unfold Dev.eventsDev Dev.fld Dev.raiseDev
    simp only [Fld.CTL_EVCNT_DEV_COUNT, Dev.intrOwner_reg]
  rw [this, Dev.countEvent_dev]
  rfl

/-- A counter's events are those of its registers: nothing else moves them. -/
theorem Dev.events_setReg (k : RegKind) (i v d c : Nat) (h : k ≠ .CTL_EVCNT) : (s.setReg k i v).events d c = s.events d c :=
  Dev.fld_setReg_kind s _ k i _ v (fun e => h e.symm)

theorem Dev.events_setFld (f : Fld) (i v d c : Nat) (h : f.reg ≠ .CTL_EVCNT) : (s.setFld f i v).events d c = s.events d c :=
  Dev.events_setReg s f.reg i _ d c h

end Sys2Proof.Machine
end

