-- ==== Sys2Proof/Laws/Frames.lean ====
section
/-!
SUPPORT. Frames: how they compose, and the frame of each plain update.
-/
namespace Sys2Proof.Machine

theorem Frame.refl (m : Touches) (s : Dev) : Frame m s s :=
  ⟨fun _ _ _ _ => rfl, fun _ _ => rfl, fun _ _ => rfl, fun _ _ => rfl, fun _ _ => rfl, fun _ => rfl, fun _ => rfl, fun _ => rfl,
    fun _ => rfl, fun _ => rfl, rfl⟩

theorem Frame.trans {m : Touches} {s t u : Dev} (h : Frame m s t) (g : Frame m t u) : Frame m s u :=
  ⟨fun k i a b => (g.reg k i a b).trans (h.reg k i a b), fun c a => (g.core c a).trans (h.core c a), fun p a => (g.part p a).trans (h.part p a),
    fun p a => (g.fab p a).trans (h.fab p a), fun x a => (g.byte x a).trans (h.byte x a), fun a => (g.chain a).trans (h.chain a),
    fun a => (g.spr a).trans (h.spr a), fun a => (g.ctl a).trans (h.ctl a), fun a => (g.sby a).trans (h.sby a),
    fun a => (g.sec a).trans (h.sec a), g.now.trans h.now⟩

theorem Frame.quiet {s t : Dev} (m : Touches) (h : Quiet s t) : Frame m s t :=
  ⟨fun k i a _ => h.reg k i a, fun c _ => h.core c, fun p _ => h.part p, fun p _ => h.fabPort p, fun x _ => by rw [h.mem], fun _ => h.chain,
    fun _ => h.spr, fun _ => h.ctl, fun _ => h.sby, fun _ => h.sec, h.now⟩

theorem Frame.setReg (m : Touches) (s : Dev) (k : RegKind) (i v : Nat) (h : m.reg k i) : Frame m s (s.setReg k i v) :=
  ⟨fun k' i' _ hn => s.reg_setReg_ne k k' i i' v (fun e => hn (e.1 ▸ e.2 ▸ h)), fun _ _ => rfl, fun _ _ => rfl, fun _ _ => rfl, fun _ _ => rfl,
    fun _ => rfl, fun _ => rfl, fun _ => rfl, fun _ => rfl, fun _ => rfl, rfl⟩

theorem Frame.setFld (m : Touches) (s : Dev) (f : Fld) (i v : Nat) (h : m.reg f.reg i) : Frame m s (s.setFld f i v) :=
  Frame.setReg m s f.reg i _ h

theorem Frame.setCore (m : Touches) (s : Dev) (c : Nat) (x : Core) (h : m.core c) : Frame m s (s.setCore c x) :=
  ⟨fun _ _ _ _ => rfl, fun j hj => s.setCore_ne c j x (fun e => hj (e ▸ h)), fun _ _ => rfl, fun _ _ => rfl, fun _ _ => rfl, fun _ => rfl,
    fun _ => rfl, fun _ => rfl, fun _ => rfl, fun _ => rfl, rfl⟩

theorem Frame.setPart (m : Touches) (s : Dev) (p : Nat) (x : Part) (h : m.part p) : Frame m s (s.setPart p x) :=
  ⟨fun _ _ _ _ => rfl, fun _ _ => rfl, fun j hj => s.setPart_ne p j x (fun e => hj (e ▸ h)), fun _ _ => rfl, fun _ _ => rfl, fun _ => rfl,
    fun _ => rfl, fun _ => rfl, fun _ => rfl, fun _ => rfl, rfl⟩

theorem Frame.setFab (m : Touches) (s : Dev) (p : Nat) (x : FabPortSt) (h : m.fab p) : Frame m s (s.setFab p x) :=
  ⟨fun _ _ _ _ => rfl, fun _ _ => rfl, fun _ _ => rfl, fun j hj => s.setFab_ne p j x (fun e => hj (e ▸ h)), fun _ _ => rfl, fun _ => rfl,
    fun _ => rfl, fun _ => rfl, fun _ => rfl, fun _ => rfl, rfl⟩

theorem Frame.emit (m : Touches) (s : Dev) (o : Out) : Frame m s (s.emit o) :=
  ⟨fun _ _ _ _ => rfl, fun _ _ => rfl, fun _ _ => rfl, fun _ _ => rfl, fun _ _ => rfl, fun _ => rfl, fun _ => rfl, fun _ => rfl, fun _ => rfl,
    fun _ => rfl, rfl⟩

theorem Frame.setHost (m : Touches) (s : Dev) (p : Nat) (x : HostPortSt) : Frame m s (s.setHost p x) := Frame.quiet m (Quiet.setHost s p x)

theorem Frame.raise (m : Touches) (s : Dev) (d c : Nat) : Frame m s (s.raise d c) := Frame.quiet m (Quiet.raise s d c)
theorem Frame.raiseN (m : Touches) (s : Dev) (d c n : Nat) : Frame m s (s.raiseN d c n) := Frame.quiet m (Quiet.raiseN s d c n)
theorem Frame.raiseDev (m : Touches) (s : Dev) (c : Nat) : Frame m s (s.raiseDev c) := Frame.quiet m (Quiet.raiseDev s c)

theorem Frame.perf (m : Touches) (s : Dev) (k : RegKind) (i d n : Nat) (h : m.reg k i) : Frame m s (s.perf k i d n) := by
  unfold Dev.perf
  dsimp only
  split
  · exact (Frame.setReg m s k i _ h).trans (Frame.raise m _ _ _)
  · exact Frame.setReg m s k i _ h

theorem Frame.perfCore (m : Touches) (s : Dev) (k : RegKind) (c n : Nat) (h : m.reg k c) : Frame m s (s.perfCore k c n) := by
  unfold Dev.perfCore
  split
  · exact Frame.refl m s
  · exact Frame.perf m s k c _ n h

/-- A fold of steps that keep a frame keeps it. -/
theorem Frame.each {α : Type} (m : Touches) (s : Dev) (xs : List α) (f : α → Dev → Dev) (h : ∀ x ∈ xs, ∀ s, Frame m s (f x s)) :
    Frame m s (s.each xs f) := by
  unfold Dev.each
  induction xs generalizing s with
  | nil => exact Frame.refl m s
  | cons x xs ih => exact (h x (by simp) s).trans (ih (f x s) (fun y hy t => h y (by simp [hy]) t))

theorem Frame.ite (m : Touches) {s t u : Dev} (b : Prop) [Decidable b] (h : b → Frame m s t) (g : ¬b → Frame m s u) :
    Frame m s (if b then t else u) := by split <;> simp_all

/-- A frame that names more is weaker. -/
theorem Frame.weaken {m n : Touches} {s t : Dev} (h : Frame m s t) (reg : ∀ k i, m.reg k i → n.reg k i) (core : ∀ c, m.core c → n.core c)
    (part : ∀ c, m.part c → n.part c) (fab : ∀ c, m.fab c → n.fab c) (byte : ∀ a, m.byte a → n.byte a) (chain : m.chain → n.chain)
    (spr : m.spr → n.spr) (ctl : m.ctl → n.ctl) (sby : m.sby → n.sby) (sec : m.sec → n.sec) : Frame n s t :=
  ⟨fun k i a b => h.reg k i a (fun x => b (reg k i x)), fun c a => h.core c (fun x => a (core c x)), fun c a => h.part c (fun x => a (part c x)),
    fun c a => h.fab c (fun x => a (fab c x)), fun c a => h.byte c (fun x => a (byte c x)), fun a => h.chain (fun x => a (chain x)),
    fun a => h.spr (fun x => a (spr x)), fun a => h.ctl (fun x => a (ctl x)), fun a => h.sby (fun x => a (sby x)),
    fun a => h.sec (fun x => a (sec x)), h.now⟩

end Sys2Proof.Machine
end

