-- ==== Sys2Proof/Laws/Stops.lean ====
section
/-!
SUPPORT. What retracting and voting unclean leave alone, and what stopping a core does (R272, R324, R400).
-/
namespace Sys2Proof.Machine

/-- What messages of a partition may change: drop counters, collective status and verdicts, partitions and fabric ports. -/
def wires : Touches where
  reg := fun k _ => k = .FAB_PORT_DROP ∨ k = .FAB_INJDROP ∨ k = .GRP_STAT ∨ k = .STEP_STAT
  part := fun _ => True
  fab := fun _ => True

/-- Codes that messages raise. -/
def wireCodes : List Nat :=
  [Ev.FAB_SLICE, Ev.FAB_NOROUTE, Ev.FAB_STALL, Ev.COLL_FOREIGN, Ev.COLL_STALE, Ev.COLL_POISON, Ev.COLL_RETRACT]

/-- What sending messages does: only what `wires` names changes, only those codes are counted, and no verdict turns clean. -/
structure Wired (s t : Dev) : Prop where
  frame : Frame wires s t
  events : ∀ d c, c < 65536 → ¬ c ∈ wireCodes → t.events d c = s.events d c
  unclean : ∀ p, s.flag Fld.STEP_STAT_UNCLEAN p = true → t.flag Fld.STEP_STAT_UNCLEAN p = true

theorem Wired.refl (s : Dev) : Wired s s := ⟨Frame.refl _ s, fun _ _ _ _ => rfl, fun _ h => h⟩

theorem Wired.trans {s t u : Dev} (h : Wired s t) (g : Wired t u) : Wired s u :=
  ⟨h.frame.trans g.frame, fun d c a b => (g.events d c a b).trans (h.events d c a b), fun p a => g.unclean p (h.unclean p a)⟩

theorem Dev.flag_of_reg {s t : Dev} (f : Fld) (i : Nat) (h : t.reg f.reg i = s.reg f.reg i) : t.flag f i = s.flag f i := by
  unfold Dev.flag Dev.fld; rw [h]

theorem Wired.raiseN (s : Dev) (d c n : Nat) (h : c ∈ wireCodes) : Wired s (s.raiseN d c n) := by
  refine ⟨Frame.raiseN _ _ _ _ _, fun d' c' a b => Dev.raiseN_events_ne s d d' c c' n ?_ a (fun e => b (e.2 ▸ h)), fun p a => ?_⟩
  · revert h; revert c; decide
  · rw [Dev.flag_of_reg _ _ (Dev.raiseN_reg s d c n _ _ rfl)]; exact a

theorem Wired.raise (s : Dev) (d c : Nat) (h : c ∈ wireCodes) : Wired s (s.raise d c) := Wired.raiseN s d c 1 h

theorem Wired.setFab (s : Dev) (p : Nat) (x : FabPortSt) : Wired s (s.setFab p x) :=
  ⟨Frame.setFab _ s p x trivial, fun _ _ _ _ => rfl, fun _ h => h⟩

theorem Wired.setPart (s : Dev) (p : Nat) (x : Part) : Wired s (s.setPart p x) :=
  ⟨Frame.setPart _ s p x trivial, fun _ _ _ _ => rfl, fun _ h => h⟩

theorem Wired.emit (s : Dev) (o : Out) : Wired s (s.emit o) := ⟨Frame.emit _ s o, fun _ _ _ _ => rfl, fun _ h => h⟩

theorem Wired.setReg (s : Dev) (k : RegKind) (i v : Nat) (h : k = .FAB_PORT_DROP ∨ k = .FAB_INJDROP ∨ k = .GRP_STAT) :
    Wired s (s.setReg k i v) := by
  have a : k ≠ .CTL_EVCNT := by rcases h with rfl | rfl | rfl <;> decide
  have b : k ≠ .STEP_STAT := by rcases h with rfl | rfl | rfl <;> decide
  exact ⟨Frame.setReg _ _ _ _ _ (by rcases h with h | h | h <;> simp [wires, h]), fun d c _ _ => Dev.events_setReg s k i v d c a,
    fun p g => by rw [Dev.flag_of_reg _ _ (Dev.reg_setReg_kind s k .STEP_STAT i p v (fun e => b e.symm))]; exact g⟩

theorem Wired.drop (s : Dev) (input : Nat) (why : DropWhy) (n : Nat) : Wired s (s.drop input why n) := by
  have link : ∀ (k : RegKind) (lo l2 i m : Nat), (k = .FAB_PORT_DROP ∨ k = .FAB_INJDROP) → Wired s (s.countLink ⟨k, lo, 16⟩ ⟨k, l2, 1⟩ i m) := by
    intro k lo l2 i m h
    have h' : k = .FAB_PORT_DROP ∨ k = .FAB_INJDROP ∨ k = .GRP_STAT := by tauto
    unfold Dev.countLink
    dsimp only
    split
    · exact Wired.setReg s k i _ h'
    · exact (Wired.setReg s k i _ h').trans (Wired.setReg _ k i _ h')
  have hk : (if input < 36 then RegKind.FAB_PORT_DROP else RegKind.FAB_INJDROP) = .FAB_PORT_DROP ∨
      (if input < 36 then RegKind.FAB_PORT_DROP else RegKind.FAB_INJDROP) = .FAB_INJDROP := by split <;> simp
  unfold Dev.drop
  cases why <;> exact (link _ _ _ _ _ hk).trans (Wired.raiseN _ _ _ _ (by decide))

theorem Wired.freeBuf (s : Dev) (input vc n : Nat) : Wired s (s.freeBuf input vc n) := by
  unfold Dev.freeBuf
  dsimp only
  split
  · exact Wired.refl s
  · split
    · exact (Wired.setFab s _ _).trans ((Wired.setFab _ _ _).trans (Wired.emit _ _))
    · exact Wired.setFab s _ _

theorem Wired.routePkt (s : Dev) (input : Nat) (p : Packet) : Wired s (s.routePkt input p).1 := by
  unfold Dev.routePkt
  dsimp only
  have d : ∀ why, Wired s ((s.drop input why 1).freeBuf input p.vc p.flits) := fun why => (Wired.drop s input why 1).trans (Wired.freeBuf _ _ _ _)
  repeat' split
  all_goals first | exact d _ | exact Wired.freeBuf s _ _ _ | exact Wired.setFab s _ _

theorem Wired.inject (s : Dev) (die : Nat) (p : Packet) : Wired s (s.inject die p).1 := by
  unfold Dev.inject
  split
  · exact Wired.refl s
  · exact Wired.routePkt s _ _

/-- Making a verdict unclean: UNCLEAN stays or becomes 1. -/
theorem Wired.markUnclean (s : Dev) (p code : Nat) : Wired s (s.markUnclean p code).1 ∧ (s.markUnclean p code).1.flag Fld.STEP_STAT_UNCLEAN p = true := by
  have set : ∀ (t : Dev) (q v : Nat), (t.setFld Fld.STEP_STAT_CAUSE q v).flag Fld.STEP_STAT_UNCLEAN = t.flag Fld.STEP_STAT_UNCLEAN := by
    intro t q v; funext i
    unfold Dev.flag
    rw [Dev.fld_setFld_apart t Fld.STEP_STAT_CAUSE Fld.STEP_STAT_UNCLEAN q i v (by decide) (by decide)]
  have one : ∀ (t : Dev) (q : Nat), (t.setFld Fld.STEP_STAT_UNCLEAN q 1).flag Fld.STEP_STAT_UNCLEAN q = true := by
    intro t q
    unfold Dev.flag
    rw [Dev.fld_setFld_self t Fld.STEP_STAT_UNCLEAN q 1 (by decide)]; rfl
  have cause : ∀ (t : Dev) (v : Nat), Wired t (t.setFld Fld.STEP_STAT_CAUSE p v) := fun t v =>
    ⟨Frame.setFld _ _ _ _ _ (by simp [wires, Fld.STEP_STAT_CAUSE]), fun d c _ _ => Dev.events_setFld t _ _ _ _ _ (by decide),
      fun q h => by rw [set]; exact h⟩
  have mark : Wired s (s.setFld Fld.STEP_STAT_UNCLEAN p 1) := by
    refine ⟨Frame.setFld _ _ _ _ _ (by simp [wires, Fld.STEP_STAT_UNCLEAN]), fun d c _ _ => Dev.events_setFld s _ _ _ _ _ (by decide), fun q h => ?_⟩
    by_cases e : q = p
    · subst e; exact one s q
    · unfold Dev.flag; rw [Dev.fld_setFld_inst s Fld.STEP_STAT_UNCLEAN Fld.STEP_STAT_UNCLEAN p q 1 e]; exact h
  unfold Dev.markUnclean
  split
  · rename_i h
    dsimp only
    split
    · exact ⟨cause s code, by rw [set]; exact h⟩
    · exact ⟨Wired.refl s, h⟩
  · exact ⟨(mark.trans (cause _ _)).trans (Wired.setPart _ _ _), by
      change ((s.setFld Fld.STEP_STAT_UNCLEAN p 1).setFld Fld.STEP_STAT_CAUSE p code).flag Fld.STEP_STAT_UNCLEAN p = true
      rw [set]; exact one s p⟩

theorem Wired.retract (s : Dev) (p : Nat) : Wired s (s.retract p).1 := by
  unfold Dev.retract
  split
  · exact Wired.refl s
  · exact (Wired.setReg s _ _ _ (.inr (.inr rfl))).trans (Wired.raiseN _ _ _ _ (by decide))

theorem Wired.poison (s : Dev) (p : Nat) : Wired s (s.poison p).1 := by
  unfold Dev.poison
  split
  · exact Wired.refl s
  · exact (((Wired.setReg s _ _ _ (.inr (.inr rfl))).trans (Wired.raise _ _ _ (by decide))).trans (Wired.markUnclean _ _ _).1).trans (Wired.retract _ _)

theorem Wired.applyMessage (s : Dev) (d : Delivery) : Wired s (s.applyMessage d).1 := by
  unfold Dev.applyMessage
  dsimp only
  repeat' split
  all_goals first
    | exact Wired.raise s _ _ (by decide)
    | exact (Wired.setPart s _ _).trans (Wired.poison _ _)
    | exact Wired.setPart s _ _

theorem Wired.sendMessages (fuel : Nat) (s : Dev) (ms : List (Nat × Packet)) : Wired s (Dev.sendMessages fuel s ms) := by
  induction fuel generalizing s ms with
  | zero => exact Wired.refl s
  | succ n ih =>
    unfold Dev.sendMessages
    dsimp only
    generalize hr : ms.foldl (fun (acc : Dev × List (Nat × Packet)) m =>
      let i := acc.1.inject m.1 m.2
      match i.2 with
      | none => (i.1, acc.2)
      | some d => let a := i.1.applyMessage d; (a.1, acc.2 ++ a.2)) (s, []) = r
    have w : Wired s r.1 := by
      subst hr
      generalize ([] : List (Nat × Packet)) = out
      induction ms generalizing s out with
      | nil => exact Wired.refl s
      | cons m ms ihm =>
        simp only [List.foldl_cons]
        refine Wired.trans ?_ (ihm _ _)
        have a := Wired.inject s m.1 m.2
        change Wired s (match (s.inject m.1 m.2).2 with
          | none => ((s.inject m.1 m.2).1, out)
          | some d => (((s.inject m.1 m.2).1.applyMessage d).1, out ++ ((s.inject m.1 m.2).1.applyMessage d).2)).1
        split
        · exact a
        · exact a.trans (Wired.applyMessage _ _)
    split
    · exact w
    · exact w.trans (ih _ _)

theorem Wired.unclean_step (s : Dev) (p code : Nat) : Wired s (s.unclean p code) := by
  unfold Dev.unclean
  dsimp only
  split
  · exact Wired.refl s
  · split
    · exact ((Wired.markUnclean s p code).1.trans (Wired.retract _ _)).trans (Wired.sendMessages _ _ _)
    · exact (Wired.markUnclean s p code).1

/-- A verdict that awaits its vote is unclean afterwards (R324). -/
theorem Dev.unclean_flag (s : Dev) (p code : Nat) (h : (s.part p).stepping = true) (g : (s.part p).voteFired = false) :
    (s.unclean p code).flag Fld.STEP_STAT_UNCLEAN p = true := by
  unfold Dev.unclean
  dsimp only
  rw [if_neg (by simp [h, g])]
  split
  · exact ((Wired.retract _ _).trans (Wired.sendMessages _ _ _)).unclean p (Wired.markUnclean s p code).2
  · exact (Wired.markUnclean s p code).2

end Sys2Proof.Machine
end

