-- ==== Sys2Proof/Laws/Issue.lean ====
section
/-!
SUPPORT. What issuing an instruction does, once for each way it can end (R231, R234, R235, R267, R271, R272).
-/
namespace Sys2Proof.Machine

/-- A frame that names nothing. -/
theorem Frame.same {s t : Dev} (h : Frame {} s t) (m : Touches) : Frame m s t :=
  h.weaken (fun _ _ x => x.elim) (fun _ x => x.elim) (fun _ x => x.elim) (fun _ x => x.elim) (fun _ x => x.elim) (fun x => x.elim)
    (fun x => x.elim) (fun x => x.elim) (fun x => x.elim) (fun x => x.elim)

theorem Frame.issued (m : Touches) (s : Dev) (c n : Nat) (hc : m.core c) (hr : m.reg .CORE_PC_ISSUE c) : Frame m s (s.issued c n) := by
  unfold Dev.issued
  exact ((Frame.setCore m s c _ hc).trans (Frame.setCore m _ c _ hc)).trans (Frame.perfCore m _ _ _ _ hr)

/-- A fetch changes only the group held. -/
theorem Core.fetchFrom_eq (x : Core) (m : Memory) (c : Nat) : ∃ g, x.fetchFrom m c = { x with fetched := g } := by
  unfold Core.fetchFrom
  dsimp only
  split
  · exact ⟨x.fetched, rfl⟩
  · exact ⟨_, rfl⟩

/-- The core, its count and the rest after an instruction has issued. -/
theorem Carried.issued (s : State) (d : Dev) (c n : Nat) (x : Core) (m : Touches) (hx : { d.core c with pc := BitVec.ofNat 64 n } = x)
    (hf : Frame { m with core := fun j => m.core j ∨ j = c } s.dev d) (hc : d.reg .CORE_PC_ISSUE c = s.dev.reg .CORE_PC_ISSUE c) :
    Carried s { s with dev := d.issued c n } c x m := by
  refine ⟨?_, ?_, ?_, rfl, rfl⟩
  · show (d.issued c n).core c = x.fetchFrom (d.issued c n).mem c
    unfold Dev.issued Dev.fetch
    rw [Dev.perfCore_core, Dev.perfCore_mem, Dev.setCore_self, Dev.setCore_self, hx]
    rfl
  · unfold Dev.issued Dev.perfCore
    rw [if_neg (by decide), Dev.perf_self _ _ _ _ _ rfl]
    show (d.reg .CORE_PC_ISSUE c + 1) % 2 ^ 48 = _
    rw [hc]
  · have a : Frame { m with core := fun j => m.core j ∨ j = c, reg := fun k i => m.reg k i ∨ (k = .CORE_PC_ISSUE ∧ i = c) } s.dev d :=
      hf.weaken (fun _ _ h => Or.inl h) (fun _ h => h) (fun _ h => h) (fun _ h => h) (fun _ h => h) (fun h => h) (fun h => h) (fun h => h)
        (fun h => h) (fun h => h)
    exact a.trans (Frame.issued _ d c n (Or.inr rfl) (Or.inr ⟨rfl, rfl⟩))

theorem pc_next (x : Word) : BitVec.ofNat 64 (x.toNat + 8) = x + 8 := by
  apply BitVec.eq_of_toNat_eq
  rw [BitVec.toNat_ofNat, BitVec.toNat_add]
  rfl

/-- The same after an update of the core alone, moving on by one word. -/
theorem Carried.put (s : State) (c : Nat) (x : Core) (hx : x.pc = (s.dev.core c).pc) :
    Carried s { s with dev := (s.dev.setCore c x).issued c (s.dev.pcOf c + 8) } c x.moved {} := by
  refine Carried.issued s _ c _ _ {} ?_ (Frame.setCore _ _ _ _ (Or.inr rfl)) rfl
  rw [Dev.setCore_self]
  unfold Core.moved Dev.pcOf
  rw [pc_next, hx]

/-- The same after nothing but the move. -/
theorem Carried.move (s : State) (c : Nat) : Carried s { s with dev := s.dev.issued c (s.dev.pcOf c + 8) } c (s.dev.core c).moved {} := by
  refine Carried.issued s _ c _ _ {} ?_ (Frame.refl _ _) rfl
  unfold Core.moved Dev.pcOf
  rw [pc_next]

variable (s : Dev) (c w : Nat) (legal : Bool) (uses : List Nat) (act : Nat → Act)

/-- An instruction that may not issue changes nothing; LOSS in the cycle of a first non-finite loss apart. -/
theorem Dev.issue_barred (h : s.mayIssue c = false) (g : opOf w ≠ 0x26) : s.issue c w legal uses act = s := by
  unfold Dev.issue
  rw [if_pos (by simp [h, g])]

theorem Dev.issue_act (h : Issues s c w legal uses) : s.issue c w legal uses act =
    match act ((s.core c).guard w) with
    | .done t => t.issued c (s.pcOf c + 8)
    | .jump t n => (t.refetch c).issued c n
    | .stop code addr => s.stopCore c code (s.pcOf c) addr
    | .hold k => s.perfCore k c 1
    | .stay t => t := by
  have hp : ¬ payloadEnd ≤ (s.core c).pc.toNat := by have := h.pc; omega
  have hg : ¬(opOf w < 0xA0 ∧ ((s.core c).guard w).testBit 0 = false) := by rintro ⟨a, b⟩; rw [h.guard a] at b; cases b
  unfold Dev.issue
  rw [if_neg (by simp [h.may])]
  dsimp only
  rw [if_neg hp, if_neg hg, if_neg (by simp [h.legal]), if_neg (by rw [h.free]; simp)]
  rfl

theorem Dev.issue_done {t : Dev} (h : Issues s c w legal uses) (ha : act ((s.core c).guard w) = .done t) :
    s.issue c w legal uses act = t.issued c (s.pcOf c + 8) := by rw [Dev.issue_act s c w legal uses act h, ha]

theorem Dev.issue_jump {t : Dev} {n : Nat} (h : Issues s c w legal uses) (ha : act ((s.core c).guard w) = .jump t n) :
    s.issue c w legal uses act = (t.refetch c).issued c n := by rw [Dev.issue_act s c w legal uses act h, ha]

theorem Dev.issue_stop {code addr : Nat} (h : Issues s c w legal uses) (ha : act ((s.core c).guard w) = .stop code addr) :
    s.issue c w legal uses act = s.stopCore c code (s.pcOf c) addr := by rw [Dev.issue_act s c w legal uses act h, ha]

theorem Dev.issue_hold {k : RegKind} (h : Issues s c w legal uses) (ha : act ((s.core c).guard w) = .hold k) :
    s.issue c w legal uses act = s.perfCore k c 1 := by rw [Dev.issue_act s c w legal uses act h, ha]

theorem Dev.issue_stay {t : Dev} (h : Issues s c w legal uses) (ha : act ((s.core c).guard w) = .stay t) :
    s.issue c w legal uses act = t := by rw [Dev.issue_act s c w legal uses act h, ha]

/-- Under a false guard an instruction outside the vector unit only moves on (R235). -/
theorem Dev.issue_guarded (h : s.mayIssue c = true) (hp : s.pcOf c < payloadEnd) (ho : opOf w < 0xA0)
    (hg : ((s.core c).guard w).testBit 0 = false) : s.issue c w legal uses act = s.issued c (s.pcOf c + 8) := by
  unfold Dev.pcOf at hp
  unfold Dev.issue
  rw [if_neg (by simp [h])]
  dsimp only
  rw [if_neg (by omega), if_pos ⟨ho, hg⟩]
  rfl

/-- A word that breaks R234 stops its core as illegal. -/
theorem Dev.issue_illegal (h : s.mayIssue c = true) (hp : s.pcOf c < payloadEnd) (hg : opOf w < 0xA0 → ((s.core c).guard w).testBit 0 = true)
    (hl : legal = false) : s.issue c w legal uses act = s.stopCore c Ev.CORE_ILLEGAL (s.pcOf c) 0 := by
  unfold Dev.pcOf at hp
  unfold Dev.issue
  rw [if_neg (by simp [h])]
  dsimp only
  rw [if_neg (by omega), if_neg (by rintro ⟨a, b⟩; rw [hg a] at b; cases b), if_pos (by simp [hl])]
  rfl

theorem Dev.mayIssue_state (h : s.mayIssue c = true) : s.fld Fld.CORE_STAT_STATE c = coreRun := by
  unfold Dev.mayIssue Dev.sequencing at h
  simp only [Bool.and_eq_true, decide_eq_true_eq] at h
  exact h.1.1.1.1.2

theorem Dev.mayIssue_nan (h : s.mayIssue c = true) : (s.part (s.corePart c)).nanStop = false := by
  unfold Dev.mayIssue Dev.sequencing at h
  simp only [Bool.and_eq_true, Bool.not_eq_true'] at h
  exact h.1.1.2

theorem Dev.stopped_reg (fpc code addr : Nat) (k : RegKind) (i : Nat)
    (h : k ≠ .CORE_STAT ∧ k ≠ .CORE_FPC ∧ k ≠ .CORE_FADDR) : (s.stopped c code fpc addr).reg k i = s.reg k i := by
  unfold Dev.stopped
  dsimp only
  rw [Dev.setCore_reg, Dev.reg_setReg_kind _ _ _ _ _ _ h.2.2, Dev.reg_setReg_kind _ _ _ _ _ _ h.2.1, Dev.reg_setFld_kind _ _ _ _ _ _ h.1,
    Dev.reg_setFld_kind _ _ _ _ _ _ h.1]

theorem Dev.stopped_stat (fpc code addr : Nat) : (s.stopped c code fpc addr).reg .CORE_STAT c =
    ((s.setFld Fld.CORE_STAT_STATE c coreStopped).setFld Fld.CORE_STAT_CAUSE c code).reg .CORE_STAT c := by
  unfold Dev.stopped
  dsimp only
  rw [Dev.setCore_reg, Dev.reg_setReg_kind _ _ _ _ _ _ (by decide), Dev.reg_setReg_kind _ _ _ _ _ _ (by decide)]

theorem Dev.stopped_state (fpc code addr : Nat) : (s.stopped c code fpc addr).fld Fld.CORE_STAT_STATE c = coreStopped := by
  have : (s.stopped c code fpc addr).fld Fld.CORE_STAT_STATE c =
      ((s.setFld Fld.CORE_STAT_STATE c coreStopped).setFld Fld.CORE_STAT_CAUSE c code).fld Fld.CORE_STAT_STATE c := by
    unfold Dev.fld
    exact congrArg (fun n => n / 2 ^ Fld.CORE_STAT_STATE.lo % 2 ^ Fld.CORE_STAT_STATE.width) (s.stopped_stat c fpc code addr)
  rw [this, Dev.fld_setFld_apart _ _ _ _ _ _ (by decide) (by decide), Dev.fld_setFld_self _ _ _ _ (by decide)]
  decide

theorem Dev.stopped_cause (fpc code addr : Nat) (h : code < 65536) : (s.stopped c code fpc addr).fld Fld.CORE_STAT_CAUSE c = code := by
  have : (s.stopped c code fpc addr).fld Fld.CORE_STAT_CAUSE c =
      ((s.setFld Fld.CORE_STAT_STATE c coreStopped).setFld Fld.CORE_STAT_CAUSE c code).fld Fld.CORE_STAT_CAUSE c := by
    unfold Dev.fld
    exact congrArg (fun n => n / 2 ^ Fld.CORE_STAT_CAUSE.lo % 2 ^ Fld.CORE_STAT_CAUSE.width) (s.stopped_stat c fpc code addr)
  rw [this, Dev.fld_setFld_self _ _ _ _ (by decide)]
  exact Nat.mod_eq_of_lt h

theorem Dev.stopped_fpc (fpc code addr : Nat) : (s.stopped c code fpc addr).reg .CORE_FPC c = fpc % 2 ^ 20 := by
  unfold Dev.stopped
  dsimp only
  rw [Dev.setCore_reg, Dev.reg_setReg_kind _ _ _ _ _ _ (by decide), Dev.reg_setReg_self]
  exact Nat.mod_eq_of_lt (Nat.lt_trans (Nat.mod_lt _ (by decide)) (by decide))

theorem Dev.stopped_faddr (fpc code addr : Nat) :
    (s.stopped c code fpc addr).reg .CORE_FADDR c = if code = Ev.CORE_ADDR then addr % 2 ^ 52 else 0 := by
  unfold Dev.stopped
  dsimp only
  rw [Dev.setCore_reg, Dev.reg_setReg_self]
  split
  · exact Nat.mod_eq_of_lt (Nat.lt_trans (Nat.mod_lt _ (by decide)) (by decide))
  · rfl

theorem Dev.stopped_core (fpc code addr : Nat) :
    (s.stopped c code fpc addr).core c = { s.core c with arrayQ := [], edgeQ := [], barrier := none } := by
  unfold Dev.stopped
  dsimp only
  rw [Dev.setCore_self]
  simp only [Dev.setReg_core, Dev.setFld_core]

theorem Dev.stopped_core_ne (fpc code addr j : Nat) (h : j ≠ c) : (s.stopped c code fpc addr).core j = s.core j := by
  unfold Dev.stopped
  dsimp only
  rw [Dev.setCore_ne _ _ _ _ h]
  simp only [Dev.setReg_core, Dev.setFld_core]

theorem Dev.stopped_mem (fpc code addr : Nat) : (s.stopped c code fpc addr).mem = s.mem := rfl
theorem Dev.stopped_parts (fpc code addr : Nat) : (s.stopped c code fpc addr).parts = s.parts := rfl

theorem Dev.stopped_events (fpc code addr d e : Nat) : (s.stopped c code fpc addr).events d e = s.events d e := by
  unfold Dev.events Dev.fld
  rw [Dev.stopped_reg s c fpc code addr _ _ (by decide)]

/-- What a stop does (R272). -/
theorem Stopped.stopCore (s : State) (c code fpc addr : Nat) (h : s.dev.fld Fld.CORE_STAT_STATE c ≠ coreStopped) (hc : code < 65536)
    (hw : ¬ code ∈ wireCodes) :
    Stopped s { s with dev := s.dev.stopCore c code fpc addr } c code (fpc % 2 ^ 20) (if code = Ev.CORE_ADDR then addr % 2 ^ 52 else 0) := by
  have e : s.dev.stopCore c code fpc addr = ((s.dev.stopped c code fpc addr).raise (coreDie c) code).unclean (s.dev.corePart c) code := by
    unfold Dev.stopCore
    rw [if_neg h]
  have q := Quiet.raise (s.dev.stopped c code fpc addr) (coreDie c) code
  have w := Wired.unclean_step ((s.dev.stopped c code fpc addr).raise (coreDie c) code) (s.dev.corePart c) code
  have r : ∀ k i, k.counting = false → ¬ wires.reg k i → (s.dev.stopCore c code fpc addr).reg k i = (s.dev.stopped c code fpc addr).reg k i := by
    intro k i a b
    rw [e, w.frame.reg k i a b, q.reg k i a]
  have f : ∀ (g : Fld) i, g.reg.counting = false → ¬ wires.reg g.reg i →
      (s.dev.stopCore c code fpc addr).fld g i = (s.dev.stopped c code fpc addr).fld g i := by
    intro g i a b
    unfold Dev.fld
    rw [r g.reg i a b]
  refine ⟨?_, ?_, ?_, ?_, ?_, ?_, ?_, ?_, ?_, rfl, rfl⟩
  · exact (f Fld.CORE_STAT_STATE c rfl (by simp [wires, Fld.CORE_STAT_STATE])).trans (s.dev.stopped_state c fpc code addr)
  · exact (f Fld.CORE_STAT_CAUSE c rfl (by simp [wires, Fld.CORE_STAT_CAUSE])).trans (s.dev.stopped_cause c fpc code addr hc)
  · exact (r .CORE_FPC c rfl (by simp [wires])).trans (s.dev.stopped_fpc c fpc code addr)
  · exact (r .CORE_FADDR c rfl (by simp [wires])).trans (s.dev.stopped_faddr c fpc code addr)
  · show (s.dev.stopCore c code fpc addr).events _ _ = _
    rw [e, w.events _ _ hc hw, Dev.raise_events, Dev.stopped_events]
  · show (s.dev.stopCore c code fpc addr).core c = _
    rw [e, w.frame.core c (by simp [wires]), q.core, Dev.stopped_core]
  · intro j hj
    show (s.dev.stopCore c code fpc addr).core j = _
    rw [e, w.frame.core j (by simp [wires]), q.core, Dev.stopped_core_ne _ _ _ _ _ _ hj]
  · intro a
    show Memory.byte (s.dev.stopCore c code fpc addr).mem a = _
    rw [e, w.frame.byte a (by simp [wires]), q.mem, Dev.stopped_mem]
  · intro h1 h2
    have p : ∀ n, ((s.dev.stopped c code fpc addr).raise (coreDie c) code).part n = s.dev.part n := by
      intro n; rw [q.part]; rfl
    show (s.dev.stopCore c code fpc addr).flag _ _ = _
    rw [e]
    exact Dev.unclean_flag _ _ _ (by rw [p]; exact h1) (by rw [p]; exact h2)

/-! ### The outcomes of a command that issues -/

variable {w legal uses act}

theorem leadsTo.done {s : State} {c : Nat} {t : Dev} {P : State → Prop} (h : Issues s.dev c w legal uses)
    (ha : act ((s.dev.core c).guard w) = .done t) (hP : P { s with dev := t.issued c (s.dev.pcOf c + 8) }) :
    leadsTo (ok s (s.dev.issue c w legal uses act)) P :=
  ⟨_, rfl, by rw [Dev.issue_done s.dev c w legal uses act h ha]; exact hP⟩

theorem leadsTo.jump {s : State} {c n : Nat} {t : Dev} {P : State → Prop} (h : Issues s.dev c w legal uses)
    (ha : act ((s.dev.core c).guard w) = .jump t n) (hP : P { s with dev := (t.refetch c).issued c n }) :
    leadsTo (ok s (s.dev.issue c w legal uses act)) P :=
  ⟨_, rfl, by rw [Dev.issue_jump s.dev c w legal uses act h ha]; exact hP⟩

theorem leadsTo.hold {s : State} {c : Nat} {k : RegKind} {P : State → Prop} (h : Issues s.dev c w legal uses)
    (ha : act ((s.dev.core c).guard w) = .hold k) (hP : P { s with dev := s.dev.perfCore k c 1 }) :
    leadsTo (ok s (s.dev.issue c w legal uses act)) P :=
  ⟨_, rfl, by rw [Dev.issue_hold s.dev c w legal uses act h ha]; exact hP⟩

theorem leadsTo.stay {s : State} {c : Nat} {t : Dev} {P : State → Prop} (h : Issues s.dev c w legal uses)
    (ha : act ((s.dev.core c).guard w) = .stay t) (hP : P { s with dev := t }) : leadsTo (ok s (s.dev.issue c w legal uses act)) P :=
  ⟨_, rfl, by rw [Dev.issue_stay s.dev c w legal uses act h ha]; exact hP⟩

/-- A stop of an instruction that issues, of a code the fabric does not raise. -/
theorem leadsTo.stop {s : State} {c code addr : Nat} (h : Issues s.dev c w legal uses)
    (ha : act ((s.dev.core c).guard w) = .stop code addr) (hc : code < 65536) (hw : ¬ code ∈ wireCodes) :
    leadsTo (ok s (s.dev.issue c w legal uses act))
      (fun t => Stopped s t c code (s.dev.pcOf c) (if code = Ev.CORE_ADDR then addr % 2 ^ 52 else 0)) := by
  refine ⟨_, rfl, ?_⟩
  have := Stopped.stopCore s c code (s.dev.pcOf c) addr (by rw [Dev.mayIssue_state _ _ h.may]; decide) hc hw
  have hp := h.pc
  rw [Nat.mod_eq_of_lt (by unfold payloadEnd at hp; unfold Dev.pcOf; omega)] at this
  rw [Dev.issue_stop s.dev c w legal uses act h ha]
  exact this

theorem leadsTo.stopIllegal {s : State} {c : Nat} (h : Issues s.dev c w legal uses)
    (ha : act ((s.dev.core c).guard w) = .stop Ev.CORE_ILLEGAL 0) :
    leadsTo (ok s (s.dev.issue c w legal uses act)) (fun t => Stopped s t c Ev.CORE_ILLEGAL (s.dev.pcOf c) 0) := by
  have := leadsTo.stop h ha (by decide) (by decide)
  rw [if_neg (by decide)] at this
  exact this

theorem leadsTo.stopAddr {s : State} {c addr : Nat} (h : Issues s.dev c w legal uses)
    (ha : act ((s.dev.core c).guard w) = .stop Ev.CORE_ADDR addr) :
    leadsTo (ok s (s.dev.issue c w legal uses act)) (fun t => Stopped s t c Ev.CORE_ADDR (s.dev.pcOf c) (addr % 2 ^ 52)) := by
  have := leadsTo.stop h ha (by decide) (by decide)
  rw [if_pos rfl] at this
  exact this

theorem after_done {s : State} {c : Nat} {t : Dev} (h : Issues s.dev c w legal uses) (ha : act ((s.dev.core c).guard w) = .done t) :
    ok s (s.dev.issue c w legal uses act) = after s c t := by
  rw [Dev.issue_done s.dev c w legal uses act h ha]
  rfl

end Sys2Proof.Machine
end

