-- ==== Sys2Proof/Laws/Memory.lean ====
section
/-!
SUPPORT. Laws of byte memory: a read after a write, what a write leaves alone, and that every memory operation keeps the canonical
form.
-/
namespace Sys2Proof.Machine

theorem leBytes_length (k n : Nat) : (leBytes k n).length = k := by
  induction k generalizing n with
  | zero => rfl
  | succ k ih => simp [leBytes, ih]

theorem leNat_lt (bs : List Byte) : leNat bs < 256 ^ bs.length := by
  induction bs with
  | nil => decide
  | cons b bs ih =>
    rw [leNat, List.length_cons, Nat.pow_succ]
    have := b.isLt
    omega

theorem leNat_leBytes (k n : Nat) (h : n < 256 ^ k) : leNat (leBytes k n) = n := by
  induction k generalizing n with
  | zero => rw [Nat.pow_zero] at h; obtain rfl : n = 0 := by omega
            rfl
  | succ k ih =>
    rw [Nat.pow_succ] at h
    simp only [leBytes, leNat, BitVec.toNat_ofNat]
    rw [ih (n / 256) (by omega)]
    omega

/-- What a write of bytes leaves at an address. -/
theorem Memory.byte_put (m : Memory) (a x : Nat) (bs : List Byte) :
    Memory.byte (Memory.put m a bs) x = if a ≤ x ∧ x < a + bs.length then bs.getD (x - a) 0 else Memory.byte m x := by
  unfold Memory.byte Memory.put
  by_cases h : a ≤ x ∧ x < a + bs.length
  · rw [SMap.read_splice_in 0 m _ _ _ x h.1 h.2, SMap.read_ofList, if_pos h, if_pos h]
  · rw [SMap.read_splice_out 0 m _ _ _ x (fun p hp => SMap.ofList_bound 0 a bs p hp) (by omega) (by omega), if_neg h]

/-- A write leaves every other address alone. -/
theorem Memory.byte_put_out (m : Memory) (a x : Nat) (bs : List Byte) (h : x < a ∨ a + bs.length ≤ x) :
    Memory.byte (Memory.put m a bs) x = Memory.byte m x := by
  rw [Memory.byte_put, if_neg (by omega)]

/-- Narrowing to a window does not change the bytes in it. -/
theorem Memory.bytesFrom_window (m : Memory) (lo hi a n : Nat) (h1 : lo ≤ a) (h2 : a + n ≤ hi) :
    Memory.bytesFrom (SMap.window m lo hi) a n = Memory.bytesFrom m a n := by
  induction n generalizing a with
  | zero => rfl
  | succ n ih =>
    simp only [Memory.bytesFrom]
    rw [ih (a + 1) (by omega) (by omega)]
    congr 1
    exact SMap.read_filter 0 m a _ (fun p hp => by simp; omega)

theorem Memory.bytes_eq (m : Memory) (a n : Nat) : Memory.bytes m a n = Memory.bytesFrom m a n :=
  Memory.bytesFrom_window m a (a + n) a n (Nat.le_refl _) (Nat.le_refl _)

@[simp] theorem Memory.bytes_length (m : Memory) (a n : Nat) : (Memory.bytes m a n).length = n := by
  rw [Memory.bytes_eq]
  induction n generalizing a with
  | zero => rfl
  | succ n ih => simp [Memory.bytesFrom, ih]

/-- The bytes read are those at the addresses. -/
theorem Memory.bytes_getD (m : Memory) (a n i : Nat) (h : i < n) : (Memory.bytes m a n).getD i 0 = Memory.byte m (a + i) := by
  rw [Memory.bytes_eq]
  induction n generalizing a i with
  | zero => omega
  | succ n ih =>
    cases i with
    | zero => rfl
    | succ i =>
      simp only [Memory.bytesFrom, List.getD_cons_succ]
      rw [ih (a + 1) i (by omega)]
      congr 1
      omega

/-- Bytes read equal when the memories agree on them. -/
theorem Memory.bytes_congr (m n : Memory) (a k : Nat) (h : ∀ x, a ≤ x → x < a + k → Memory.byte m x = Memory.byte n x) :
    Memory.bytes m a k = Memory.bytes n a k := by
  rw [Memory.bytes_eq, Memory.bytes_eq]
  induction k generalizing a with
  | zero => rfl
  | succ k ih =>
    simp only [Memory.bytesFrom]
    rw [h a (Nat.le_refl a) (by omega), ih (a + 1) (fun x h1 h2 => h x (by omega) (by omega))]

theorem Memory.bytes_append (m : Memory) (a n k : Nat) : Memory.bytes m a (n + k) = Memory.bytes m a n ++ Memory.bytes m (a + n) k := by
  simp only [Memory.bytes_eq]
  induction n generalizing a with
  | zero => simp [Memory.bytesFrom]
  | succ n ih =>
    rw [show n + 1 + k = (n + k) + 1 by omega]
    simp only [Memory.bytesFrom, List.cons_append]
    rw [ih (a + 1), show a + 1 + n = a + (n + 1) by omega]

/-- A write reads back whole. -/
theorem Memory.bytes_put (m : Memory) (a : Nat) (bs : List Byte) : Memory.bytes (Memory.put m a bs) a bs.length = bs := by
  apply List.ext_getElem
  · simp
  · intro i h1 h2
    have h := Memory.bytes_getD (Memory.put m a bs) a bs.length i h2
    rw [Memory.byte_put, if_pos (by omega)] at h
    simpa [List.getD_eq_getElem?_getD, h1, h2] using h

/-! ### The canonical form -/

theorem Memory.wf_put (m : Memory) (a : Nat) (bs : List Byte) (h : Memory.wf m = true) : Memory.wf (Memory.put m a bs) = true :=
  SMap.wf_splice (fun _ => 0) m _ a (a + bs.length) h (SMap.wfFrom_ofList 0 a bs) (fun p hp => (SMap.ofList_bound 0 a bs p hp).2) (by omega)

theorem Memory.wf_clear (m : Memory) (lo hi : Nat) (h : Memory.wf m = true) (hl : lo ≤ hi) : Memory.wf (SMap.clear m lo hi) = true :=
  SMap.wf_clear _ m lo hi h hl

theorem Memory.wf_putPart (m : Memory) (a : Nat) (bs : List Byte) (h : Memory.wf m = true) : Memory.wf (Memory.putPart m a bs) = true := by
  unfold Memory.putPart
  split
  · exact Memory.wf_put m a bs h
  · dsimp only
    split
    · exact Memory.wf_put m a bs h
    · exact Memory.wf_put _ _ _ (Memory.wf_put m a bs h)

theorem Memory.wf_putTile (m : Memory) (a : Nat) (bs : List Byte) (scr : Nat) (h : Memory.wf m = true) :
    Memory.wf (Memory.putTile m a bs scr) = true := by
  unfold Memory.putTile
  split
  · exact Memory.wf_put m a bs h
  · exact Memory.wf_put _ _ _ (Memory.wf_put m a bs h)

theorem Memory.wf_store (m : Memory) (a : Nat) (bs : List Byte) (h : Memory.wf m = true) : Memory.wf (Memory.store m a bs) = true := by
  unfold Memory.store
  split
  · exact Memory.wf_putTile m a bs _ h
  · exact Memory.wf_putPart m a bs h

theorem Memory.wf_storeAll (fuel : Nat) (m : Memory) (a : Nat) (bs : List Byte) (h : Memory.wf m = true) :
    Memory.wf (Memory.storeAll fuel m a bs) = true := by
  induction fuel generalizing m a bs with
  | zero => simpa [Memory.storeAll] using h
  | succ fuel ih =>
    cases bs with
    | nil => simpa [Memory.storeAll] using h
    | cons b bs => simpa only [Memory.storeAll] using ih _ _ _ (Memory.wf_store m a _ h)

/-! ### Where a write inside one tile lands -/

/-- A write inside one payload tile changes its own bytes and the tile's scruple, and nothing else. -/
theorem Memory.byte_putPart (m : Memory) (a x : Nat) (bs : List Byte) (hx : x < a ∨ a + bs.length ≤ x)
    (hs : ∀ sa, scrupleAddr a = some sa → x < sa ∨ sa + 8 ≤ x) : Memory.byte (Memory.putPart m a bs) x = Memory.byte m x := by
  unfold Memory.putPart
  split
  · exact Memory.byte_put_out m a x bs hx
  · rename_i sa hsa
    have h := hs sa hsa
    dsimp only
    split
    · exact Memory.byte_put_out m a x bs hx
    · rw [Memory.byte_put_out _ _ _ _ (by rw [leBytes_length]; exact h), Memory.byte_put_out m a x bs hx]

theorem Memory.byte_putTile (m : Memory) (a x scr : Nat) (bs : List Byte) (hx : x < a ∨ a + bs.length ≤ x)
    (hs : ∀ sa, scrupleAddr a = some sa → x < sa ∨ sa + 8 ≤ x) : Memory.byte (Memory.putTile m a bs scr) x = Memory.byte m x := by
  unfold Memory.putTile
  split
  · exact Memory.byte_put_out m a x bs hx
  · rename_i sa hsa
    rw [Memory.byte_put_out _ _ _ _ (by rw [leBytes_length]; exact hs sa hsa), Memory.byte_put_out m a x bs hx]

theorem Memory.byte_store (m : Memory) (a x : Nat) (bs : List Byte) (hx : x < a ∨ a + bs.length ≤ x)
    (hs : ∀ sa, scrupleAddr a = some sa → x < sa ∨ sa + 8 ≤ x) : Memory.byte (Memory.store m a bs) x = Memory.byte m x := by
  unfold Memory.store
  split
  · exact Memory.byte_putTile m a x _ bs hx hs
  · exact Memory.byte_putPart m a x bs hx hs

end Sys2Proof.Machine
end

