-- ==== Sys2Proof/WellFormed.lean ====
section
/-!
DEFINITION. Which commands the outside can send: operands that name something the module has, and data of the length a packet gives it.
A command that is not well-formed still has a meaning (assumption 1): it names nothing, and changes nothing there.
-/
namespace Sys2Proof

/-- A logical core ID that the address map has room for (R12, R26). -/
def coreOk (core : CoreId) : Bool := decide (core.toNat / 8192 < 6) && decide (core.toNat % 8192 / 16 < 272)

/-- A cluster number (R11). -/
def clusterOk (cluster : BitVec 9) : Bool := decide (cluster.toNat < 272)

/-- A physical core ID (R13). -/
def slotOk (p : BitVec 17) : Bool :=
  decide (p.toNat / 16384 < 6) && decide (p.toNat % 16384 / 32 < 272) && decide (p.toNat % 32 < 17)

/-- Whether a command is well-formed. -/
def Instr.wf (i : Instr) : Bool :=
  match i with
  | .powerApplication _ _ => true
  | .resetN => true
  | .resetNRelease => true
  | .railsGood => true
  | .railsTimeout => true
  | .railsRetry => true
  | .romVerify _ _ => true
  | .romDeadline => true
  | .electionAnnounce _ _ => true
  | .electionWindowClose => true
  | .remapStageDone _ _ _ => true
  | .memoryStageDone _ _ => true
  | .coresStageDone _ fails => fails.all slotOk
  | .stageBoundExpiry _ => true
  | .smbCstatus _ _ => true
  | .smbHbage _ _ => true
  | .smbReset _ _ _ => true
  | .smbPwrcycle _ _ _ => true
  | .pwrCmdRun _ => true
  | .pwrCmdIdle _ => true
  | .pwrCmdSleep _ => true
  | .pwrCmdDeep _ => true
  | .pwrCmdOff _ => true
  | .powerEntryComplete => true
  | .wake => true
  | .sleepWakePllSwitch _ => true
  | .inputSample _ _ => true
  | .sagReset => true
  | .inputRestored => true
  | .standbyStop => true
  | .droopDetect _ cluster => clusterOk cluster
  | .stretchEnd _ cluster => clusterOk cluster
  | .brownout _ => true
  | .coolantSensorRead _ _ _ _ => true
  | .thermalTrip => true
  | .heartbeatSend => true
  | .heartbeatMiss _ => true
  | .controllerRejoinTimeout _ => true
  | .controllerRejoin _ => true
  | .dieHwFault _ => true
  | .journalMirrorAck _ _ => true
  | .journalAckTimeout => true
  | .retirement => true
  | .sprCmdRetire _ _ => true
  | .sprCmdApprove _ => true
  | .sprCmdDecline _ => true
  | .fillSelfTestDone _ cluster _ => clusterOk cluster
  | .fillBushelDone _ cluster _ => clusterOk cluster
  | .fillContentDone _ cluster _ => clusterOk cluster
  | .planLoad _ _ => true
  | .planLoadComplete _ _ => true
  | .planUnload _ => true
  | .planStop _ => true
  | .planRun _ _ => true
  | .chainSymbol _ _ => true
  | .chainConflict => true
  | .chainBeatApply => true
  | .localMasterBeat => true
  | .chainWindowMiss => true
  | .holdoverBeat => true
  | .chainLost => true
  | .stepStart _ => true
  | .scheduleBeat _ _ => true
  | .voteDeadline _ => true
  | .flipBeat _ => true
  | .holdRound _ => true
  | .drainComplete _ => true
  | .stepCtabWrite _ _ => true
  | .stepStreamWrite _ _ => true
  | .stepCtrWrite _ _ => true
  | .ctxSave _ _ => true
  | .ctxRestore _ _ => true
  | .ctxRestoreComplete _ => true
  | .fmtRevertWrite _ _ => true
  | .rngBackstepWrite _ core _ => coreOk core
  | .backstepComplete core => coreOk core
  | .gillResetWrite _ core => coreOk core
  | .gillResetApply core => coreOk core
  | .sop core _ => coreOk core
  | .sopi core _ => coreOk core
  | .slih core _ => coreOk core
  | .scmp core _ => coreOk core
  | .scsr core _ => coreOk core
  | .br core _ => coreOk core
  | .brr core _ => coreOk core
  | .wbeat core _ => coreOk core
  | .bar core _ => coreOk core
  | .fence core _ => coreOk core
  | .lfmt core _ => coreOk core
  | .loss core _ => coreOk core
  | .stepend core _ => coreOk core
  | .nop core _ => coreOk core
  | .illegalInstruction core _ => coreOk core
  | .lds core _ => coreOk core
  | .sts core _ => coreOk core
  | .vld core _ => coreOk core
  | .vst core _ => coreOk core
  | .dma core _ => coreOk core
  | .dmaDescriptorComplete core _ _ => coreOk core
  | .dmaw core _ => coreOk core
  | .wload core _ => coreOk core
  | .amul core _ => coreOk core
  | .arrayQueueDispatch core => coreOk core
  | .bankLoadComplete core _ _ => coreOk core
  | .accumulatorRowWriteback core _ => coreOk core
  | .pspill core _ => coreOk core
  | .presume core _ => coreOk core
  | .pout core _ => coreOk core
  | .edgeQueueDispatch core _ => coreOk core
  | .narrow core _ => coreOk core
  | .widen core _ => coreOk core
  | .vf core _ => coreOk core
  | .vcmp core _ => coreOk core
  | .vcvt core _ => coreOk core
  | .vred core _ => coreOk core
  | .vprd core _ => coreOk core
  | .vssq core _ => coreOk core
  | .nrd core _ => coreOk core
  | .vopt core _ => coreOk core
  | .vi core _ => coreOk core
  | .vsel core _ => coreOk core
  | .vbcast core _ => coreOk core
  | .vidx core _ => coreOk core
  | .vmovs core _ => coreOk core
  | .plog core _ => coreOk core
  | .vrand core _ => coreOk core
  | .vgumbel core _ => coreOk core
  | .fabLinkFlit _ _ => true
  | .fabHeadFlit _ _ => true
  | .fabDataFlit _ _ => true
  | .packetSend _ => true
  | .fabStallDrop _ _ => true
  | .fabReplayTimeout _ => true
  | .fabNakHoldoffExpiry _ => true
  | .fabLaneSignalLoss _ => true
  | .fabSignalAppear _ => true
  | .fabTrainingRetry _ => true
  | .fabLaneLockDone _ => true
  | .fabTrainingTimeout _ => true
  | .fabDiscFlit _ _ => true
  | .fabProbeFlit _ _ => true
  | .fabEchoFlit _ _ => true
  | .fabCompare _ => true
  | .fabRetrain _ => true
  | .fabPlanAck _ _ _ => true
  | .fabPortEnable _ _ => true
  | .fabPortDisable _ _ => true
  | .fabPartsliceWrite _ _ _ => true
  | .retractMessage _ _ _ => true
  | .degradeMessage _ _ _ => true
  | .scopeVote _ _ _ _ tile => decide (tile.length = 4096)
  | .updeadlineExpiry _ => true
  | .scopeDecision _ _ _ _ tile => decide (tile.length = 4096)
  | .scopeDone _ _ _ _ tile => decide (tile.length = 4096)
  | .scopeAlldone _ _ _ _ tile => decide (tile.length = 4096)
  | .hlkLinkFlit _ _ => true
  | .hlkIdentFlit _ _ _ => true
  | .hlkIdentTimer _ => true
  | .hlkMrd _ _ _ _ _ => true
  | .hlkMwr _ _ len _ _ data => decide (data.length = len.toNat)
  | .hlkCpl _ _ _ _ _ data => decide (data.length ≤ 4096)
  | .hlkReadTimeout _ _ => true
  | .hlkLaneSignalLoss _ => true
  | .hlkRetrainTimer _ => true
  | .hlkDoorbell _ _ _ => true
  | .queueEnable _ _ _ => true
  | .queueDisable _ _ _ => true
  | .queueEntryStart _ _ => true
  | .queueEntryComplete _ _ _ => true
  | .ownerClaim _ => true
  | .ownerClaimDecide => true
  | .ownerRelease _ => true
  | .partitionLayoutChange _ _ => true
  | .partitionRoleChange _ _ => true
  | .partitionCommandComplete => true
  | .diagnosis _ _ _ _ => true
  | .chkLogack _ _ _ => true
  | .testBinst _ _ _ => true
  | .flashWriteComplete => true
  | .rollingCopyComplete _ cluster => clusterOk cluster
  | .rollingTestComplete _ cluster _ => clusterOk cluster
  | .swapBackCopyComplete _ cluster => clusterOk cluster
  | .testCmd _ _ => true
  | .deviceTestStart => true
  | .deviceTestComplete defects _ => defects.all (fun x => slotOk x.1)
  | .fwUpdate _ _ _ => true
  | .keyAddOwner _ => true
  | .keyAddOperator _ => true
  | .keyRemove _ => true
  | .deprovision _ => true
  | .getVersion _ => true
  | .getCapabilities _ => true
  | .negotiateAlgorithms _ => true
  | .getDigests _ => true
  | .getCertificate _ => true
  | .challenge _ => true
  | .getMeasurements _ => true
  | .spdmUnsupportedRequest _ => true
  | .dbgSetD1 _ => true
  | .dbgSetD0 _ => true
  | .dbgAllowd2Clear _ => true
  | .dbgTokenSubmit _ => true
  | .dbgTokenDecide => true
  | .d2ZeroingComplete => true
  | .tapBypass => true
  | .tapSamplePreload => true
  | .tapExtest => true
  | .dbgstat => true
  | .dbgnonce => true
  | .dbgctr _ => true
  | .dbgmemRead _ => true
  | .dbgmemWrite _ _ => true
  | .dbgcoreHalt core => coreOk core
  | .dbgcoreStep core => coreOk core
  | .dbgcoreResume core => coreOk core
  | .dbgcoreRegRead core _ => coreOk core
  | .dbgcoreRegWrite core _ _ => coreOk core
  | .bridgeControlFlit bridge _ => decide (bridge.toNat < 7)
  | .eventCounterClear _ _ => true
  | .perfCounterClear _ _ => true
  | .linkErrorCounterClear _ _ => true
  | .registerWrite _ _ _ => true
  | .hlkLinkUp _ => true
  | .hlkReplayTimeout _ => true
  | .hlkNakHoldoffExpiry _ => true
  | .edgeOperationComplete core => coreOk core

end Sys2Proof
end

