-- ==== Sys2Proof/Tests/Slice0.lean ====
section
/-!
SUPPORT. Tests: the ill-formed commands that the checks refuse, results worked out by hand from the spec, and for each statement
states and operands that meet its hypotheses, clause by clause.
-/
namespace Sys2Proof.Tests
set_option Elab.async false

open Sys2Proof Sys2Proof.Machine

/-! ### The checks of well-formed commands -/

theorem test_wf_core : (Instr.nop 0xC000 0).wf = false ∧ (Instr.nop 0x1100 0).wf = false ∧ (Instr.nop 0xB0FF 0).wf = true := by decide

theorem test_wf_cluster : (Instr.stretchEnd 0 272).wf = false ∧ (Instr.stretchEnd 0 271).wf = true := by decide

theorem test_wf_slot : (Instr.coresStageDone 0 [17]).wf = false ∧ (Instr.deviceTestComplete [(0x18000, 0)] []).wf = false ∧
    (Instr.coresStageDone 0 [0x2200]).wf = false ∧ (Instr.coresStageDone 5 [0x161F0]).wf = true := by decide

theorem test_wf_bridge : (Instr.bridgeControlFlit 7 true).wf = false ∧ (Instr.bridgeControlFlit 6 true).wf = true := by decide

theorem test_wf_data : (Instr.hlkMwr 0 0 8 false 0 [1]).wf = false ∧ (Instr.scopeVote 0 0 0 0 []).wf = false ∧
    (Instr.hlkCpl 0 0 0 false 0 (List.replicate 4097 0)).wf = false ∧ (Instr.hlkMwr 0 0 1 false 0 [1]).wf = true := by decide +kernel

theorem test_no_row_has_bits (n w : Nat) : decodeTableWord n w = none := rfl

/-! ### States -/

/-- The state after reset with its volatile part changed. -/
def withDev (f : Dev → Dev) : State := { State.reset with dev := f Dev.reset }

/-- Core 0 runs in a step of partition 0, at offset 0, with what `x` gives it. -/
def runs (x : Core) : Dev := ((Dev.reset.setFld Fld.CORE_STAT_STATE 0 coreRun).setCore 0 x).setPart 0 { issuing := true, stepping := true }

/-- Low bits of a standard word and of a long word, by their fields. -/
def std (d a b c x f imm : Nat) : BitVec 56 := BitVec.ofNat 56 (d * 2 ^ 46 + a * 2 ^ 40 + b * 2 ^ 34 + c * 2 ^ 28 + x * 2 ^ 22 + f * 2 ^ 16 + imm)
def long (d a f8 imm : Nat) : BitVec 56 := BitVec.ofNat 56 (d * 2 ^ 46 + a * 2 ^ 40 + f8 * 2 ^ 32 + imm)

/-- Whether an instruction is carried out, to be evaluated. -/
def issuesB (s : Dev) (c i : Nat) (legal : Bool) (uses : List Nat) : Bool :=
  s.mayIssue c && decide ((s.core c).pc.toNat < payloadEnd) && (decide (0xA0 ≤ opOf i) || ((s.core c).guard i).testBit 0) && legal &&
    !uses.any (s.core c).pend.contains

theorem issues_of {s : Dev} {c i : Nat} {legal : Bool} {uses : List Nat} (h : issuesB s c i legal uses = true) : Issues s c i legal uses := by
  simp only [issuesB, Bool.and_eq_true, decide_eq_true_eq, Bool.or_eq_true, Bool.not_eq_true'] at h
  obtain ⟨⟨⟨⟨hm, hp⟩, hg⟩, hl⟩, hf⟩ := h
  exact ⟨hm, hp, fun h => hg.resolve_left (Nat.not_le.mpr h), hl, hf⟩

/-- The module past T0 with its lead on die 0, NEXT on die 1, and every die in READY. -/
def led : Dev :=
  let d : Dev := { Dev.reset with sby := { pwrGood := true }, ctl := { elected := true } }
  let d := ((d.setFld Fld.CTL_ELECT_NONE 0 0).setFld Fld.CTL_ELECT_LEAD 0 0).setFld Fld.CTL_CSTAT_ROLE 0 1
  let d := ((d.setFld Fld.CTL_ELECT_NEXTV 0 1).setFld Fld.CTL_ELECT_NEXT 0 1).setFld Fld.CTL_CSTAT_ROLE 1 2
  let d := (d.setFld Fld.CTL_BOOT_STAGE 0 6).setFld Fld.CTL_ELECT_TERM 0 1
  d.each (List.range 6) (fun e d => d.setFld Fld.CTL_DBOOT_STAGE e 6)

/-- The same with host port 0 UP and holding the owner credential. -/
def ready : Dev := (led.setFld Fld.HLK_PSTAT_LINK 0 2).setFld Fld.HLK_OWNSTAT_HOLD 0 1

theorem serves_ready : ready.serves 0 ∧ ready.isOwner 0 = true := by unfold Dev.serves; decide

/-- The module in bring-up: device and die `die` in a stage. -/
def boots (die st : Nat) : Dev := (led.setFld Fld.CTL_BOOT_STAGE 0 st).setFld Fld.CTL_DBOOT_STAGE die st

/-- Whether a lead carries out what waits for one, to be evaluated. -/
def leadsB (s : Dev) (fences due : List Nat) (swaps : List SwapTest) (rs : List JRec) : Bool :=
  s.hasLead && decide (s.ctl.fences = fences) && decide (s.spr.due = due) && decide (s.spr.swaps = swaps) && decide (s.spr.policies = []) &&
    s.ctl.journal.all (fun r => !r.isOpen || r.type == 2 || rs.contains r) &&
    s.parts.all (fun p => match p.2.loading with
      | some pl => pl.bound
      | none => true) &&
    (List.range 6).all (fun d => !s.booting || s.dieStage d != stCores || !s.ctl.tested.contains d || s.fenced d || s.ctl.rejoin.contains d)

/-- What a map reads is one of its entries or the default. -/
theorem read_entry {β : Type} (d : β) (m : SMap β) (k : Nat) : SMap.read d m k = d ∨ ∃ p ∈ m, p.2 = SMap.read d m k := by
  induction m with
  | nil => exact .inl rfl
  | cons p m ih =>
    rw [SMap.read_cons]
    split
    · exact .inr ⟨p, List.mem_cons_self .., rfl⟩
    · rcases ih with h | ⟨q, hq, e⟩
      · exact .inl h
      · exact .inr ⟨q, List.mem_cons_of_mem _ hq, e⟩

theorem leads_of {s : Dev} {fences due : List Nat} {swaps : List SwapTest} {rs : List JRec} (h : leadsB s fences due swaps rs = true) :
    Leads s fences due swaps rs := by
  simp only [leadsB, Bool.and_eq_true, decide_eq_true_eq, List.all_eq_true, List.mem_range] at h
  obtain ⟨⟨⟨⟨⟨⟨⟨h1, h2⟩, h3⟩, h4⟩, h5⟩, h6⟩, h7⟩, h8⟩ := h
  refine ⟨h1, h2, h3, h4, h5, ?_, ?_, fun d hd => if_neg fun hc => ?_⟩
  · intro r hr ho
    have := h6 r hr
    simp only [ho, Bool.not_true, Bool.false_or, Bool.or_eq_true, beq_iff_eq, List.contains_eq_mem, decide_eq_true_eq] at this
    exact this
  · intro p pl hl
    rcases read_entry ({} : Part) s.parts p with e | ⟨q, hq, e⟩
    · rw [Dev.part, e] at hl
      cases hl
    · have := h7 q hq
      rw [e] at this
      rw [Dev.part] at hl
      rw [hl] at this
      exact this
  · have := h8 d hd
    obtain ⟨c1, c2, c3, c4, c5, -⟩ := hc
    simp_all

/-- A range that no entry of memory lies in reads zero. -/
theorem bytes_clear (m : Memory) (n : Nat) : ∀ a, (∀ e ∈ m, e.1 < a ∨ a + n ≤ e.1) → Memory.bytes m a n = List.replicate n 0 := by
  induction n with
  | zero => intros; rfl
  | succ n ih =>
    intro a h
    have hb : Memory.byte m a = 0 := SMap.read_absent 0 m a (fun e he => by rcases h e he with h1 | h1 <;> omega)
    have h' := ih (a + 1) (fun e he => by rcases h e he with h1 | h1 <;> omega)
    rw [Memory.bytes_eq] at h' ⊢
    rw [Memory.bytesFrom, List.replicate_succ, hb, h']

/-! ### Functions whose results other texts record -/

/-- RFC 8032, section 7.4, vector "Blank": an empty message, an empty context. -/
theorem test_ed448_blank : Ed448.verify
    93311180880998663061588898581357940613434376382822916347599311465164550738419377722548070897195110608138391268334742042988470188407838559 "" []
    (leBytes 114 20283999727766538279688364048565245510460283748727924996813868970473205829086019969274334192543377714527342010495271181290697555060149437679301278077530812097415362908582268172067934512576370180907057682387111983925184443279795971750901425706120054622120636842801490246227) =
      true := by decide +kernel

/-- FIPS 202: the first eight bytes of SHA3-512 of nothing (a69f73cc…), and of SHAKE256 of 200 zero bytes over two blocks. -/
theorem test_sha3 : leNat ((sha3 []).take 8) = 14238757642774486950 ∧ leNat ((shake256 (zeros 200)).take 8) = 8229890752024327413 := by decide +kernel

/-- R212, R214, the formulas worked out apart in decimal arithmetic: the codes within 2 ulp of the exact variates. -/
theorem test_variates : nearCodes (exactGumbel 0x1234 0x5678) = [0xbf78dc11, 0xbf78dc12, 0xbf78dc13, 0xbf78dc14] ∧
    nearCodes (exactNormBm 0x1234 0x5678 0x9ABC) = [0xbfe930d7, 0xbfe930d8, 0xbfe930d9, 0xbfe930da] := by decide +kernel

/-! ### Scalar and control instructions -/

/-- Core 0 with some registers, at an offset that is not 0. -/
def core0 : Core := (((({ pc := 0x100 } : Core).setS 2 5).setS 3 0xFFFFFFFFFFFFFFFF).setS 4 0x20)

theorem test_issues_scalar :
    IssuesS (runs core0) 0 (insn 0x01 (std 1 2 3 0 0 0xC 0)) formSop true ∧ IssuesS (runs core0) 0 (insn 0x01 (std 1 2 3 0 0 0xD 0)) formSop true ∧
    IssuesL (runs core0) 0 (insn 0x02 (long 1 2 0xC 0xFFFFFFFF)) .s .s true true ∧ IssuesL (runs core0) 0 (insn 0x02 (long 1 2 0xD 0)) .s .s true true ∧
    IssuesS (runs core0) 0 (insn 0x04 (std 1 2 3 0 0 5 0)) { d := .p, a := .s, b := .s, f := 0x3F } true ∧
    IssuesS (runs core0) 0 (insn 0x04 (std 1 2 3 0 0 6 0)) { d := .p, a := .s, b := .s, f := 0x3F } true ∧
    IssuesL (runs core0) 0 (insn 0x03 (long 1 2 0 0xFFFFFFFF)) .s .s false true ∧
    IssuesS (runs core0) 0 (insn 0x25 (std 1 0 0 0 0 0 1023)) { d := .s, imm := 0x3FF } true ∧
    IssuesL (runs core0) 0 (insn 0x20 (long 0 0 0 0xFFFFFFFF)) .s .unused false true ∧
    IssuesS (runs core0) 0 (insn 0x21 (std 1 4 0 0 0 0 0)) { d := .s, a := .s } true ∧
    IssuesS (runs core0) 0 (insn 0x05 (std 1 2 0 0 0 3 8)) (formScsr (insn 0x05 (std 1 2 0 0 0 3 8))) true ∧
    IssuesS (runs core0) 0 (insn 0x05 (std 1 0 0 0 0 1 8)) (formScsr (insn 0x05 (std 1 0 0 0 0 1 8))) true ∧
    IssuesS (runs core0) 0 (insn 0x05 (std 0 2 0 0 0 2 8)) (formScsr (insn 0x05 (std 0 2 0 0 0 2 8))) true := by
  refine ⟨?_, ?_, ?_, ?_, ?_, ?_, ?_, ?_, ?_, ?_, ?_, ?_, ?_⟩ <;> exact issues_of (by decide)

/-- A plan over cores 0 and 1 of die 0, with one barrier between them. -/
def twoCores : Plan := { cores := [⟨0, 0, 0, 0, 0⟩, ⟨1, 1, 0, 0, 0⟩], barriers := [[0, 1]] }

/-- Core 1 waits at barrier 0 of that plan. -/
def atBarrier : Dev := ((runs core0).setPart 0 { plan := some twoCores, issuing := true, stepping := true }).setCore 1 { barrier := some 0 }

theorem test_issues_waits :
    IssuesS (runs core0) 0 (insn 0x2F 0) {} true ∧ IssuesS (runs core0) 0 (insn 0x24 (std 0 0 0 0 0 0 0x1F)) { imm := 0x1F } true ∧
    IssuesS (runs core0) 0 (insn 0x45 (std 0 0 0 0 0 0 0xFFFF)) { imm := 0xFFFF } true ∧
    IssuesL (runs core0) 0 (insn 0x22 (long 0 0 0 0)) .unused .unused false true ∧
    IssuesS (runs core0) 0 (insn 0x27 0) {} true ∧ IssuesS atBarrier 0 (insn 0x23 0) { imm := 0x3F } true ∧
    IssuesS (runs core0) 0 (insn 0x26 (std 0 5 0 0 0 0 31)) { a := .v, imm := 0x1F } true := by
  refine ⟨?_, ?_, ?_, ?_, ?_, ?_, ?_⟩ <;> exact issues_of (by decide)

/-- Both answers of each wait, at the end of its range: units busy or done, a tag outstanding or not, a beat reached or not, a loss finite or
not; and a barrier whose other member waits. -/
theorem test_waits_answers :
    core0.unitsDone 0x1F = true ∧ ({ core0 with dmas := [⟨15, 0, 0, 1, 0, 0, 0, 0, false, 0, 0, false⟩] } : Core).unitsDone 0x1F = false ∧
    (∀ d ∈ core0.dmas, (0xFFFF : Nat).testBit d.tag = false) ∧ ((0 : Nat) : Int) ≤ (Dev.reset.setPart 0 { reach := 2 ^ 32 }).reached 0 ∧
    ¬ ((0 : Nat) : Int) ≤ (Dev.reset.setPart 0 { reach := -1 }).reached 0 ∧
    0 ∈ atBarrier.barrierMembers 0 0 ∧ (∀ m ∈ atBarrier.barrierMembers 0 0, m ≠ 0 → (atBarrier.core m).barrier = some 0) ∧
    isFin32 0x7F7FFFFF = true ∧ isFin32 0x7F800000 = false := by decide

theorem test_branch_register_answers : core0.s 4 % 8 = 0 ∧ core0.s 2 % 8 ≠ 0 := by decide

/-- A word whose guard bit 0 is 0, a core that does not run, and one that waits at a barrier of another number. -/
theorem test_guarded_and_barred :
    (runs core0).mayIssue 0 = true ∧ (runs core0).pcOf 0 < payloadEnd ∧ commandWord (.sop 0 (std 1 2 3 0 0 0 0 + 0x80000000000000)) ≠ none ∧
    ((runs core0).core 0).guard (insn 0x01 (std 1 2 3 0 0 0 0 + 0x80000000000000)) = 0 ∧ Dev.reset.mayIssue 0 = false ∧
    atBarrier.mayIssue 1 = false ∧ (atBarrier.core 1).barrier ≠ some (imm16 (insn 0x23 1) % 64) ∧ opOf (0x1200000000000000#64).toNat = 0x12 := by decide

/-- A member of a barrier that is not its last, one that waits at it, and a core that is no member. -/
def firstThere : Dev := ((runs core0).setPart 0 { plan := some twoCores, issuing := true, stepping := true }).setCore 1 {}

theorem test_barrier_answers : IssuesS firstThere 0 (insn 0x23 0) { imm := 0x3F } true ∧ 0 ∈ firstThere.barrierMembers 0 0 ∧
    (∃ m ∈ firstThere.barrierMembers 0 0, m ≠ 0 ∧ (firstThere.core m).barrier ≠ some 0) ∧
    (firstThere.setCore 0 { core0 with barrier := some 0 }).sequencing 0 = true ∧ 0 ∉ firstThere.barrierMembers 0 1 ∧
    IssuesS firstThere 0 (insn 0x23 1) { imm := 0x3F } true :=
  ⟨issues_of (by decide), by decide, by decide, by decide, by decide, issues_of (by decide)⟩

/-- Words that stop a core: an opcode not in the table, a predicate register above p15, a bit of a field that NOP does not use, an FP64 register of
odd number; and one that does not. -/
theorem test_illegal_words : wordFits 0x1200000000000000 = false ∧ wordFits (insn 0x04 (std 16 2 3 0 0 5 0)) = false ∧ wordFits (insn 0x2F 1) = false ∧
    wordFits (insn 0xA0 (std 63 0 2 4 0 3 8)) = false ∧ wordFits (insn 0xA0 (std 62 0 2 4 0 3 8)) = true := by decide

/-! ### Memory and vector instructions -/

/-- A descriptor of one tile from tile 2 of core 0's payload to tile 3. -/
def oneTile : DmaDesc := ⟨0, strideAddr 0 0x2000, strideAddr 0 0x3000, 1, 0, 0, 0, 0, false, 0, 0, false⟩

/-- Offsets for loads and stores: 8-byte and 128-byte places in the payload, the last bytes of staging and of the gill regions, and one that
is not aligned. -/
def core1 : Core := (((({ pc := 0xFEFF8 } : Core).setS 2 0xFEF80).setS 3 0x119F80).setS 4 0x11FF80).setS 5 0x200

theorem test_issues_memory :
    IssuesL (runs core1) 0 (insn 0x40 (long 1 2 0 0x78)) .s .s false true ∧ IssuesL (runs core1) 0 (insn 0x42 (long 63 2 0 0)) .v .s false true ∧
    IssuesL (runs core1) 0 (insn 0x41 (long 1 4 0 0x78)) .s .s false true ∧ IssuesL (runs core1) 0 (insn 0x43 (long 63 3 0 0)) .v .s false true ∧
    IssuesL (runs core1) 0 (insn 0x41 (long 1 2 0 0x79)) .s .s false true ∧
    IssuesS (runs core1) 0 (insn 0x44 (std 0 5 0 0 0 0 15)) { a := .s, imm := 0xF } true := by
  refine ⟨?_, ?_, ?_, ?_, ?_, ?_⟩ <;> exact issues_of (by decide)

/-- The answers for those offsets: the last 8 bytes of the payload, the last 128 of staging, the last 8 of the gill regions, and a fault. -/
theorem test_memory_answers :
    core1.ea (insn 0x40 (long 1 2 0 0x78)) + 8 = 0xFEFF8 + 8 ∧ core1.ea (insn 0x40 (long 1 2 0 0x78)) % 8 = 0 ∧
    core1.ea (insn 0x43 (long 63 3 0 0)) + 128 = 0x11A000 ∧ core1.ea (insn 0x43 (long 63 3 0 0)) % 128 = 0 ∧
    core1.ea (insn 0x41 (long 1 4 0 0x78)) + 8 = 0x120000 ∧ core1.ea (insn 0x41 (long 1 2 0 0x79)) % 8 ≠ 0 := by decide

theorem test_dma_answers :
    (runs core1).dmaCheck 0 oneTile = none ∧ (runs core1).dmaCheck 0 { oneTile with count := 0 } = some (Ev.CORE_ILLEGAL, 0) ∧
    (runs core1).dmaCheck 0 { oneTile with src := strideAddr 0 0x2008 } = some (Ev.CORE_ADDR, strideAddr 0 0x2008) ∧ core1.s 5 % 32 = 0 ∧
    (runs core1).evenOf 0 = none ∧ scrupleAddr oneTile.src = some (strideAddr 0 0xFF010) ∧ scrupleAddr oneTile.dst = some (strideAddr 0 0xFF018) ∧
    ((runs core1).part ((runs core1).corePart 0)).nanStop = false ∧ 16 ≤ (List.replicate 16 oneTile).length ∧ (runs core1).ctl.bridgesDown = [] ∧
    [{ oneTile with moved := true }, oneTile][1]? = some oneTile ∧
    (∀ e ∈ [{ oneTile with moved := true }, oneTile].take 1, e.moved = true) ∧ oneTile.moved = false := by decide

/-- Descriptors that come to completion: two tiles from tiles 2 and 4 to tiles 6 and 7; one into the staging area, from a tile whose scruple does not
hold; a send on route 0, in group 5 or in none; and one at fault. -/
def twoTiles : DmaDesc := { oneTile with dst := strideAddr 0 0x6000, count := 2, sstride := 2, dstride := 1 }
def intoStaging : DmaDesc := { oneTile with dst := strideAddr 0 0x100000 }
def sends (tag : Nat) : DmaDesc := { oneTile with kind := 1, coreTag := tag }

/-- Core 0 with a descriptor in flight, its partition's plan with one group, and one byte of tile 2 that its scruple does not cover. -/
def flyingDma (d : DmaDesc) : Dev :=
  { (runs { core1 with dmas := [d] }) with mem := SMap.ofList 0 (strideAddr 0 0x2000) [1] }.setPart 0
    { issuing := true, stepping := true, plan := some { cores := [⟨0, 0, 0, 0, 0⟩], groups := { groups := [⟨5, 0, 2, 0, 7, 0, [(0, 0, 0, 0), (0, 3, 0, 0)], [0], []⟩] } } }

theorem test_dma_completes :
    ((flyingDma twoTiles).dmaCheck 0 twoTiles = none ∧ (twoTiles.count = 2 ∧ twoTiles.kind = 0 ∧ twoTiles.moved = false) ∧
      (∀ k, k < 2 → (scrupleAddr (tileAt twoTiles.src twoTiles.sstride k).toNat).isSome = true ∧ (scrupleAddr (tileAt twoTiles.dst twoTiles.dstride k).toNat).isSome = true) ∧
      (∀ k, k < 2 → ∀ j, j < k → (tileAt twoTiles.dst twoTiles.dstride j).toNat ≠ (tileAt twoTiles.dst twoTiles.dstride k).toNat ∧
        (tileAt twoTiles.dst twoTiles.dstride j).toNat ≠ (tileAt twoTiles.src twoTiles.sstride k).toNat)) ∧
    ((flyingDma intoStaging).dmaCheck 0 intoStaging = none ∧ memPlace (tileAt intoStaging.dst intoStaging.dstride 0).toNat = .staging 0 ∧
      ((flyingDma intoStaging).part 0).recs = []) ∧
    ((flyingDma (sends 5)).dmaCheck 0 (sends 5) = none ∧ (sends 5).kind = 1 ∧ ((flyingDma (sends 5)).routeReg (coreDie 0) 0).testBit 1 = false ∧
      (flyingDma (sends 5)).degraded 0 5 = false ∧ ((flyingDma (sends 5)).groups 0).find 5 = some (0, ⟨5, 0, 2, 0, 7, 0, [(0, 0, 0, 0), (0, 3, 0, 0)], [0], []⟩)) ∧
    ((flyingDma (sends 0xFFFE)).dmaCheck 0 (sends 0xFFFE) = none ∧ ((flyingDma (sends 0xFFFE)).groups 0).find 0xFFFE = none) ∧
    ((flyingDma { oneTile with count := 0 }).dmaCheck 0 { oneTile with count := 0 } = some (Ev.CORE_ILLEGAL, 0) ∧
      (flyingDma oneTile).fld Fld.CORE_STAT_STATE 0 = coreRun ∧ (flyingDma oneTile).evenOf 0 = none ∧ (flyingDma oneTile).ctl.bridgesDown = [] ∧
      ((flyingDma oneTile).part 0).nanStop = false ∧ ((flyingDma oneTile).core 0).dmas[0]? = some oneTile) := by decide +kernel

/-- The tile with the stray byte fails its check. -/
theorem test_dma_bad_tile : (flyingDma intoStaging).tileFault (strideAddr 0 0x2000) = some Ev.TILE_CHECK := by decide +kernel

theorem test_issues_vector :
    IssuesS (runs core1) 0 (insn 0xC0 (std 63 1 2 0 0 0xC 0)) { d := .v, a := .v, b := .v, f := 0xF } (decide (fF (insn 0xC0 (std 63 1 2 0 0 0xC 0)) ≤ 0xC)) ∧
    IssuesS (runs core1) 0 (insn 0xC1 (std 63 1 2 7 0 0 0)) { d := .v, a := .v, b := .v, c := .p } true ∧
    IssuesS (runs core1) 0 (insn 0xC2 (std 63 2 0 0 0 0 0)) { d := .v, a := .s } true ∧
    IssuesS (runs core1) 0 (insn 0xC3 (std 63 2 0 0 0 0 0)) { d := .v, a := .s } true ∧
    IssuesS (runs core1) 0 (insn 0xC4 (std 31 2 0 0 0 0 31)) { d := .s, a := .v, imm := 0x1F } true ∧
    IssuesS (runs core1) 0 (insn 0xC5 (std 1 31 0 0 0 5 0)) (formPlog (insn 0xC5 (std 1 31 0 0 0 5 0))) true ∧
    IssuesS (runs core1) 0 (insn 0xC5 (std 31 1 0 0 0 6 0)) (formPlog (insn 0xC5 (std 31 1 0 0 0 6 0))) true ∧
    IssuesS (runs core1) 0 (insn 0xC5 (std 1 1 2 0 0 3 0)) (formPlog (insn 0xC5 (std 1 1 2 0 0 3 0))) true ∧
    0xC < fF (insn 0xC0 (std 0 0 0 0 0 0xD 0)) ∧ 6 < fF (insn 0xC5 (std 0 0 0 0 0 7 0)) := by
  refine ⟨?_, ?_, ?_, ?_, ?_, ?_, ?_, ?_, by decide, by decide⟩ <;> exact issues_of (by decide)

theorem test_issues_float :
    IssuesS (runs core1) 0 (insn 0xA0 (std 62 0 2 4 0 3 8)) (formVf (insn 0xA0 (std 62 0 2 4 0 3 8))) true ∧
    IssuesS (runs core1) 0 (insn 0xA1 (std 7 1 2 0 0 0xD 0)) { d := .p, a := .v, b := .v, f := 0xF, imm := 8 } true ∧
    IssuesS (runs core1) 0 (insn 0xA3 (std 63 1 0 0 0 0 5)) { d := .v, a := .v, f := 7, imm := 7 } true ∧
    IssuesS (runs core1) 0 (insn 0xA5 (std 0 1 0 0 0 3 0)) { a := .v, f := 3 } true ∧
    IssuesS (runs core1) 0 (insn 0xA6 (std 31 0 0 0 0 7 0)) { d := .s, f := 7 } true ∧
    IssuesS (runs core1) 0 (insn 0xA4 (std 63 0 0 0 0 0x1C 0xFF)) { d := .v, f := 0x1C, imm := 0xFF } true ∧
    IssuesS (runs core1) 0 (insn 0xA3 (std 63 1 0 0 0 3 0)) { d := .v, a := .v, f := 7 } (decide (fF (insn 0xA3 (std 63 1 0 0 0 3 0)) ≤ 4)) ∧
    IssuesS (runs core1) 0 (insn 0xA3 (std 63 1 0 0 0 2 0)) { d := .v, a := .v, f := 7 } (decide (fF (insn 0xA3 (std 63 1 0 0 0 2 0)) ≤ 4)) ∧
    IssuesS (runs core1) 0 (insn 0xA3 (std 63 1 2 3 0 4 0)) { d := .v, a := .v, b := .v, c := .v, f := 7 } (decide (fF (insn 0xA3 (std 63 1 2 3 0 4 0)) ≤ 4)) ∧
    IssuesS (runs core1) 0 (insn 0xA3 (std 63 1 2 3 0 4 0)) { d := .v, a := .v, b := .v, c := .v, f := 7 }
      (decide (fF (insn 0xA3 (std 63 1 2 3 0 4 0)) ≤ 4) && (decide (Slot.v = .v) == decide (fF (insn 0xA3 (std 63 1 2 3 0 4 0)) = 4))) ∧
    IssuesS (runs core1) 0 (insn 0xA3 (std 63 1 0 0 0 3 0)) { d := .v, a := .v, f := 7, imm := 0 }
      (decide (fF (insn 0xA3 (std 63 1 0 0 0 3 0)) ≤ 4) && (decide (Slot.unused = .v) == decide (fF (insn 0xA3 (std 63 1 0 0 0 3 0)) = 4))) ∧
    active (({ core1 with pregs := (core1.setP 1 0xFFFFFFFF 0).pregs } : Core).guard (insn 0xA3 (std 63 1 0 0 0 3 0 + 2 ^ 52))) = [] ∧
    (runs core1).rmOf 0 5 = some .rna ∧ (runs core1).rmOf 0 0 = some .rne ∧ active (core1.guard 0) ≠ [] ∧ core1.panelBusy 7 core1.order = false := by
  refine ⟨?_, ?_, ?_, ?_, ?_, ?_, ?_, ?_, ?_, ?_, ?_, by decide, by decide, by decide, by decide, by decide⟩ <;> exact issues_of (by decide)

theorem test_issues_conversions_and_draws :
    IssuesS (runs core1) 0 (insn 0xA2 (std 62 1 0 0 0 8 0x7001)) (formVcvt (insn 0xA2 (std 62 1 0 0 0 8 0x7001))) true ∧
    IssuesS (runs core1) 0 (insn 0xC6 (std 63 2 3 0 0 0xC 0)) { d := .v, a := .s, b := .s, c := .unused, f := 0xF } true ∧
    IssuesS (runs core1) 0 (insn 0xC6 (std 63 2 3 5 0 3 0)) { d := .v, a := .s, b := .s, c := .s, f := 0xF } true ∧
    IssuesS (runs core1) 0 (insn 0xC7 (std 63 1 3 5 2 8 0)) { d := .v, a := .v, b := .s, c := .s, x := .s, f := 8 } true ∧
    Issues (runs core1) 0 (insn 0xA7 (std 1 2 3 4 5 0 0)) ((formVopt (insn 0xA7 (std 1 2 3 4 5 0 0))).ok (insn 0xA7 (std 1 2 3 4 5 0 0)) &&
      decide (fF (insn 0xA7 (std 1 2 3 4 5 0 0)) % 4 ≠ 3) && decide (imm16 (insn 0xA7 (std 1 2 3 4 5 0 0)) < 32)) [0] ∧
    Issues (runs core1) 0 (insn 0xA7 (std 1 2 3 4 5 6 31)) ((formVopt (insn 0xA7 (std 1 2 3 4 5 6 31))).ok (insn 0xA7 (std 1 2 3 4 5 6 31)) &&
      decide (fF (insn 0xA7 (std 1 2 3 4 5 6 31)) % 4 ≠ 3) && decide (imm16 (insn 0xA7 (std 1 2 3 4 5 6 31)) < 32)) [31] ∧
    IssuesS (runs core1) 0 (insn 0xA2 (std 62 1 3 5 0 5 0x7030)) (formVcvt (insn 0xA2 (std 62 1 3 5 0 5 0x7030))) true ∧
    IssuesS (runs core1) 0 (insn 0xA2 (std 62 1 3 5 0 5 0x5008)) (formVcvt (insn 0xA2 (std 62 1 3 5 0 5 0x5008))) true ∧
    (((({ runs core1 with mem := SMap.ofList 0 (strideAddr 0 0x226) [0x10] } : Dev).setCore 0
      { core1 with edgeQ := [⟨0, 0, insn 0x80 0, 0, 0x200, 0x220, 0, 0⟩] }).setFld Fld.EDGE_CTL_SR 0 1).setFld Fld.RNG_CTL_MODE 0 0).drawHeld 0 false = true ∧
    vcvtFmt 7 ≠ none ∧ vcvtFmt 8 ≠ none ∧ bits 0x7001 4 3 = 0 ∧ drawsReach true 0xFFFC 3 = false ∧ drawsReach true 0xFFFD 3 = true ∧
    (runs core1).drawHeld 0 false = false := by
  refine ⟨?_, ?_, ?_, ?_, ?_, ?_, ?_, ?_, by decide +kernel, by decide, by decide, by decide, by decide, by decide, by decide⟩ <;> exact issues_of (by decide)

/-! ### Arrays, the edge queue and panels -/

/-- A WLOAD of BF16 into bank 0 of array 3, one of a reserved format, and an AMUL of one vector on array 3. -/
def wBf16 : BitVec 56 := std 0 2 0 0 0 0 0x3028
def wBad : BitVec 56 := std 0 2 0 0 0 0 0x3048
def aBf16 : BitVec 56 := std 0 2 0 0 0 0 0x8028

/-- A core whose bank 0 of array 3 holds BF16, and one where it holds FP16. -/
def held (f : Fmt) : Core := ({ banks := [(6, { fmt := some f, rows := List.replicate 32 ⟨0, 127, 127⟩ })] } : Core).setS 2 0x19800

theorem test_issues_arrays :
    IssuesS (runs (held .bf16)) 0 (insn 0x60 wBf16) { a := .s, b := .s, f := 1, imm := 0x307C } (wideRule (insn 0x60 wBf16)) ∧
    IssuesS (runs (held .bf16)) 0 (insn 0x60 wBad) { a := .s, b := .s, f := 1, imm := 0x307C } (wideRule (insn 0x60 wBad)) ∧
    IssuesS (runs (held .bf16)) 0 (insn 0x61 aBf16) { a := .s, b := .s, f := 0x3F, imm := 0xFFFC }
      (wideRule (insn 0x61 aBf16) && decide (arrMask (insn 0x61 aBf16) ≠ 0)) ∧
    IssuesS (runs (held .fp16)) 0 (insn 0x61 aBf16) { a := .s, b := .s, f := 0x3F, imm := 0xFFFC }
      (wideRule (insn 0x61 aBf16) && decide (arrMask (insn 0x61 aBf16) ≠ 0)) ∧
    IssuesS (runs {}) 0 (insn 0x61 aBf16) { a := .s, b := .s, f := 0x3F, imm := 0xFFFC }
      (wideRule (insn 0x61 aBf16) && decide (arrMask (insn 0x61 aBf16) ≠ 0)) := by
  refine ⟨?_, ?_, ?_, ?_, ?_⟩ <;> exact issues_of (by decide)

/-- The answers: a format refused, an empty bank, a bank of another format, the last vectors that fit staging and the first that do not. -/
theorem test_array_answers :
    arrayFmt (arrFmt (insn 0x60 wBad)) = none ∧ arrayFmt (arrFmt (insn 0x60 wBf16)) = some .bf16 ∧
    (runs {}).bankFault 0 (insn 0x61 aBf16) .bf16 = some Ev.FMT_ILLEGAL ∧
    (runs (held .fp16)).bankFault 0 (insn 0x61 aBf16) .bf16 = some Ev.FMT_MISMATCH ∧
    (runs (held .bf16)).bankFault 0 (insn 0x61 aBf16) .bf16 = none ∧
    (held .bf16).loads = [] ∧ stageFault .bf16 false 0x19800 0 32 = none ∧ stageFault .bf16 false 0x19810 0 32 = some 0x1A000 ∧
    stageFault .bf16 false 0x19808 0 32 = some 0x19808 := by decide

/-- A queued WLOAD, a queued AMUL, a load in progress and an AMUL in flight. -/
def opW : ArrayOp := ⟨0, 0, insn 0x60 wBf16, 0, 0⟩
def opA : ArrayOp := ⟨0, 0, insn 0x61 aBf16, 0, 0⟩
def loadW : BankLoad := ⟨3, 0, .bf16, false, 0, 0⟩
def flightA : AmulFlight := ⟨0, 0, 0, 0, true, 0x20, false, ⟨8, false, .bf16, false, [⟨0, 127, 127⟩], (held .bf16).banks.map (fun b => b.2)⟩⟩

theorem test_dispatch_and_rows :
    arrayFmt (arrFmt opW.word) = some .bf16 ∧ isAmul opW.word = false ∧ arrayFmt (arrFmt opA.word) = some .bf16 ∧ isAmul opA.word = true ∧
    (held .bf16).edgeBefore (panelOf opA.word) 0 = false ∧ ((runs (held .bf16)).setCore 0 { held .bf16 with arrayQ := [] }).bankFault 0 opA.word .bf16 = none ∧
    ([loadW].find? (fun l => decide (l.array = (3#2).toNat) && decide (l.bank = b2n false)) = some loadW) ∧
    (withDev (fun d => d.setCore 0 { flights := [flightA] })).dev.core 0 = { flights := [flightA] } ∧
    ((withDev (fun d => d.setCore 0 { flights := [flightA] })).dev.part 0).nanStop = false ∧ flightA.data.mask.getLsbD 3 = true ∧ flightA.next < 32 := by decide

/-- A spill of the last panel to the last place of its size, in pair mode and not; a record whose interval is the largest. -/
theorem test_spill_answers :
    recordFits 0xFA000 (recordTiles false) = true ∧ recordFits 0xF6000 (recordTiles true) = true ∧ recordFits 0xFB000 (recordTiles false) = false ∧
    ({ promote := 64, pair := true } : Panel).promote.toNat = 64 ∧ (1 : Nat) ≤ ({ promote := 1 } : Panel).promote.toNat := by decide

def core2 : Core := (({ pc := 0x100 } : Core).setS 2 0xFA000).setS 3 0x200

theorem test_issues_edge :
    IssuesS (runs core2) 0 (insn 0x62 (std 0 2 0 0 0 0x1C 0)) { a := .s, f := 0x1C } true ∧
    IssuesS (runs core2) 0 (insn 0x63 (std 0 2 0 0 0 0x1C 0)) { a := .s, f := 0x1C } true ∧
    IssuesS (runs core2) 0 (insn 0x64 (std 3 0 0 0 0 0x1C 0)) { d := .s, a := .s, b := .s, c := .s, x := .s, f := 0x1F } (poutLegal (insn 0x64 (std 3 0 0 0 0 0x1C 0))) ∧
    IssuesS (runs core2) 0 (insn 0x80 (std 31 3 3 0 5 0 0)) { d := .s, a := .s, b := .s, c := .s, x := .s } true ∧
    IssuesS (runs core2) 0 (insn 0x81 (std 0 3 3 0 5 0 0)) { a := .s, b := .s, c := .s, x := .s } true ∧
    core2.edgeQ = [] ∧ core2.panelBusy 7 core2.order = false := by
  refine ⟨?_, ?_, ?_, ?_, ?_, by decide, by decide⟩ <;> exact issues_of (by decide)

/-- No bridge is down, and a resume in flight counts at its completion. -/
theorem test_resume_counts : (runs core2).ctl.bridgesDown = [] ∧
    (((Dev.reset.setCore 0 { edgeFlights := [⟨0, some 7, false, none, true⟩] }).finishEdge 0 ⟨0, some 7, false, none, true⟩).reg .ACC_PC_RESUME 0 = 1) := by decide +kernel

/-- The 528 bytes of a record's header in main mode with interval 32, at offset 0 of a core's payload. -/
def header : Memory := SMap.ofList 0 (strideAddr 0 0xFA000) [0x44, 0x48, 0x53, 0x48, 0, 0x20]

theorem test_resume_answers : headerBad (Memory.bytes header (strideAddr 0 0xFA000) tileSize) = false ∧
    recordFits 0xFA000 (recordTiles ((Memory.num header (strideAddr 0 0xFA000 + 4) 1).testBit 0)) = true := by decide +kernel

/-- A descriptor of one FP32 element at offset 0x1000, one of FP4 at 0x2000 and one of E4M3, at offsets 0x200, 0x240 and 0x280. -/
def descs : Memory :=
  SMap.ofList 0 (strideAddr 0 0x200) (leBytes 8 (strideAddr 0 0x1000 + 7 * 2 ^ 52) ++ leBytes 8 0 ++ leBytes 8 (1 + 2 ^ 32) ++ leBytes 8 0 ++ leBytes 8 (1 + 2 ^ 32) ++ zeros 24 ++
    leBytes 8 (strideAddr 0 0x2000) ++ leBytes 8 (strideAddr 0 0x3000) ++ leBytes 8 (1 + 2 ^ 32) ++ leBytes 8 0 ++ leBytes 8 (1 + 2 ^ 32))

def core3 : Core := (({ pc := 0x100 } : Core).setS 3 0x200).setS 4 0x240 |>.setS 5 1

def edgeOp (i : Nat) (x : Core) : EdgeOp :=
  { order := x.order, pc := 0x100, word := i, d := x.s (fD i), a := x.s (fA i), b := x.s (fB i), c := x.s (fC i), x := x.s (fX i) }

theorem test_conversions_run :
    ({ runs core3 with mem := descs } : Dev).outFault 0 (edgeOp (insn 0x64 (std 3 0 0 0 0 0x1C 0)) core3) = none ∧
    ({ runs core3 with mem := descs } : Dev).convFault 0 false (edgeOp (insn 0x80 (std 31 3 4 0 5 0 0)) core3) = none ∧
    ({ runs core3 with mem := descs } : Dev).convFault 0 true (edgeOp (insn 0x81 (std 0 4 3 0 5 0 0)) core3) = none ∧
    (({ runs core3 with mem := descs } : Dev).descAt 0 0x200).isSome = true ∧ ({ runs core3 with mem := descs } : Dev).edgeFault 0 (edgeOp (insn 0x64 (std 3 0 0 0 0 0x1C 0)) core3) = none ∧
    core3.edgeBusy (edgeOp (insn 0x80 (std 31 3 4 0 5 0 0)) core3) = false ∧ core3.edgeHeld (edgeOp (insn 0x64 (std 3 0 0 0 0 0x1C 0)) core3) = false := by
  decide +kernel

/-- A conversion in flight that writes s31, with a gill reset pending and without. -/
def flying : Core := { edgeFlights := [⟨0, none, true, some (31, 5), false⟩] }

theorem test_edge_completions :
    (let d := ((Dev.reset.setCore 0 flying).setFld Fld.EDGE_STAT_RSTPEND 0 1)
     d.flag Fld.EDGE_STAT_RSTPEND 0 = true ∧ (d.core 0).edgeFlights.find? (fun f => f.conv) = some ⟨0, none, true, some (31, 5), false⟩ ∧
       (∀ g ∈ (d.core 0).edgeFlights.erase ⟨0, none, true, some (31, 5), false⟩, g.conv = false) ∧ (d.part (d.corePart 0)).nanStop = false) ∧
    (Dev.reset.setCore 0 flying).flag Fld.EDGE_STAT_RSTPEND 0 = false ∧ flying.converting = true ∧ ({} : Core).converting = false := by decide

/-! ### Bring-up, power and cooling -/

theorem test_standby_states : Dev.reset.standby = true ∧ Dev.reset.sby.input = true ∧ Dev.reset.railsRising = true ∧ Dev.reset.sby.deepWake = false ∧
    Dev.reset.sby.railTries < 3 ∧ 3 ≤ ({ Dev.reset with sby := { railTries := 3 } } : Dev).sby.railTries ∧
    Dev.reset.sec.flashQ = [] ∧ (0x5E#7).toNat = 0x5C + ({ Dev.reset with sby := { straps := 2 } } : Dev).sby.straps ∧ ready.standby = true ∧
    ({ Dev.reset with sby := { input := false } } : Dev).standby = false ∧ ¬ ((0x5D#7).toNat = 0x5C + Dev.reset.sby.straps) ∧
    ¬ (true = true ∧ (0x5B#8) = 0x5A#8) ∧ ¬ (false = true ∧ (0xA5#8) = 0xA5#8) := by decide

/-- A die in ROM with its image as old as the floor and one older, a die that may announce, and a window with its lowest announcer. -/
def rom (announced : List Nat) (verified : List Nat) : Dev :=
  { boots 5 1 with ctl := { elected := false, verified := verified, announced := announced, windowOpen := !announced.isEmpty } }

theorem test_rom_states :
    (rom [] []).booting = true ∧ (rom [] []).ctl.elected = false ∧ (rom [] []).fenced 5 = false ∧ (rom [] []).dieStage 5 = 1 ∧
    5 ∉ (rom [] []).ctl.verified ∧ 5 ∉ (rom [] []).ctl.rejected ∧ 5 ∈ (rom [] [5]).ctl.verified ∧ 5 ∉ (rom [] [5]).ctl.announced ∧
    5 ∈ (rom [5] [5]).ctl.announced ∧ (∀ e, e < 5 → (rom [5] [5]).fenced e = true ∨ e ∉ (rom [5] [5]).ctl.announced) ∧ (rom [5] [5]).ctl.fences = [] ∧
    (rom [5] [5]).ctl.journal = [] ∧ (rom [5] [5]).spr = {} ∧ (rom [] []).ctl.verified = [] := by decide

/-- The neutral point as a key, and its signature of any message: R is the neutral point and S is 0 (RFC 8032, 5.2.7). -/
def anySig : List Byte := leBytes 57 1 ++ zeros 57

/-- Flash whose image the ROM key signed, and the same with a floor above its SVN. -/
def signedFlash : Flash := { Flash.factory with fw := some ⟨true, 0, true, 0, 0, [], 0, keyId 1, anySig⟩, romKey := 1 }

/-- What a loader asks of an image, met at the floor, and missed by an image below the floor; die 0's identity derived right, and with no helper data. -/
theorem test_rom_answers : signedFlash.fw = some ⟨true, 0, true, 0, 0, [], 0, keyId 1, anySig⟩ ∧ signedFlash.floor ≤ 0 ∧ keyId 1 = keyId signedFlash.romKey ∧
    Ed448.verify signedFlash.romKey "FENRAM-TX4-FIRM" (leBytes 64 0) anySig = true ∧
    (∀ r, ({ signedFlash with floor := 1 } : Flash).fw = some r → ¬ ({ signedFlash with floor := 1 } : Flash).floor ≤ r.svn) ∧
    (∃ h, ({ Flash.factory with helper := some [7], certKey := derivedKey [9] [7] } : Flash).helper = some h ∧
      derivedKey [9] h = ({ Flash.factory with helper := some [7], certKey := derivedKey [9] [7] } : Flash).certKey) ∧
    ¬ (∃ h, ({ Flash.factory with helper := none } : Flash).helper = some h ∧ derivedKey [9] h = Flash.factory.certKey) := by
  refine ⟨rfl, by decide, rfl, by decide +kernel, ?_, ⟨[7], by simp only, by simp only⟩, fun h => by obtain ⟨_, h, -⟩ := h; cases h⟩
  intro r h
  cases h
  decide

/-- Nothing waits for the lead in MEMORY, in CORES, in REMAP, in the low-power mode and in READY, with NEXT appointed and without. -/
theorem test_settled : (boots 5 4).settled ∧ (boots 5 5).settled ∧ (boots 5 3).settled ∧ (ready.setFld Fld.PWR_DSTAT_LP 5 1).settled ∧ ready.settled ∧
    ready.solo = false ∧ ((ready.setFld Fld.CTL_ELECT_NEXTV 0 0).setFld Fld.CTL_JSTAT_SOLO 0 1).settled ∧ ((ready.setFld Fld.CTL_ELECT_NEXTV 0 0).setFld Fld.CTL_JSTAT_SOLO 0 1).solo = true ∧
    ready.leadDie ≠ 5 ∧ (ready.part (ready.partOf 5)).stepping = false := by
  refine ⟨?_, ?_, ?_, ?_, ?_, by decide, ?_, by decide, by decide, by decide⟩ <;> exact leads_of (by decide +kernel)

theorem test_stage_states :
    (boots 0 3).inStage 0 3 = true ∧ (boots 0 3).hasLead = true ∧ (boots 0 3).sby.deepWake = false ∧ Flash.factory.keysA = Flash.factory.keysB ∧
    Flash.factory.keysA.ok = true ∧ Flash.factory.retireA = ⟨true, []⟩ ∧ (boots 5 4).inStage 5 4 = true ∧ (0xE#4) ≠ 0xF ∧ (boots 5 4).hasLead = true ∧
    (boots 5 5).inStage 5 5 = true ∧ 5 ∉ (boots 5 5).ctl.tested ∧ (∀ f ∈ (boots 5 5).spr.fills, f.die ≠ 5) ∧ isSlot (0x161F0#17).toNat = true ∧
    slotDie (0x161F0#17).toNat = 5 ∧ (boots 5 5).retired (0x161F0#17).toNat = false ∧ (boots 5 5).inStage 5 ((boots 5 5).dieStage 5) = true ∧
    3 ≤ (boots 5 3).dieStage 5 ∧ (boots 5 5).dieStage 5 ≤ 5 ∧
    ((boots 5 5).setFld Fld.CTL_JSTAT_SOLO 0 1).solo = true ∧ (boots 5 5).solo = false ∧ Flash.factory.holdsRetired (0x161F0#17).toNat = false ∧
    ({ Flash.factory with retireA := ⟨true, [0x161F0]⟩, retireB := ⟨true, [0x161F0]⟩ } : Flash).holdsRetired (0x161F0#17).toNat = true := by decide

/-- The module in a power state, and entering one. -/
def inPower (v : Nat) : Dev := ready.setFld Fld.PWR_STAT_STATE 0 v
def entering (v : Nat) : Dev := { ready.setFld Fld.PWR_STAT_BUSY 0 1 with sby := { pwrGood := true, target := v } }

theorem ready_no_fill : ready.anyFillOrSwap = false := by decide +kernel

theorem test_power_blocked : ready.pwrBlocked 1 = false ∧ ready.pwrBlocked 4 = false ∧ (ready.setFld Fld.PLAN_STAT_STATE 0 3).pwrBlocked 1 = true ∧
    (ready.setFld Fld.PLAN_STAT_STATE 0 2).pwrBlocked 4 = true := by
  unfold Dev.pwrBlocked
  refine ⟨?_, ?_, by decide, by rw [Bool.or_eq_true]; exact .inr (by decide)⟩ <;> unfold Dev.pwrBarred <;> rw [ready_no_fill] <;> decide

theorem test_power_states :
    ready.flag Fld.PWR_STAT_BUSY 0 = false ∧ ready.power = 0 ∧
    (inPower 1).power = 1 ∧ (inPower 2).power = 2 ∧ (inPower 2).isOwner 0 = true ∧ (inPower 2).fld Fld.HLK_PSTAT_LINK 0 = 2 ∧
    (entering 1).flag Fld.PWR_STAT_BUSY 0 = true ∧ (entering 1).power = 0 ∧ (entering 4).sby.target = 4 ∧ (entering 1).sby.wakePending = false ∧
    (inPower 1).standby = true ∧ (inPower 1).sby.resetHeld = false ∧ (inPower 3).power = 3 ∧ (inPower 4).power = 4 ∧ (inPower 3).flag Fld.PWR_STAT_BUSY 0 = false ∧
    5 ∈ ({ inPower 1 with sby := { pwrGood := true, switching := [5] } } : Dev).sby.switching ∧ (inPower 1).sby.wokeAt ≠ some (inPower 1).now ∧
    ({ ready with sby := { pwrGood := true, wokeAt := some 0 } } : Dev).sby.wokeAt = some ready.now ∧ (entering 1).standby = true ∧
    ({ entering 1 with sby := { pwrGood := true, target := 1, cmdAt := some 0 } } : Dev).sby.cmdAt = some (entering 1).now ∧
    (entering 1).sby.cmdAt ≠ some (entering 1).now := by decide +kernel

theorem test_input_states : ready.sby.input = true ∧ ready.alive = true ∧
    (∀ x ∈ [(64000#16).toNat], x < 65536) ∧ 38000 * [(38001#16).toNat].length < [(38001#16).toNat].sum ∧
    ¬ 38000 * [(38000#16).toNat].length < [(38000#16).toNat].sum ∧ 32000 * [(32001#16).toNat].length < [(32001#16).toNat].sum ∧
    ready.flag Fld.PWR_INPUT_SAGW 0 = false ∧ ready.flag Fld.PWR_INPUT_LIMIT 0 = false ∧ ([6399] : List Nat).sum < 6400 * [6399].length ∧
    (ready.setFld Fld.PWR_RSTCAUSE_NSAG 0 0xFFFFFFFE).fld Fld.PWR_RSTCAUSE_NSAG 0 < 0xFFFFFFFF ∧
    (ready.setFld Fld.PWR_RSTCAUSE_NSAG 0 0xFFFFFFFF).fld Fld.PWR_RSTCAUSE_NSAG 0 = 0xFFFFFFFF := by decide

theorem test_cooling_states : (271#9).toNat < 272 ∧ ready.alive = true ∧ ready.fenced 5 = false ∧ ready.power = 0 ∧ clIdx 5 271 ∉ ready.sby.stretched ∧
    clIdx 5 271 ∈ ({ ready with sby := { pwrGood := true, stretched := [clIdx 5 271] } } : Dev).sby.stretched ∧
    (ready.setFld Fld.PWR_DSTAT_LP 5 1).flag Fld.PWR_DSTAT_LP 5 = true ∧ (ready.setFld Fld.PWR_DSTAT_LP 5 1).hasLead = true ∧
    ready.liveDies.foldl (fun m d => max m ((110 * 2 ^ 40) / 2 ^ (8 * d) % 256)) 0 = 110 ∧
    ready.liveDies.foldl (fun m d => max m ((111 * 2 ^ 40) / 2 ^ (8 * d) % 256)) 0 = 111 ∧ (BitVec.ofInt 12 (-201)).toInt < -200 ∧
    ¬ (900 : Int) < (900#12).toInt ∧ ready.flag Fld.PWR_COOL_WARN 0 = false ∧ ready.flag Fld.PWR_COOL_LIMIT 0 = false ∧ ready.sby.pwrGood = true ∧
    ready.sby.trip = false := by decide +kernel

/-! ### Controllers, sparing and plans -/

theorem test_controller_states :
    ready.alive = true ∧ ready.ctl.elected = true ∧ ready.fenced 5 = false ∧ ready.role 5 ≠ 3 ∧ ready.hasLead = true ∧
    ready.ctl.timerHeartbeats = ready.onTimer ∧ ready.onTimer = true ∧ ready.fld Fld.CTL_CSTAT_MISSED 0 < 2 ∧
    2 ≤ (ready.setFld Fld.CTL_CSTAT_MISSED 0 2).fld Fld.CTL_CSTAT_MISSED 0 ∧ (ready.setFld Fld.CTL_CSTAT_MISSED 0 2).role 0 = 1 ∧ ready.leadDie = 0 ∧
    ready.nextDie = some 1 ∧ ready.term < 65535 ∧ ready.ctl.fences = [] ∧ ready.spr.due = [] ∧ ready.role 1 = 2 ∧ ready.fenced 1 = false ∧
    5 ∈ ({ ready with ctl := { elected := true, rejoin := [5] } } : Dev).ctl.rejoin := by decide

/-- An open record of a due retirement, of a slot that serves core 0 (R495). -/
def jrec (ack : Bool) : JRec := ⟨1, 1, 1, false, false, 0, 0, 0, 0, ack, false⟩
def due (ack : Bool) : Dev :=
  { ready with ctl := { elected := true, journal := [jrec ack] }, spr := { due := [0] } }

theorem test_flash_holds : Flash.factory.holdsRetired (jrec true).target = false ∧ (jrec false).seq < 2 ^ 64 ∧
    ({ Flash.factory with retireA := ⟨true, [0]⟩, retireB := ⟨true, [0]⟩ } : Flash).holdsRetired (jrec true).target = true := by decide

theorem due_leads (ack : Bool) : Leads (due ack) [] [(jrec ack).target] [] [jrec ack] := by
  cases ack <;> exact leads_of (by decide +kernel)

theorem test_journal_and_bridge_states :
    jrec false ∈ (due false).ctl.journal ∧ (jrec false).isOpen = true ∧ (jrec false).acked = false ∧ (due false).retireReady 0 = true ∧ isSlot 0 = true ∧
    (jrec true).openAck = true ∧ (due true).retireReady 0 = true ∧ (due true).retired 0 = false ∧ (due true).fenced (slotDie 0) = false ∧
    ready.nextDie = some 1 ∧ ready.fenced 1 = false ∧ ready.role 1 = 2 ∧
    (6#3).toNat < 7 ∧ (ready.setFld Fld.CTL_BRG_UP 6 1).flag Fld.CTL_BRG_UP 6 = true ∧ SMap.read 0 ([(6, 6)] : SMap Nat) 6 < 7 ∧
    7 ≤ SMap.read 0 ([(6, 7)] : SMap Nat) 6 := by decide

/-- A record that NEXT has not acknowledged, of a fill: nothing else waits for the lead. -/
theorem test_record_waits : ({ ready with ctl := { elected := true, journal := [{ jrec false with type := 2 }] } } : Dev).settled ∧
    ({ jrec false with type := 2 } : JRec).acked = false := by
  refine ⟨leads_of ?_, ?_⟩ <;> decide +kernel

/-- A controller that rejoins, one whose third heartbeat is missing, and the lead's third. -/
theorem test_rejoin_and_misses : ({ ready with ctl := { elected := true, rejoin := [5] }, sec := { running := some ⟨true, 0, true, 0, 0, [], 0, 0, []⟩ } } : Dev).settled ∧
    (ready.setFld Fld.CTL_CSTAT_MISSED 5 2).settled ∧ (ready.setFld Fld.CTL_CSTAT_MISSED 5 2).role 5 ≠ 1 ∧ (ready.setFld Fld.CTL_CSTAT_MISSED 0 2).settled ∧
    ready.leadDie ≠ 5 ∧ (∀ r ∈ ({ ready with ctl := { elected := true, journal := [{ jrec true with done := true, closedAck := true }] } } : Dev).ctl.journal,
      r.isOpen = false → r.closedAck = true) := by
  refine ⟨leads_of ?_, leads_of ?_, ?_, leads_of ?_, ?_, ?_⟩ <;> decide +kernel

/-- A slot in service with its cluster's spare at hand, and one whose cluster has none. -/
def serving (spare : Nat) : Dev := ((due true).setFld Fld.SPR_CLSTAT_SPARE 0 spare).setReg .SPR_REMAP_LO 0 0x0706050403020100

/-- A fill of cluster 271 of die 5 at one of its steps, its record acknowledged. -/
def filling (step : Nat) : Dev :=
  { (ready.setFld Fld.PLAN_STAT_STATE 0 2) with
    spr := { fills := [{ die := 5, cluster := 271, slot := 16, core := coreId 5 271 0, step := step }] }
    ctl := { elected := true, journal := [⟨1, 1, 2, false, false, slotId 5 271 16, 0, 0, 0, true, false⟩] } }

theorem test_fills_wait : (filling 1).settled ∧ (filling 2).settled ∧ (filling 3).settled := by
  refine ⟨?_, ?_, ?_⟩ <;> exact leads_of (by decide +kernel)

theorem test_sparing_states :
    ready.power = 0 ∧ isSlot (0x161F0#17).toNat = true ∧ ready.retired (0x161F0#17).toNat = false ∧ ready.solo = false ∧
    ready.clusterOpen (slotDie (0x161F0#17).toNat) (slotCluster (0x161F0#17).toNat) [] = false ∧
    ready.fenced (slotDie (0x161F0#17).toNat) = false ∧ ready.retireRefused (0x161F0#17).toNat = false ∧
    ready.retireRefused 0 = false ∧ ready.retired 0 = false ∧ ready.clusterOpen (slotDie 0) (slotCluster 0) [] = false ∧
    (serving 16).servedBy 0 = some 0 ∧ (serving 16).fillOf 0 0 = none ∧ (serving 16).spareOf 0 0 < 17 ∧
    (serving 0x1F).spareOf 0 0 = 0x1F ∧ ((filling 1).fillOf 5 271).map (fun f => f.step) = some 1 ∧ (filling 1).mayAct 2 (slotId 5 271 16) = true ∧
    2 ≤ (filling 1).planState ((filling 1).partOf 5) ∧ (filling 2).retired (slotId 5 271 16) = false ∧
    ((filling 1).part ((filling 1).partOf 5)).stepping = false ∧ (filling 3).ctl.bridgesDown = [] := by decide

theorem serving_leads (spare : Nat) (h : spare = 16 ∨ spare = 0x1F) : Leads (serving spare) [] [(jrec true).target] [] [jrec true] := by
  rcases h with rfl | rfl <;> exact leads_of (by decide +kernel)

/-- Pieces of an image, each at its offset, as memory from address `a`. -/
def image (a : Nat) (xs : List (Nat × List Byte)) : Memory := xs.flatMap (fun x => SMap.ofList 0 (a + x.1) x.2)

/-- A plan image of nine tiles: one cluster of die 0, a schedule of a vote and a flip, a local master chain, no route and a root scope. -/
def planImage : Memory :=
  image 0x1000 ([(0, leBytes 8 0x4E414C5034585446 ++ leBytes 2 1 ++ leBytes 2 8 ++ leBytes 4 0 ++ leBytes 8 0x9000 ++ leBytes 4 16 ++ leBytes 1 0x3F ++ zeros 3 ++ leBytes 8 7)] ++
    [(1, 480), (2, 256), (3, 1040), (8, 48), (9, 32), (0xA, 640), (0xB, 320), (0xC, 64)].zipIdx.map (fun x =>
      (64 + 16 * x.2, leBytes 2 x.1.1 ++ leBytes 2 1 ++ leBytes 4 (x.2 + 1) ++ leBytes 8 x.1.2)) ++
    [(0x1000, leBytes 8 0 ++ leBytes 34 1)] ++ (List.range 5).map (fun d => (0x1050 + 80 * d, leBytes 1 (d + 1))) ++
    (List.range 16).map (fun i => (0x2000 + 16 * i, leBytes 2 i ++ zeros 10 ++ leBytes 2 1)) ++
    [(0x4000, leBytes 4 2 ++ leBytes 4 1 ++ zeros 8 ++ leBytes 4 0 ++ [2, 0, 0, 0] ++ leBytes 4 0 ++ leBytes 4 1 ++ leBytes 4 2 ++ [3])] ++
    [(0x5000, [0, 3, 0, 0xFF, 0, 0, 0, 0, 1])] ++ [(0x7000, leBytes 4 1 ++ zeros 4 ++ leBytes 2 1 ++ [0, 1, 0, 0, 0, 0, 0, 0, 0xFF, 0xFF])])

/-- The module with that image at the plan address, and with that cluster short where `short` is 1. -/
def withPlan (short : Nat) : Dev := { (ready.setReg .PLAN_ADDR 0 0x1000).setFld Fld.SPR_CLSTAT_SHORT 0 short with mem := planImage }

theorem plan_format (n : Nat) (h : n < 2) : (withPlan n).formatOk 0 0x1000 = true := by
  have hf : (withPlan n).formatBytes 0x1000 = none := by decide +revert +kernel
  unfold Dev.formatOk
  rw [hf]
  decide +revert +kernel

theorem plan_content (n : Nat) (h : n < 2) : (withPlan n).contentOk 0 0x1000 = true := by
  have hf : (withPlan n).fabricOf 0 0x1000 = some ⟨0, List.replicate 36 {}, []⟩ := by decide +revert +kernel
  have h1 := plan_format n h
  unfold Dev.contentOk
  rw [hf]
  simp only [Bool.and_eq_true]
  repeat' apply And.intro
  all_goals first
    | with_reducible exact h1
    | decide +revert +kernel

theorem plan_header (n : Nat) (h : n < 2) : (!(withPlan n).tilesInHbm 0 0x1000 1 || !headerOk ((withPlan n).reader 0x1000) ((withPlan n).dieMask 0) ||
    !(withPlan n).tilesInHbm 0 0x1000 ((withPlan n).reader 0x1000 16 8 / tileSize)) = false ∧ tableOk ((withPlan n).reader 0x1000) = true ∧
    findSect (sections ((withPlan n).reader 0x1000)) 0xFF = none ∧ (withPlan n).flag Fld.PLAN_CTL_REQUIRE_SIGNED 0 = false := by
  decide +revert +kernel

theorem plan_check (n : Nat) (h : n < 2) : (withPlan n).loadCheck [] 0 0x1000 = none := by
  obtain ⟨h1, h2, h3, h4⟩ := plan_header n h
  unfold Dev.loadCheck
  simp only [h1, h2, h3, h4, plan_content n h, Bool.not_true, Bool.false_eq_true, if_false, if_true]

/-- No tile of the image reports an error, or one does. -/
theorem test_load_errors : (∀ x ∈ (withPlan 0).loadTiles 0 0x1000, (withPlan 0).ueAt x = false) ∧
    ¬ (∀ x ∈ (withPlan 0).loadTiles 0 0x1000, ({ withPlan 0 with ue := [0x9FFF] } : Dev).ueAt x = false) := by
  refine ⟨fun x _ => ?_, fun h => ?_⟩
  · unfold Dev.ueAt
    split <;> rfl
  · have := h 0x9000 (by decide +kernel)
    revert this
    decide

/-- The check of an image reads nothing of the fills. -/
theorem loadCheck_spr (s : Dev) (x : Sparing) (ks : List Nat) (p a : Nat) : Dev.loadCheck { s with spr := x } ks p a = s.loadCheck ks p a := rfl

/-- The image is accepted while its partition fills and while it does not, and the plan's one cluster serves itself, or is short. -/
theorem test_plan_load_accepts :
    (withPlan 0).loadRefused 0 = false ∧ (withPlan 1).loadRefused 0 = false ∧ (withPlan 0).filling 0 = false ∧ (withPlan 1).filling 0 = false ∧
    ({ withPlan 0 with spr := (filling 1).spr } : Dev).loadCheck [] 0 0x1000 = none ∧ ({ withPlan 0 with spr := (filling 1).spr } : Dev).filling 0 = true ∧
    (withPlan 0).chainAgrees (parseChain ((withPlan 0).reader 0x1000) (sectOf ((withPlan 0).reader 0x1000) 9)).1 = true ∧
    (let pl := (withPlan 0).readPlan 0 0x1000; (withPlan 0).binding 0 pl.lcores pl.uses = some [(0, 0, 0)]) ∧
    (let pl := (withPlan 1).readPlan 0 0x1000; (withPlan 1).binding 0 pl.lcores pl.uses = none) :=
  ⟨by decide, by decide, by decide, by decide, (loadCheck_spr ..).trans (plan_check 0 (by decide)), by decide, by decide +kernel, by decide +kernel,
    by decide +kernel⟩

/-- A step's schedule: a vote at beat 1 with its deadline at beat 2, and the flip at beat 4. -/
def votePlan : Plan := { entries := [⟨1, 2, 0, 0, 2⟩, ⟨4, 3, 0, 0, 0⟩] }

/-- Partition 0 in a plan state, with what `x` says of it. -/
def planIn (st : Nat) (x : Part) : Dev := (ready.setFld Fld.PLAN_STAT_STATE 0 st).setPart 0 x

theorem test_plan_states :
    (planIn 2 {}).loadRefused 0 = true ∧ Dev.loadCheck ready [] 0 0 = some Ev.PLAN_FORMAT ∧ (planIn 2 { plan := some votePlan }).planState 0 = 2 ∧
    (planIn 3 { stepping := true }).planState 0 = 3 ∧ ((planIn 3 { stepping := true }).part 0).stepping = true ∧ ((planIn 3 {}).part 0).stepping = false ∧
    ((planIn 2 {}).setFld Fld.CHN_STAT_STATE 0 2).runRefused 0 16 = false ∧ ((planIn 2 {}).setFld Fld.CHN_STAT_STATE 0 2).runRefused 0 15 = true ∧
    ((planIn 1 { loading := some { votePlan with bound := true } }).part 0).loading = some { votePlan with bound := true } ∧
    (planIn 1 { loading := some { votePlan with bound := true } }).bridgeStops 0 = false ∧ (planIn 3 {}).spr.swaps = [] := by decide

/-- Step 8 of a load: a plan with no content, and one whose one core names a tile that carries the poison scruple. -/
theorem test_plan_stores :
    (ready.loadStores 0 {}).2.1 = none ∧
    (({ ready with mem := image 0x17F4000008 [(0, leBytes 8 poisonScruple)] } : Dev).loadStores 0 { addr := 0, cores := [⟨0, 0, 0, 1, 1⟩] }).2.1 =
      some Ev.TILE_POISON := by
  decide +kernel

/-- The chain configured with a primary input of delay 5 and the horizon 100, in a state, with what `x` says of it. -/
def chained (st : Nat) (x : Chain) : Dev :=
  let d := ((ready.setFld Fld.CHN_CTL_SRC 0 1).setFld Fld.CHN_CFG_HORIZON 0 100).setFld Fld.CHN_STAT_STATE 0 st
  { ((d.setFld Fld.CHN_DLY_VALID 0 1).setFld Fld.CHN_DLY_DLY 0 5).setFld Fld.FAB_PORT_STAT_PLAN 0 planMatch with chain := x }

/-- A symbol of count 1 with an accumulated delay, and a beat that waits. -/
def symbol (acc : Nat) : BitVec 128 := BitVec.ofNat 128 (1 + acc * 2 ^ 64)
def waits : WaitSym := ⟨1, 1024, 0⟩

/-- The frame of that symbol on CHAIN_IN: preamble and start byte, the symbol's 16 bytes, their CRC; and the CHAIN flit of a fabric port that
carries it (R350, R591). -/
def frame (crc : Nat) : BitVec 184 := BitVec.ofNat 184 (0xD55555 + (symbol 95).toNat * 2 ^ 24 + crc * 2 ^ 152)

theorem test_frames :
    (frameNum (frame 0xCED53BAE) 0 3 = 0xD55555 ∧ crc32 (leBytes 16 (frameNum (frame 0xCED53BAE) 3 16)) = frameNum (frame 0xCED53BAE) 19 4 ∧
      (∀ t, ({ frameAt := some 0 } : Chain).frameAt = some t → t + 589 ≤ 589) ∧ frameNum (frame 0xCED53BAE) 3 16 = (symbol 95).toNat) ∧
    ¬ (crc32 (leBytes 16 (frameNum (frame 0) 3 16)) = frameNum (frame 0) 19 4) ∧
    ¬ (∀ t, ({ frameAt := some 1 } : Chain).frameAt = some t → t + 589 ≤ 589) := by
  refine ⟨⟨by decide +kernel, by decide +kernel, fun t h => ?_, by decide +kernel⟩, by decide +kernel, fun h => absurd (h 1 rfl) (by decide)⟩
  cases h
  decide

theorem test_chain_states :
    (chained 2 { inForce := true }).chainOn = true ∧ (chained 2 { inForce := true }).inputDelay 0 = some 5 ∧
    ((chained 2 { inForce := true, frameAt := some 589 }).setFld Fld.CHN_CTL_SRC 0 2).inputDelay 0x3E = some 0 ∧
    (chained 2 { inForce := true }).symbolOk (symbol 95).toNat = true ∧ symAcc (symbol 95).toNat + 5 ≤ 100 ∧ 100 < symAcc (symbol 96).toNat + 5 ∧
    (chained 2 { inForce := true }).dupCount 1 = false ∧ (chained 2 { inForce := true }).oldCount 1 = false ∧ 2 ≤ (chained 2 { inForce := true }).chnState ∧
    (chained 2 { inForce := true, lastBeat := -1024 }).expectedCount 0 = (1, true) ∧ ((chained 2 { inForce := true, lastBeat := -2048 }).expectedCount 0).1 ≠ 1 ∧
    (({ inForce := true, waiting := [waits] } : Chain).nextSym = some waits) ∧ (chained 2 { inForce := true, waiting := [waits] }).chnState = chnLocked ∧
    (ready.setFld Fld.CHN_CTL_SRC 0 3).fld Fld.CHN_CTL_SRC 0 = 3 ∧ (chained 2 { inForce := true }).fld Fld.CHN_CTL_SRC 0 ≠ 3 ∧
    (chained chnHoldover {}).chnState = chnHoldover ∧ (chained chnLost {}).chnState = chnLost ∧ 0 ∈ (planIn 3 { stepping := true }).partitions ∧
    65536 ≤ ((chained chnHoldover {}).setFld Fld.CHN_STAT_HOLD 0 65536).fld Fld.CHN_STAT_HOLD 0 ∧ 16 ≤ (chained 2 { conflicts := 16 }).chain.conflicts := by decide

/-- A step under way at beat offset `b`, reached and slid as given. -/
def stepAt (b : Nat) (reached : Int) (slide : Nat) (x : Part) : Dev :=
  ((planIn 3 { x with plan := some votePlan, stepping := true, reach := reached }).setReg .CHN_COUNT 0 b).setFld Fld.PLAN_SCHED_SLIDE 0 slide

/-- A clean decision, and one that asks for a drain. -/
def clean (drain : Bool) : Vote := { clean := true, complete := true, drain := drain, count := 1 }

theorem test_step_states :
    (planIn 3 { start := some 5 }).planState 0 = 3 ∧ ((ready.setReg .CHN_COUNT 0 5).chainCount = (5 : Word).toNat) ∧
    ((stepAt 0 (-1) 0 {}).part 0).voteFired = false ∧ ((stepAt 0 (-1) 0 {}).flipEntry 0).map (fun e => e.offset) ≠ some ((stepAt 0 (-1) 0 {}).beatOffset 0) ∧
    ((stepAt 0 (-1) 0 {}).voteEntry 0).map (fun e => e.arg) ≠ some ((stepAt 0 (-1) 0 {}).beatOffset 0) ∧
    (stepAt 0 (-1) 0 {}).reached 0 + 1 + (0 : Nat) ≤ ((stepAt 0 (-1) 0 {}).beatOffset 0 : Nat) ∧
    (stepAt 1 0 0 {}).entryReady Flash.factory 0 ⟨1, 2, 0, 0, 2⟩ = true ∧
    ((stepAt 1 0 0 {}).setPart 0 { plan := some { votePlan with cores := [⟨0, 0, 0, 0, 0⟩] }, stepping := true }).entryReady Flash.factory 0 ⟨1, 2, 0, 0, 2⟩ = false ∧
    ((stepAt 2 1 0 {}).voteEntry 0).map (fun e => e.arg) = some ((stepAt 2 1 0 {}).beatOffset 0) := by decide

theorem test_flip_states :
    (let d := (stepAt 4 1 0 { voteFired := true, flip := 4, decision := some (clean false) })
     BitVec.ofNat 64 d.chainCount = (4 : Word) ∧ d.flag Fld.STEP_STAT_UNCLEAN 0 = false ∧ (clean false).digest = d.fld Fld.FMT_STAT_DIGEST 0 ∧
       d.storm 0 (clean false).reqmap = false ∧ d.step 0 < 0xFFFFFFFFFF ∧ d.fenced 0 = false) ∧
    (let d := (stepAt 68 1 0 { voteFired := true, flip := 4, decision := some (clean true), holding := true, holdmax := 2 })
     BitVec.ofNat 64 d.chainCount = (4 : Word) + BitVec.ofNat 64 ((0 + 1) * 0x40) ∧ d.storm 0 (clean true).reqmap = false ∧ (d.part 0).allDone = none ∧ 0 + 1 < 2) ∧
    ((planIn 2 { drain := some ⟨[0], 0x1000, zeros 8⟩ }).part 0).drain = some ⟨[0], 0x1000, zeros 8⟩ ∧
    ((planIn 2 {}).hostPort 0).streamed = true ∧ (planIn 2 {}).bridgeStops 0 = false ∧
    ({ link := { queue := [⟨0, 0, { op := 3 }, 0, false⟩] } } : HostPortSt).streamed = false ∧
    (∀ y ∈ (planIn 2 {}).spr.swaps, y.phase = 5 → (planIn 2 {}).partOf y.die ≠ 0) := by decide +kernel

/-! ### Contexts -/

/-- A monitored layer 1023, and a core whose last lane has drawn. -/
def monitored : Dev := (planIn 2 {}).setFld Fld.FMT_MON_CFG_VALID (monIdx 0 1023) 1
def drawn : Dev := (planIn 2 {}).setCore 0 { lanes := [(31, ⟨1, 1⟩)] }

theorem test_write_states :
    (0xFFFD : Nat) % 2 ^ 16 < 0xFFFE ∧ (planIn 2 {}).flag Fld.STEP_STAT_LIMIT 0 = false ∧ ((planIn 2 {}).setFld Fld.STEP_STAT_LIMIT 0 1).flag Fld.STEP_STAT_LIMIT 0 = true ∧
    (5 : Nat) ≠ (planIn 2 {}).fld Fld.STEP_STREAM_STREAM 0 ∧ (planIn 2 {}).ctabOk 0 0x1000 = false ∧ (1023 : Nat).testBit 10 = false ∧
    monitored.monitored 0 1023 = true ∧ monitored.planState 0 = 2 ∧ monitored.step 0 ≤ 0 ∧ ((stepAt 0 0 0 {}).step 0 < 1) ∧ drawn.coreServed 0 0 = true ∧
    drawn.flag Fld.RNG_STAT_BKBUSY 0 = false ∧ (0x80000000 : Nat).testBit 31 = true ∧ (SMap.read ({} : Lane) (drawn.core 0).lanes 31).count ≠ 0 ∧
    (SMap.read ({} : Lane) (drawn.core 0).lanes 31).saturated = false := by decide

/-- A commit table of one tensor in two copies of one tile each is in order (R319, R320). -/
theorem test_ctab_accepts :
    ({ planIn 2 {} with mem := image 0x1000 [(0, leBytes 4 1 ++ zeros 12 ++ leBytes 8 0x2000 ++ leBytes 8 0x3000 ++ leBytes 4 1)] } : Dev).ctabOk 0 0x1000 = true := by
  decide +kernel

/-- A drain may start: a host address, a port that carries drains, and none under way. -/
theorem test_save_states :
    (let d := (((planIn 2 {}).setReg .CTX_DHOST 0 0x10000).setFld Fld.HLK_PCTL_DRAIN 0 1)
     d.planState 0 = 2 ∧ d.running = true ∧ d.fld Fld.CTX_DSTAT_STATE 0 ≠ 1 ∧ d.reg .CTX_DHOST 0 ≠ 0 ∧ d.fld Fld.CTX_STAT_STATE 0 ≠ 3 ∧
       d.fld Fld.CTX_STAT_STATE 0 ≠ 1 ∧ d.drainPortsOf 0 = [0] ∧ d.ctxCheck 0 0x1000 = some Ev.CTX_FORMAT) := by decide +kernel

/-- A context image of eight tiles for a plan without cores: routing of no route, a root scope, and the scruples of its two tiles that are
not zero, in its own section and in the sideband. -/
def ctxBody : Memory :=
  image 0x1000 ([(0, leBytes 8 0x5458544334585446 ++ leBytes 2 1 ++ leBytes 2 5 ++ leBytes 4 0 ++ leBytes 8 0x8000 ++ leBytes 4 0 ++ leBytes 1 0x3F ++ zeros 11 ++ leBytes 5 9)] ++
    [(1, 1, 0), (2, 1, 16400), (3, 6, 960), (4, 7, 0), (5, 7, 4096)].zipIdx.map (fun x =>
      (128 + 16 * x.2, leBytes 2 x.1.1 ++ leBytes 2 1 ++ leBytes 4 x.1.2.1 ++ leBytes 8 x.1.2.2)) ++
    [(0x6280, leBytes 4 1 ++ zeros 4 ++ leBytes 2 1 ++ [0, 1, 0, 0, 0, 0, 0, 0, 0xFF, 0xFF]),
      (0x7000, leBytes 8 11004969673765387463), (0x7030, leBytes 8 6531356479281102851)])

def ctxImage : Memory :=
  ctxBody ++ SMap.ofList 0 0x17F4000008 (leBytes 8 11004969673765387463) ++
    SMap.ofList 0 0x17F4000038 (leBytes 8 6531356479281102851 ++ leBytes 8 2386921780428671108)

def restores : Dev := { (planIn 2 { plan := some {} }).setReg .CTX_RADDR 0 0x1000 with mem := ctxImage }

theorem zero_tile : tileScruple (List.replicate 4096 0) = 0 := by decide +kernel

/-- A payload tile that no entry of memory lies in, and whose scruple none lies in, can be used. -/
theorem tileFault_clear (s : Dev) (hu : s.ue = []) (b : Nat) (hb : b % 4096 = 0)
    (h : ∀ sa, scrupleAddr b = some sa → ∀ e ∈ s.mem, (e.1 < b ∨ b + 4096 ≤ e.1) ∧ (e.1 < sa ∨ sa + 8 ≤ e.1)) : s.tileFault b = none := by
  unfold Dev.tileFault
  cases hsc : scrupleAddr b with
  | none => rfl
  | some sa =>
    have h0 : Memory.num s.mem sa 8 = 0 := by
      rw [Memory.num, bytes_clear s.mem 8 sa (fun e he => (h sa hsc e he).2)]
      decide
    have h1 : Memory.scruple s.mem b = 0 := by simp only [Memory.scruple, hsc]; exact h0
    have h2 : Memory.verify s.mem b = true := by
      simp only [Memory.verify, hsc]
      rw [show b / tileSize * tileSize = b by simp only [tileSize]; omega, tileSize, bytes_clear s.mem 4096 b (fun e he => (h sa hsc e he).1), h0, zero_tile]
      rfl
    have h3 : s.ueAt b = false := by unfold Dev.ueAt; rw [hu]; split <;> rfl
    simp [Dev.scrupleOf, h3, h1, h2, poisonScruple]

theorem ctxImage_places : ∀ e ∈ ctxImage,
    (e.1 < 0x10D0 ∨ (0x7280 ≤ e.1 ∧ e.1 < 0x7294) ∨ (0x8000 ≤ e.1 ∧ e.1 < 0x8008) ∨ (0x8030 ≤ e.1 ∧ e.1 < 0x8038)) ∨
    (0x17F4000008 ≤ e.1 ∧ e.1 < 0x17F4000010) ∨ (0x17F4000038 ≤ e.1 ∧ e.1 < 0x17F4000048) := by decide +kernel

/-- Between the header and the routing the image is zero. -/
theorem restores_zero (o n : Nat) (h1 : 0xD0 ≤ o) (h2 : o + n ≤ 0x6280) : restores.reader 0x1000 o n = 0 := by
  show leNat (Memory.bytes ctxImage (0x1000 + o) n) = 0
  rw [bytes_clear ctxImage n _ (fun e he => by have := ctxImage_places e he; omega)]
  clear h2
  induction n with
  | zero => rfl
  | succ n ih => simp only [List.replicate_succ, leNat, ih]; rfl

theorem restores_second : (ctxSect (restores.reader 0x1000) 2).lo = 0x1000 := by decide +kernel

theorem monitors_below : ∀ n ∈ monitors, n < 1024 := by unfold monitors; intro n h; exact List.mem_range.mp h

theorem restores_format : restores.ctxFormatOk 0 0x1000 = true := by
  unfold Dev.ctxFormatOk
  simp only [Bool.and_eq_true]
  have hm : monitors.all (fun n => decide (stateMask (restores.reader 0x1000 ((ctxSect (restores.reader 0x1000) 2).lo + 16 + 16 * n) 8) =
      restores.reader 0x1000 ((ctxSect (restores.reader 0x1000) 2).lo + 16 + 16 * n) 8) &&
      decide (restores.reader 0x1000 ((ctxSect (restores.reader 0x1000) 2).lo + 16 + 16 * n + 8) 8 < 2 ^ 40)) = true := by
    rw [List.all_eq_true]
    intro n hn
    have := monitors_below n hn
    rw [restores_second, restores_zero _ _ (by omega) (by omega), restores_zero _ _ (by omega) (by omega)]
    decide
  repeat' apply And.intro
  all_goals first
    | with_reducible exact hm
    | decide +kernel

theorem restores_matches : restores.ctxMatches 0 0x1000 = true := by
  unfold Dev.ctxMatches
  simp only [Bool.and_eq_true]
  have hz : ∀ n ∈ monitors, ∀ k, k ≤ 16 → restores.reader 0x1000 ((ctxSect (restores.reader 0x1000) 2).lo + 16 + 16 * n) k = 0 := by
    intro n hn k hk
    have := monitors_below n hn
    rw [restores_second, restores_zero _ _ (by omega) (by omega)]
  have hm : monitors.all (fun n => restores.monitored 0 n || decide (restores.reader 0x1000 ((ctxSect (restores.reader 0x1000) 2).lo + 16 + 16 * n) 16 = 0)) = true := by
    rw [List.all_eq_true]
    intro n hn
    rw [hz n hn 16 (by omega)]
    simp
  have hf : monitors.filter (fun n => (restores.reader 0x1000 ((ctxSect (restores.reader 0x1000) 2).lo + 16 + 16 * n) 8).testBit 4) = [] := by
    rw [List.filter_eq_nil_iff]
    intro n hn
    rw [hz n hn 8 (by omega)]
    decide
  rw [hf]
  repeat' apply And.intro
  all_goals first
    | with_reducible exact hm
    | decide +kernel

theorem restores_plan : restores.ctxPlanOk 0 0x1000 = true ∧ ¬ (restores.boundCores 0).length < restores.reader 0x1000 24 4 := by decide +kernel

theorem test_restore_accepts : restores.ctxCheck 0 0x1000 = none ∧ restores.ctab 0 = [] ∧ restores.planState 0 = 2 ∧ restores.running = true ∧
    restores.fld Fld.CTX_RADDR_ADDR 0 = 0x1000 ∧ restores.bridgeStops 0 = false := by
  refine ⟨?_, by decide⟩
  unfold Dev.ctxCheck
  simp only [restores_format, restores_plan.1, restores_matches, restores_plan.2, Bool.not_true, if_false, Bool.false_eq_true]

/-- A range whose later part no entry lies in. -/
theorem bytes_head (m : Memory) (n k : Nat) : ∀ a, (∀ e ∈ m, e.1 < a + n ∨ a + n + k ≤ e.1) → Memory.bytes m a (n + k) = Memory.bytes m a n ++ List.replicate k 0 := by
  simp only [Memory.bytes_eq]
  induction n with
  | zero => intro a h; simpa [Memory.bytesFrom, Memory.bytes_eq] using bytes_clear m k a (by simpa using h)
  | succ n ih =>
    intro a h
    rw [Nat.add_right_comm, Memory.bytesFrom, Memory.bytesFrom, ih (a + 1) (fun e he => by have := h e he; omega)]
    rfl

theorem restores_head : restores.tileFault 0x1000 = none := by
  have hb : Memory.bytes ctxImage 0x1000 4096 = Memory.bytes ctxImage 0x1000 208 ++ List.replicate 3888 0 :=
    bytes_head ctxImage 208 3888 0x1000 (fun e he => by have := ctxImage_places e he; omega)
  have hv : Memory.verify restores.mem 0x1000 = true := by
    show (tileScruple (Memory.bytes ctxImage 0x1000 4096) == Memory.num ctxImage 0x17F4000008 8) = true
    rw [hb]
    decide +kernel
  have hs : ¬ Memory.scruple restores.mem 0x1000 = poisonScruple := by decide +kernel
  show (if Memory.scruple restores.mem 0x1000 = poisonScruple then some Ev.TILE_POISON
    else if Memory.verify restores.mem 0x1000 then none else some Ev.TILE_CHECK) = none
  rw [if_neg hs, if_pos hv]

theorem restores_routing : restores.tileFault 0x7000 = none := by
  have hb : Memory.bytes ctxImage 0x7000 4096 = Memory.bytes ctxImage 0x7000 660 ++ List.replicate 3436 0 :=
    bytes_head ctxImage 660 3436 0x7000 (fun e he => by have := ctxImage_places e he; omega)
  have hv : Memory.verify restores.mem 0x7000 = true := by
    show (tileScruple (Memory.bytes ctxImage 0x7000 4096) == Memory.num ctxImage 0x17F4000038 8) = true
    rw [hb]
    decide +kernel
  have hs : ¬ Memory.scruple restores.mem 0x7000 = poisonScruple := by decide +kernel
  show (if Memory.scruple restores.mem 0x7000 = poisonScruple then some Ev.TILE_POISON
    else if Memory.verify restores.mem 0x7000 then none else some Ev.TILE_CHECK) = none
  rw [if_neg hs, if_pos hv]

theorem restores_scruples : restores.tileFault 0x8000 = none := by
  have hb : Memory.bytes ctxImage 0x8000 4096 = Memory.bytes ctxImage 0x8000 56 ++ List.replicate 4040 0 :=
    bytes_head ctxImage 56 4040 0x8000 (fun e he => by have := ctxImage_places e he; omega)
  have hv : Memory.verify restores.mem 0x8000 = true := by
    show (tileScruple (Memory.bytes ctxImage 0x8000 4096) == Memory.num ctxImage 0x17F4000040 8) = true
    rw [hb]
    decide +kernel
  have hs : ¬ Memory.scruple restores.mem 0x8000 = poisonScruple := by decide +kernel
  show (if Memory.scruple restores.mem 0x8000 = poisonScruple then some Ev.TILE_POISON
    else if Memory.verify restores.mem 0x8000 then none else some Ev.TILE_CHECK) = none
  rw [if_neg hs, if_pos hv]

/-- Every tile from the image's address on can be used. -/
theorem test_restore_tiles (k : Nat) : restores.tileFault (0x1000 + k * tileSize) = none := by
  by_cases h0 : k = 0
  · subst h0; exact restores_head
  by_cases h6 : k = 6
  · subst h6; exact restores_routing
  by_cases h7 : k = 7
  · subst h7; exact restores_scruples
  have hb : 0x2000 ≤ 0x1000 + k * tileSize ∧ (0x1000 + k * tileSize) % 4096 = 0 ∧ 0x1000 + k * tileSize ≠ 0x7000 ∧
      0x1000 + k * tileSize ≠ 0x8000 := by simp only [tileSize]; omega
  generalize 0x1000 + k * tileSize = b at hb
  refine tileFault_clear _ rfl _ hb.2.1 (fun sa hsa e he => ?_)
  have hm := ctxImage_places e he
  have hp : (b < 0x17F4000000 ∧ sa = 0x17F4000000 + 8 * (b / 4096)) ∨ (0x1800000000 ≤ b ∧ 0x1800000000 ≤ sa) := by
    unfold scrupleAddr at hsa
    by_cases h1 : b < hbmEnd
    · by_cases h2 : b % stackSize < sidebandOff
      · simp only [memPlace, if_pos h1, if_pos h2, Option.some.injEq] at hsa
        simp only [hbmEnd, stackSize, sidebandOff, tileSize] at *
        omega
      · simp only [memPlace, if_pos h1, if_neg h2] at hsa
        cases hsa
    · refine Or.inr ⟨by simp only [hbmEnd] at h1; omega, ?_⟩
      by_cases h3 : coreBase ≤ b ∧ b < coreBase + 65536 * strideSize
      · by_cases h4 : (b - coreBase) % strideSize < 0xFF000
        · simp only [memPlace, if_neg h1, if_pos h3, if_pos h4, Option.some.injEq] at hsa
          simp only [strideAddr, coreBase] at hsa
          omega
        · simp only [memPlace, if_neg h1, if_pos h3, if_neg h4] at hsa
          repeat' split at hsa
          all_goals cases hsa
          all_goals rename_i hc
          all_goals repeat' split at hc
          all_goals cases hc
      · simp only [memPlace, if_neg h1, if_neg h3] at hsa
        cases hsa
  omega

theorem restores_section : (ctxSect (restores.reader 0x1000) 5).off = 7 ∧ (ctxSect (restores.reader 0x1000) 5).lo = 0x7000 := by decide +kernel

/-- The image's own scruples are those of its tiles. -/
theorem test_restore_scruples (k : Nat) : restores.ctxFault 0x1000 k = none := by
  unfold Dev.ctxFault
  simp only [test_restore_tiles k, restores_section.1, restores_section.2]
  by_cases hk : 7 ≤ k
  · rw [if_pos hk]
  rw [if_neg hk]
  have h : restores.reader 0x1000 (0x7000 + 8 * k) 8 = tileScruple (restores.tile (0x1000 + k * tileSize)) ∧
      restores.reader 0x1000 (0x7000 + 8 * k) 8 ≠ poisonScruple := by
    have ht : ∀ b, (∀ e ∈ ctxImage, e.1 < b ∨ b + 4096 ≤ e.1) → restores.tile b = List.replicate 4096 0 := fun b hb => bytes_clear ctxImage 4096 b hb
    by_cases h0 : k = 0
    · subst h0
      have hb : restores.tile (0x1000 + 0 * tileSize) = Memory.bytes ctxImage 0x1000 208 ++ List.replicate 3888 0 :=
        bytes_head ctxImage 208 3888 0x1000 (fun e he => by have := ctxImage_places e he; omega)
      rw [hb]
      decide +kernel
    by_cases h6 : k = 6
    · subst h6
      have hb : restores.tile (0x1000 + 6 * tileSize) = Memory.bytes ctxImage 0x7000 660 ++ List.replicate 3436 0 :=
        bytes_head ctxImage 660 3436 0x7000 (fun e he => by have := ctxImage_places e he; omega)
      rw [hb]
      decide +kernel
    rw [ht _ (fun e he => by have := ctxImage_places e he; simp only [tileSize]; omega), zero_tile]
    have hz : restores.reader 0x1000 (0x7000 + 8 * k) 8 = 0 := by
      show leNat (Memory.bytes ctxImage (0x1000 + (0x7000 + 8 * k)) 8) = 0
      rw [bytes_clear ctxImage 8 _ (fun e he => by have := ctxImage_places e he; omega)]
      decide
    rw [hz]
    decide
  rw [if_neg h.2, if_pos h.1]

/-- The lanes of a restore under way: a plan core whose 32 records are zero, in a section at offset 0 of empty memory. -/
theorem test_restore_lanes :
    (([⟨0, 0, 0, 0, 0⟩] : List PlanCore).map (fun c => c.core)).Nodup ∧
    (let d := planIn 2 { plan := some { cores := [⟨0, 0, 0, 0, 0⟩] }, restoring := some 0x1000 }
     ∀ l, l < 32 → d.reader 0x1000 ((ctxSect (d.reader 0x1000) 1).lo + 32 * l + 24) 6 = d.reader 0x1000 ((ctxSect (d.reader 0x1000) 1).lo + 32 * l + 16) 6) := by
  decide +kernel

/-- The ports that command in these states reach their partitions, dies and cores. -/
theorem test_port_reaches : ready.servesPart 0 ∧ ready.servesDie 0 (35 / 6) ∧ ready.servesCore 0 0xB0FF ∧ (withPlan 0).servesPart 0 ∧
    (planIn 2 {}).servesPart 0 ∧ drawn.servesCore 0 0 ∧ monitored.servesPart 0 ∧ restores.servesPart 0 := by
  unfold Dev.servesPart Dev.servesDie Dev.servesCore Dev.serves; decide +kernel

/-! ### The fabric and messages -/

/-- A control flit from its 64 bytes as a number, with a CRC. -/
def control (n crc : Nat) : Flit := BitVec.ofNat 544 (n + crc * 2 ^ 512)

/-- The CRC of a flit from the register after each quarter of its bytes. -/
theorem crc_quarters {n crc : Nat} {c1 c2 c3 c4 : BitVec 32} (hb : (flitBytes (control n crc)).take 64 = leBytes 64 n)
    (h1 : ((leBytes 64 n).take 16).foldl crcByte 0xFFFFFFFF#32 = c1) (h2 : (((leBytes 64 n).drop 16).take 16).foldl crcByte c1 = c2)
    (h3 : (((leBytes 64 n).drop 32).take 16).foldl crcByte c2 = c3) (h4 : ((leBytes 64 n).drop 48).foldl crcByte c3 = c4) :
    crc32 ((flitBytes (control n crc)).take 64) = (~~~ c4).toNat := by
  have hl : leBytes 64 n = (leBytes 64 n).take 16 ++ (((leBytes 64 n).drop 16).take 16 ++ (((leBytes 64 n).drop 32).take 16 ++ (leBytes 64 n).drop 48)) := by
    rw [show (leBytes 64 n).drop 48 = ((leBytes 64 n).drop 32).drop 16 by rw [List.drop_drop], List.take_append_drop,
      show (leBytes 64 n).drop 32 = ((leBytes 64 n).drop 16).drop 16 by rw [List.drop_drop], List.take_append_drop, List.take_append_drop]
  unfold crc32
  rw [hb, hl, List.foldl_append, List.foldl_append, List.foldl_append, h1, h2, h3, h4]

/-- A LINK flit that returns 65,535 credits on VC 3 (R353); a HEAD of SEQ 4,095 on VC 1 with a tile (R352); a DISC that has seen ours, from port 35
of die 5 of a peer; a PROBE; and an ECHO (R371, R372). -/
def link : Flit := control (0x3C + 0x100 + 0xFFFF * 2 ^ 112) 0xC7B7852E
def head : Flit := control (0x3C + 0x200 + 4095 * 2 ^ 16 + 1 * 2 ^ 88 + 64 * 2 ^ 96) 0x3DF84307
def disc : Flit := control (0x3C + 0x400 + 0x123456789 * 2 ^ 64 + 5 * 2 ^ 128 + 35 * 2 ^ 136 + 1 * 2 ^ 144) 0xCE33B77
def probe : Flit := control (0x3C + 0x500 + 1000 * 2 ^ 64) 0xA1E673A2
def echo : Flit := control (0x3C + 0x600 + 1000 * 2 ^ 64 + 3000 * 2 ^ 128 + 3500 * 2 ^ 192) 0xABDB1298

/-- The first and the last data flit of a packet on VC 1 (R353). -/
def dataFirst : Flit := BitVec.ofNat 544 (0xC3 + 0x100 + 254 * 2 ^ 16)
def dataLast : Flit := BitVec.ofNat 544 (0xC3 + 0x500 + 250 * 2 ^ 16)

theorem test_link_crc : flitCrcOk link = true := by
  unfold flitCrcOk link
  rw [crc_quarters (c1 := 0x42A3EB96#32) (c2 := 0xD4A13F29#32) (c3 := 0xE82A1953#32) (c4 := 0x38487AD1#32) (by decide +kernel) (by decide +kernel)
    (by decide +kernel) (by decide +kernel) (by decide +kernel)]
  decide +kernel

theorem test_head_crc : flitCrcOk head = true := by
  unfold flitCrcOk head
  rw [crc_quarters (c1 := 0x5374DFF9#32) (c2 := 0x8DF5E0C6#32) (c3 := 0x2752B011#32) (c4 := 0xC207BCF8#32) (by decide +kernel) (by decide +kernel)
    (by decide +kernel) (by decide +kernel) (by decide +kernel)]
  decide +kernel

theorem test_disc_crc : flitCrcOk disc = true := by
  unfold flitCrcOk disc
  rw [crc_quarters (c1 := 0xAC2F0216#32) (c2 := 0x7180955B#32) (c3 := 0x4FF17845#32) (c4 := 0xF31CC488#32) (by decide +kernel) (by decide +kernel)
    (by decide +kernel) (by decide +kernel) (by decide +kernel)]
  decide +kernel

theorem test_probe_crc : flitCrcOk probe = true := by
  unfold flitCrcOk probe
  rw [crc_quarters (c1 := 0x1724B843#32) (c2 := 0x57A388A4#32) (c3 := 0x587265FA#32) (c4 := 0x5E198C5D#32) (by decide +kernel) (by decide +kernel)
    (by decide +kernel) (by decide +kernel) (by decide +kernel)]
  decide +kernel

theorem test_echo_crc : flitCrcOk echo = true := by
  unfold flitCrcOk echo
  rw [crc_quarters (c1 := 0x659D23A#32) (c2 := 0xD8BCB372#32) (c3 := 0x3A285619#32) (c4 := 0x5424ED67#32) (by decide +kernel) (by decide +kernel)
    (by decide +kernel) (by decide +kernel) (by decide +kernel)]
  decide +kernel

/-- A CHAIN flit that carries the symbol of count 1 with 95 units of delay. -/
def chainFlit : Flit := control (0x3C + 0x300 + (1 + 95 * 2 ^ 64) * 2 ^ 64) 0x945134E4

theorem chain_crc : flitCrcOk chainFlit = true := by
  unfold flitCrcOk chainFlit
  rw [crc_quarters (c1 := 0x98A94866#32) (c2 := 0x873EC41D#32) (c3 := 0x5C39A019#32) (c4 := 0x6BAECB1B#32) (by decide +kernel) (by decide +kernel)
    (by decide +kernel) (by decide +kernel) (by decide +kernel)]
  decide +kernel

/-- The chain of `chained 2` with port 0 UP: the flit acknowledges nothing, and its symbol is one that `test_chain_states` answers for. -/
theorem test_chain_flit : flitNum chainFlit 0 1 = 0x3C ∧ flitNum chainFlit 1 1 = 3 ∧ flitNum chainFlit 8 16 = (symbol 95).toNat ∧
    (let d := (chained 2 { inForce := true, lastBeat := -1024 }).setFld Fld.FAB_PORT_STAT_LINK 0 2
     d.fabAwake 0 = true ∧ d.fabFlit 0 chainFlit = d ∧ d.chainOn = true ∧ d.inputDelay 0 = some 5 ∧ d.symbolOk (symbol 95).toNat = true ∧
       d.dupCount 1 = false ∧ d.oldCount 1 = false ∧ 2 ≤ d.chnState ∧ d.expectedCount 0 = (1, true)) := by
  refine ⟨by decide +kernel, by decide +kernel, by decide +kernel, ?_⟩
  refine ⟨by decide +kernel, ?_, by decide +kernel, by decide +kernel, by decide +kernel, by decide +kernel, by decide +kernel, by decide +kernel,
    by decide +kernel⟩
  have h0 : flitNum chainFlit 0 1 = 0x3C := by decide +kernel
  have h1 : flitNum chainFlit 1 1 = 3 := by decide +kernel
  have h2 : (flitNum chainFlit 4 2).testBit 15 = false := by decide +kernel
  unfold Dev.fabFlit
  rw [chain_crc, h0, h1]
  simp only [Dev.fabAck, h2]
  decide +kernel

theorem test_flits :
    (flitNum link 0 1 = 0x3C ∧ flitNum link 1 1 = 1 ∧ (flitNum link 16 1).testBit 0 = false ∧ (flitNum link 4 2).testBit 15 = false) ∧
    (flitNum head 0 1 = 0x3C ∧ flitNum head 1 1 = 2 ∧ (flitNum head 4 2).testBit 15 = false ∧ flitNum head 2 2 % 4096 = 4095 ∧ flitNum head 12 1 % 128 = 64 ∧
      flitNum head 11 1 % 4 = 1) ∧
    (flitNum dataFirst 0 1 = 0xC3 ∧ flitNum dataFirst 2 1 = 255 - flitNum dataFirst 1 1 ∧ flitNum dataFirst 1 1 < 8 ∧ (flitNum dataFirst 1 1).testBit 2 = false) ∧
    (flitNum dataLast 0 1 = 0xC3 ∧ flitNum dataLast 2 1 = 255 - flitNum dataLast 1 1 ∧ (flitNum dataLast 1 1).testBit 2 = true) := by decide +kernel

/-- The LINK flit with another CRC is a link error. -/
def broken : Flit := control (0x3C + 0x100 + 0xFFFF * 2 ^ 112) 0

theorem test_bad_crc : flitNum broken 0 1 = 0x3C ∧ flitCrcOk broken = false := by
  refine ⟨by decide +kernel, ?_⟩
  unfold flitCrcOk broken
  rw [crc_quarters (c1 := 0x42A3EB96#32) (c2 := 0xD4A13F29#32) (c3 := 0xE82A1953#32) (c4 := 0x38487AD1#32) (by decide +kernel) (by decide +kernel)
    (by decide +kernel) (by decide +kernel) (by decide +kernel)]
  decide +kernel

/-- A fabric port in a link state, with what `x` says of it. -/
def fabIn (q lk : Nat) (x : FabPortSt) : Dev := ((ready.setFld Fld.FAB_PORT_STAT_LINK q lk).setFab q x)

/-- A packet, and a HEAD open on VC 1. -/
def packet : Packet := ⟨0, 1, 1, 0, 0, zeros 40, none⟩
def opened : OpenPkt := ⟨4095, { packet with tile := none }, zeros 4032, false⟩

theorem test_link_states :
    (fabIn 35 2 { link := { nextHead := 4095, lastSeq := some 4094 } }).fld Fld.FAB_PORT_STAT_LINK 35 = 2 ∧
    (let l := ((fabIn 35 2 { link := { nextHead := 4095, lastSeq := some 4094, opened := [(1, some opened)] } }).fabPort 35).link
     l.discarding = false ∧ l.skipping = [] ∧ SMap.read none l.opened 1 = some opened ∧ opened.got.length + 64 = tileSize ∧ opened.seq = l.expected ∧ l.whole = []) ∧
    ({ opened with got := zeros 3968 } : OpenPkt).got.length + 64 ≠ tileSize ∧ SMap.read none ([] : SMap (Option OpenPkt)) 1 = none ∧
    (let l : Link Packet := { queue := [⟨1, 36, packet, 0, false⟩], nextSeq := 4095, resends := 7, replay := [⟨4094, packet, 0, false⟩] }
     (l.vcOrder.filterMap (fun v => (l.nextOf v).filter (l.maySend v))).head? = some ⟨1, 36, packet, 0, false⟩ ∧ l.queue.find? (fun y => y.vc == (1#2).toNat) = some ⟨1, 36, packet, 0, false⟩ ∧
       l.replay ≠ [] ∧ l.resends < 8) ∧
    ((fabIn 35 2 {}).setFld Fld.FAB_PORT_STAT_PLAN 35 planMatch).fld Fld.FAB_PORT_STAT_PLAN 35 = planMatch ∧
    (fabIn 35 2 {}).fld Fld.FAB_PORT_STAT_PLAN 35 ≠ planMatch ∧ 8 ≤ ({ resends := 8 } : Link Packet).resends ∧
    (({ discarding := true, nakHeld := true } : Link Packet).discarding && ({ discarding := true, nakHeld := true } : Link Packet).nakHeld) = true := by
  decide +kernel

theorem test_training :
    (flitNum disc 0 1 = 0x3C ∧ flitNum disc 1 1 = 4 ∧ (flitNum disc 4 2).testBit 15 = false ∧ (flitNum disc 18 1).testBit 0 = true) ∧
    (flitNum probe 0 1 = 0x3C ∧ flitNum probe 1 1 = 5 ∧ (flitNum probe 4 2).testBit 15 = false) ∧
    (flitNum echo 0 1 = 0x3C ∧ flitNum echo 1 1 = 6 ∧ (flitNum echo 4 2).testBit 15 = false) ∧
    (fabIn 35 0 { signal := true }).fabPowered 35 = true ∧ (fabIn 35 0 {}).fld Fld.FAB_PORT_STAT_LINK 35 = 0 ∧ (fabIn 35 0 {}).flag Fld.FAB_PORT_CTL_EN 35 = true ∧
    (fabIn 35 1 { stage := 3, trips := List.replicate 63 500 }).fld Fld.FAB_PORT_STAT_LINK 35 = 1 ∧ (List.replicate 63 (500 : Int)).length = 63 ∧
    ((fabIn 35 1 { stage := 1 }).fabPort 35).stage = 1 ∧ ((fabIn 35 1 { stage := 2 }).fabPort 35).link.discarding = false := by decide +kernel

theorem test_fabric_commands :
    (planIn 2 { plan := some {} }).flag Fld.FAB_STAT_BUSY 0 = false ∧ 35 ∈ (fabIn 35 3 { signal := true }).portsOf 0 ∧
    ((fabIn 35 3 { signal := true }).fabPowered 35 = true ∧ ((fabIn 35 3 { signal := true }).fabPort 35).signal = true) ∧
    (planIn 2 {}).fld Fld.CTX_STAT_STATE 0 ≠ 1 ∧ (planIn 2 {}).fld Fld.CTX_DSTAT_STATE 0 ≠ 1 ∧ (0x1000 : Nat).testBit 52 = false ∧
    (planIn 2 {}).flag Fld.PLAN_CTL_REQUIRE_SIGNED 0 = false ∧ (planIn 2 {}).tilesInHbm 0 0x1000 1 = true ∧
    leNat (Memory.bytes (planIn 2 {}).mem (0x1000 + 4) 4) = 0 ∧
    parseFabric (Memory.bytes (planIn 2 {}).mem 0x1000 (640 + 8 * 0)) ((planIn 2 {}).diesOf 0) = some ⟨0, List.replicate 36 {}, []⟩ ∧
    ready.partOf (35 / 6) = 0 ∧ ready.partOf 0 = 0 ∧ ready.planState 0 ≠ 3 := by decide +kernel

theorem test_fabric_revision : ∀ b ∈ (Memory.bytes (planIn 2 {}).mem 0x1000 (1 * tileSize)).drop (640 + 8 * 0), b = 0 := by
  intro b hb
  have h := List.mem_of_mem_drop hb
  rw [bytes_clear] at h
  · exact List.eq_of_mem_replicate h
  · intro e he; cases he

/-- Partition 0 in a step of a scope with a parent in pod 2 and a child in pod 1; rank 0 of group 5, whose rank 1 is in pod 3. -/
def scope : Groups :=
  { scopeId := 9, total := 3, parentPod := 2, children := [⟨1, 0, 0, 0xFFFF⟩], groups := [⟨5, 0, 2, 0, 7, 0, [(0, 0, 0, 0), (0, 3, 0, 0)], [0], []⟩] }

def inScope (x : Part) : Dev := planIn 3 { x with plan := some { groups := scope }, stepping := true }

/-- A message of a type for group 5 by rank 1, of SEQs 7 to 7, from byte 24 of its HEAD on (R394). -/
def message (type : Nat) : BitVec 320 := BitVec.ofNat 320 (type + 5 * 2 ^ 16 + 1 * 2 ^ 32 + 7 * 2 ^ 128 + 7 * 2 ^ 160 + 9 * 2 ^ 192)

theorem test_messages :
    (let a := leBytes 40 (message 1).toNat
     areaNum a 26 2 = 5 ∧ areaNum a 28 2 = 1 ∧ areaNum a 24 1 = 1 ∧ areaNum a 48 4 = scope.scopeId ∧ areaNum a 32 5 = (inScope {}).step 0 ∧ areaNum a 25 1 % 8 = 0) ∧
    (inScope {}).groups 0 = scope ∧ scope.find 5 = some (0, scope.groups.getD 0 ⟨0, 0, 0, 0, 0, 0, [], [], []⟩) ∧
    (scope.groups.getD 0 ⟨0, 0, 0, 0, 0, 0, [], [], []⟩).isMember 1 3 0 = true ∧ (scope.groups.getD 0 ⟨0, 0, 0, 0, 0, 0, [], [], []⟩).rank = 0 ∧
    (({} : Part).retracted false 5 1 7 7).2 = false ∧ (({ usedSeqs := [⟨5, 1, 7, 7⟩] } : Part).retracted false 5 1 7 7).2 = true ∧
    areaNum (leBytes 40 (message 2).toNat) 24 1 = 2 ∧ (inScope {}).partOf 0 = 0 ∧ (inScope { flip := 4 }).flipped 0 = false := by decide +kernel

/-- The sender's bytes of a scope tile of this scope at step 0, and a tile of a type whose other bytes are zero. -/
def sender : BitVec 256 := BitVec.ofNat 256 (9 * 2 ^ 128)
def tileOf (type : Nat) : List Byte := leBytes 1 type ++ List.replicate 4095 0

theorem test_scope_tiles :
    (let a := leBytes 8 0 ++ leBytes 32 sender.toNat; areaNum a 48 4 = scope.scopeId ∧ areaNum a 32 5 = 0 ∧ areaNum a 37 1 % 8 = 0) ∧
    leNat ((tileOf 4).take 1) = 4 ∧ scope.child 1 0 = some 0 ∧ (∀ y ∈ ((inScope {}).part 0).votes, y.1 ≠ 0) ∧ ((inScope {}).part 0).sentUp = false ∧
    (scope.root = false ∧ 2 = scope.parentPod ∧ 0 = scope.parentPart) ∧ ((inScope {}).part 0).decision = none ∧ ((inScope {}).part 0).holding = false ∧
    0 ∉ ((inScope {}).part 0).dones ∧ ((inScope {}).part 0).allDone = none ∧ (inScope {}).step 0 = 0 ∧
    (inScope {}).beatOffset 0 = scope.upDeadline ∧ ((inScope {}).setReg .CHN_COUNT 0 1).beatOffset 0 ≠ scope.upDeadline ∧
    ({ scope with root := true } : Groups).root = true ∧ ((inScope { voteFired := true }).part 0).voteFired = true := by decide +kernel

/-! ### Host links -/

/-- Host port 0 in a link state, with what `x` says of it. -/
def hostIn (lk : Nat) (x : HostPortSt) : Dev := (ready.setFld Fld.HLK_PSTAT_LINK 0 lk).setHost 0 x

/-- A packet that waits for its release. -/
def unreleased : Link HPkt := { nextSeq := 1, replay := [⟨0, { op := 2 }, 0, false⟩] }

/-- A read of queue 3's next entry, and the queue of partition 0 that waits for it. -/
def read3 : HRead := { tag := 5, part := 0, queue := 3, entry := 0, tile := none }
def asking : Dev := (hostIn 2 { reads := [read3] }).setFld Fld.HLK_Q_CFG_EN (qIdx 0 3) 1

theorem test_host_links :
    ((hostIn 2 {}).fld Fld.HLK_PSTAT_LINK 0 = 2 ∧ ((hostIn 2 {}).hostPort 0).link.queue = [] ∧ ((hostIn 2 {}).hostPort 0).link.discarding = false) ∧
    (((hostIn 2 { link := unreleased }).hostPort 0).link.replay ≠ [] ∧ ((hostIn 2 { link := unreleased }).hostPort 0).link.resends < 8) ∧
    8 ≤ ((hostIn 2 { link := { unreleased with resends := 8 } }).hostPort 0).link.resends ∧
    (({ discarding := true, nakHeld := true } : Link HPkt).discarding && ({ discarding := true, nakHeld := true } : Link HPkt).nakHeld) = true ∧
    (∀ p < 6, ((hostIn 2 {}).part p).drain = none) ∧ (hostIn 3 {}).fld Fld.HLK_PSTAT_LINK 0 = 3 ∧ (hostIn 3 {}).hostPowered 0 = true ∧
    (hostIn 1 {}).fld Fld.HLK_PSTAT_LINK 0 = 1 ∧ (hostIn 1 {}).hostPowered 0 = true ∧
    (asking.hostPort 0).reads.find? (fun r => r.tag == (5#12).toNat) = some read3 ∧ asking.flag Fld.HLK_Q_CFG_EN (qIdx 0 3) = true := by decide +kernel

/-- A replay that is dropped brings the port back to empty (R420): no port of this state takes a drain. -/
theorem test_no_drain (p : Nat) (d : Drain) (h : ((hostIn 2 {}).part p).drain = some d) : 0 ∉ d.ports := by
  have : (hostIn 2 {}).part p = {} := by unfold Dev.part; rfl
  rw [this] at h
  cases h

/-! ### Requests of hosts -/

/-- A host's copy of tiles into the module: the tile asked for is the second of an entry (R429). -/
def copyIn : QEntry := { idx := 3, op := 1, irq := false, order := false, haddr := 0x10000, daddr := 0x2000, tiles := 2, user := 7, bad := false, moved := 1 }
def readTile : HRead := { tag := 5, part := 0, queue := 3, entry := 3, tile := some 1 }
def copies : Dev := (hostIn 2 { reads := [readTile] }).setQueue 0 3 { started := [copyIn] }

theorem test_host_requests :
    ready.serves 0 ∧ ready.power ≤ 1 ∧ (ready.hostPort 0).whole = [] ∧ (ready.hostPort 0).link.expected = (ready.hostPort 0).link.nextHead ∧
    (ready.hostPort 0).link.queue = [] ∧ (ready.hostPort 0).link.replay = [] ∧ 65 ≤ (ready.hostPort 0).credit 3 ∧
    (reqMalformed 0xF00001000 4096 = false ∧ isCtl 0xF00001000 = false ∧ ready.memServed 0 0xF00001000 4096 = true ∧ ready.payloadTile 0 0xF00001000 = true) ∧
    (reqMalformed 0xF00001FF8 8 = false ∧ ready.memServed 0 0xF00001FF8 8 = true ∧ ready.payloadTile 0 (0xF00001FF8 / tileSize * tileSize) = true) ∧
    (let a := ctlBase + 5 * ctlSize + 0x380008
     reqMalformed a 8 = false ∧ isCtl a = true ∧ ctlPlace a = .die 5 0x380008 ∧ regAt .die 0x380008 = some (.HLK_PSTAT, 0) ∧ .HLK_PSTAT ∈ bootRegs ∧ ready.partOf 5 = ready.partOf 0) ∧
    (asking.serves 0 ∧ (asking.hostPort 0).whole = [] ∧ (asking.hostPort 0).link.expected = (asking.hostPort 0).link.nextHead ∧ read3.tile = none) ∧
    (copies.serves 0 ∧ (copies.hostPort 0).reads.find? (fun r => r.tag == (5#12).toNat) = some readTile ∧ readTile.tile = some 1 ∧
      (copies.queue 0 3).started.find? (fun e => e.idx == 3 && e.moved == 1 && e.ended.isNone) = some copyIn ∧
      copies.payloadTile 0 (copyIn.daddr + 1 * tileSize) = true ∧ (List.replicate 4096 (0 : Byte)).length = tileSize) ∧
    (0x2000000001000 % 8 = 0 ∧ isCtl 0x2000000380100 = true ∧ ready.ctlServed 0 (ctlPlace 0x2000000380100) = true ∧ ready.reaches 0 5 = true ∧ ready.reaches 0 0 = true ∧
      copies.reaches 0 (addrDie (copyIn.daddr + 1 * tileSize)) = true) := by
  unfold Dev.serves; decide +kernel

/-! ### Copy queues -/

/-- Queue 3 of partition 0 enabled with 16 entries, its HEAD at 1 and its tail at `tail`, or not; with what it holds. -/
def queueIn (en : Nat) (y : Queue) : Dev :=
  ((((hostIn 2 {}).setFld Fld.HLK_Q_CFG_EN (qIdx 0 3) en).setFld Fld.HLK_Q_CFG_LOG2 (qIdx 0 3) 4).setFld Fld.HLK_Q_STAT_HEAD (qIdx 0 3) 1).setQueue 0 3 y

/-- A doorbell to the last entry of the ring; to one before the tail, past the HEAD; and outside the ring. -/
theorem test_doorbells :
    (let s := queueIn 1 { tail := 4 }
     s.servesPart 0 ∧ s.queuesRun = true ∧ s.flag Fld.HLK_Q_CFG_EN (qIdx 0 3) = true ∧ 0 ≠ (s.queue 0 3).tail ∧ s.qSize 0 3 = 16 ∧ s.qHead 0 3 = 1 ∧ 0 < s.qSize 0 3 ∧
       ((s.queue 0 3).tail + s.qSize 0 3 - s.qHead 0 3) % s.qSize 0 3 ≤ (0 + s.qSize 0 3 - s.qHead 0 3) % s.qSize 0 3 ∧
       (3 + s.qSize 0 3 - s.qHead 0 3) % s.qSize 0 3 < ((s.queue 0 3).tail + s.qSize 0 3 - s.qHead 0 3) % s.qSize 0 3 ∧ s.qSize 0 3 ≤ 16 ∧
       s.portServes 0 (s.qPort 0 3) = true ∧ s.fld Fld.HLK_PSTAT_LINK (s.qPort 0 3) = 2 ∧ s.power ≤ pwrIdle ∧ s.qHead 0 3 ≠ 0) ∧
    ((queueIn 0 {}).servesPart 0 ∧ (queueIn 0 {}).flag Fld.HLK_Q_CFG_EN (qIdx 0 3) = false ∧ (queueIn 0 {}).flag Fld.HLK_Q_STAT_BUSY (qIdx 0 3) = false) := by
  unfold Dev.servesPart Dev.serves; decide +kernel

/-- The last entry of the ring, good, bad, past the window's end, and ended; a copy out; and a fence. -/
def entry (op : Nat) (daddr : Nat) (bad : Bool) (ended : Option (Nat × Nat)) : QEntry :=
  { idx := 15, op := op, irq := true, order := true, haddr := 0x10000, daddr := daddr, tiles := 1, user := 7, bad := bad, ended := ended }

theorem test_entries :
    (let e := entry 1 0xF00001000 false none
     let s := queueIn 1 { fetched := [e] }
     (s.queue 0 3).fetched = [e] ∧ s.flag Fld.HLK_Q_CFG_EN (qIdx 0 3) = true ∧ (s.queue 0 3).started.length < 4 ∧ s.queuesRun = true ∧
       (∀ x ∈ (s.queue 0 3).started, x.ended.isSome = true) ∧ e.bad = false ∧ (∀ a ∈ e.tileAddrs, s.entryMapped 0 (s.qPort 0 3) a = true ∧ s.payloadTile 0 a = true) ∧ e.op = 1) ∧
    (entry 1 0 true none).bad = true ∧ (∃ a ∈ (entry 1 0xF00000000000 false none).tileAddrs, (queueIn 1 {}).entryMapped 0 ((queueIn 1 {}).qPort 0 3) a = false) ∧
    (let e := entry 1 (strideAddr 0 0x100000) false none
     (∀ a ∈ e.tileAddrs, (queueIn 1 {}).entryMapped 0 ((queueIn 1 {}).qPort 0 3) a = true) ∧ ∃ a ∈ e.tileAddrs, (queueIn 1 {}).payloadTile 0 a = false) ∧
    (let e := entry 2 0x2000 false none
     let s := queueIn 0 { started := [e] }
     (s.queue 0 3).started = [e] ∧ s.fld Fld.HLK_PSTAT_LINK (s.qPort 0 3) = 2 ∧ e.ended = none ∧ e.op = 2 ∧ s.power ≤ pwrIdle ∧
       (∀ a ∈ e.tileAddrs, s.reaches (s.qPort 0 3) (addrDie a) = true) ∧ s.primary 0 = some 0 ∧ s.fld Fld.HLK_PSTAT_LINK 0 = 2 ∧ e.idx + 1 = s.qSize 0 3) ∧
    (entry 3 0 false none).op = 3 ∧ (entry 1 0 false (some (2, 0x1509))).ended = some (2, 0x1509) := by decide +kernel

/-! ### The owner -/

/-- The state with one owner key in flash, the neutral point, and a claim by port 0 that names a KEYID, its signature the same point and zero. -/
def keyed (v : Nat) : State :=
  let f : Flash := { State.reset.flash with keysA := ⟨true, [(1, 1)]⟩, keysB := ⟨true, [(1, 1)]⟩ }
  { State.reset with flash := f
                     dev := { (ready.setReg .HLK_CLAIM 1 1).setReg .HLK_CLAIM 0 v with sec := { ready.sec with claim := some 0 } } }

theorem sec_reg (d : Dev) (x : Security) (k : RegKind) (i : Nat) : ({ d with sec := x } : Dev).reg k i = d.reg k i := rfl

theorem keyed_claim (v : Nat) (h : v < 2 ^ 64) : (keyed v).dev.reg .HLK_CLAIM 0 = v ∧ (keyed v).dev.reg .HLK_CLAIM 1 = 1 ∧
    ∀ j, j ≠ 0 → j ≠ 1 → j < 16 → (keyed v).dev.reg .HLK_CLAIM j = 0 := by
  have e (k : RegKind) (i : Nat) : (keyed v).dev.reg k i = ((ready.setReg .HLK_CLAIM 1 1).setReg .HLK_CLAIM 0 v).reg k i := by unfold keyed; rw [sec_reg]
  refine ⟨?_, ?_, fun j h0 h1 hj => ?_⟩
  · rw [e, Dev.reg_setReg_self, Nat.mod_eq_of_lt h]
  · rw [e, Dev.reg_setReg_ne _ _ _ _ _ _ (by decide), Dev.reg_setReg_self]
    rfl
  · rw [e, Dev.reg_setReg_ne _ _ _ _ _ _ (by simp; omega), Dev.reg_setReg_ne _ _ _ _ _ _ (by simp; omega)]
    have : ∀ j < 16, ready.reg .HLK_CLAIM j = 0 := by decide +kernel
    exact this j hj

theorem keyed_keys (v : Nat) : (keyed v).flash.keys 1 = [1] ∧ (keyed v).dev.sec.claim = some 0 := ⟨by rfl, rfl⟩

theorem test_no_owner_key : State.reset.flash.keys 1 = [] ∧ ready.fld Fld.HLK_PSTAT_LINK 0 = 2 ∧ ready.fld Fld.HLK_PSTAT_ROLE 0 ≠ 0 ∧ ready.fld Fld.CTL_BOOT_STAGE 0 = 6 ∧
    ready.flag Fld.HLK_OWNSTAT_CLBUSY 0 = false := by decide +kernel

theorem keyId_lt (k : Nat) : keyId k < 2 ^ 64 := by
  have h := leNat_lt ((shake256 (leBytes 57 k)).take 8)
  have : (256 : Nat) ^ ((shake256 (leBytes 57 k)).take 8).length ≤ 256 ^ 8 := Nat.pow_le_pow_right (by decide) (List.length_take_le _ _)
  unfold keyId
  omega

theorem times_neutral (ns : List Bool) : Ed448.neutral.times ns = Ed448.neutral := by
  have h : Ed448.neutral.add Ed448.neutral = Ed448.neutral := by decide +kernel
  unfold Ed448.Point.times
  induction ns with
  | nil => rfl
  | cons b ns ih => cases b <;> simpa [List.foldl_cons, h] using ih

theorem after_eq {α : Type} (n : Nat) (f : Nat → α) : Ed448.after n f = f n := by cases n <;> rfl

/-- Under the neutral point as key, that point with zero signs whatever is said: the equation of RFC 8032 with each of its terms neutral. -/
theorem neutral_signs (context : String) (msg : List Byte) : Ed448.verify 1 context msg (leBytes 57 1 ++ List.replicate 57 0) = true := by
  have h1 : Ed448.decodePoint 1 = some Ed448.neutral := by decide +kernel
  have h2 : Ed448.decodePoint (leNat ((leBytes 57 1 ++ List.replicate 57 0).take 57)) = some Ed448.neutral := by decide +kernel
  have h3 : leNat (((leBytes 57 1 ++ List.replicate 57 (0 : Byte)).drop 57).take 57) = 0 := by decide +kernel
  have h4 : (leBytes 57 1 ++ List.replicate 57 (0 : Byte)).length = 114 := by decide
  have h5 : Ed448.base.times (Ed448.bitsDown 446 0) = Ed448.neutral := by decide +kernel
  have h6 : Ed448.neutral.add Ed448.neutral = Ed448.neutral := by decide +kernel
  have h7 : (0 : Nat) < Ed448.order := by decide +kernel
  unfold Ed448.verify
  simp only [h1, h2, h3, h4, h5, h6, h7, after_eq, times_neutral, decide_true, Bool.true_and]
  decide +kernel

theorem test_claim_names_key : let s := keyed (keyId 1)
    let claim := (List.range 16).flatMap (fun j => leBytes 8 (s.dev.reg .HLK_CLAIM (16 * 0 + j)));
    (∀ b ∈ claim.drop 122, b = 0) ∧ ∃ k ∈ s.flash.keys 1, keyId k = leNat (claim.take 8) ∧
      ∀ msg, Ed448.verify k "FENRAM-TX4-OWNR" msg ((claim.drop 8).take 114) = true := by
  obtain ⟨h1, h2, h3⟩ := keyed_claim (keyId 1) (keyId_lt 1)
  intro s claim
  have hc : claim = leBytes 8 (keyId 1) ++ (leBytes 57 1 ++ List.replicate 57 0 ++ List.replicate 6 0) := by
    have : claim = [s.dev.reg .HLK_CLAIM 0, s.dev.reg .HLK_CLAIM 1, s.dev.reg .HLK_CLAIM 2, s.dev.reg .HLK_CLAIM 3, s.dev.reg .HLK_CLAIM 4,
      s.dev.reg .HLK_CLAIM 5, s.dev.reg .HLK_CLAIM 6, s.dev.reg .HLK_CLAIM 7, s.dev.reg .HLK_CLAIM 8, s.dev.reg .HLK_CLAIM 9, s.dev.reg .HLK_CLAIM 10,
      s.dev.reg .HLK_CLAIM 11, s.dev.reg .HLK_CLAIM 12, s.dev.reg .HLK_CLAIM 13, s.dev.reg .HLK_CLAIM 14, s.dev.reg .HLK_CLAIM 15].flatMap (leBytes 8) := rfl
    rw [this, h1, h2, h3 2 (by decide) (by decide) (by decide), h3 3 (by decide) (by decide) (by decide), h3 4 (by decide) (by decide) (by decide),
      h3 5 (by decide) (by decide) (by decide), h3 6 (by decide) (by decide) (by decide), h3 7 (by decide) (by decide) (by decide),
      h3 8 (by decide) (by decide) (by decide), h3 9 (by decide) (by decide) (by decide), h3 10 (by decide) (by decide) (by decide),
      h3 11 (by decide) (by decide) (by decide), h3 12 (by decide) (by decide) (by decide), h3 13 (by decide) (by decide) (by decide),
      h3 14 (by decide) (by decide) (by decide), h3 15 (by decide) (by decide) (by decide), List.flatMap_cons]
    congr 1
  have hl : (leBytes 8 (keyId 1)).length = 8 := by simp [leBytes]
  have h8 : claim.take 8 = leBytes 8 (keyId 1) := by rw [hc, List.take_left' hl]
  have h9 : claim.drop 8 = leBytes 57 1 ++ List.replicate 57 0 ++ List.replicate 6 0 := by rw [hc, List.drop_left' hl]
  refine ⟨?_, 1, by rw [(keyed_keys _).1]; simp, ?_, fun msg => ?_⟩
  · rw [show (122 : Nat) = 8 + 114 by rfl, ← List.drop_drop, h9]
    decide
  · rw [h8]
    exact (leNat_leBytes 8 _ (keyId_lt 1)).symm
  · rw [h9]
    exact neutral_signs _ msg

/-- A claim that names none: KEYID 0 with a signature that does not hold. -/
theorem test_claim_names_none : (keyed 0).flash.keys 1 ≠ [] ∧ (keyed 0).dev.sec.claim = some 0 := by
  rw [(keyed_keys 0).1]; exact ⟨by simp, rfl⟩

/-- A value of HLK_PARTCMD: three partitions, ports 0, 1 and 2 PRIMARY, 3 AUX, 4 and 5 OFF; the same for one; and one with no PRIMARY port. -/
def three : Word := 3 + 1 * 2 ^ 4 + 1 * 2 ^ 6 + 1 * 2 ^ 8 + 2 * 2 ^ 10
def one : Word := 1 + 1 * 2 ^ 4 + 2 * 2 ^ 6 + 2 * 2 ^ 8 + 2 * 2 ^ 10

theorem test_partition_commands :
    (ready.serves 0 ∧ ready.isOwner 0 = true ∧ ready.flag Fld.HLK_PARTCFG_BUSY 0 = false ∧ ready.nparts = 1 ∧ ready.layoutFree = true ∧
      ready.rolesFree one.toNat = true) ∧
    (let n := three.toNat % 16
     let role (d : Nat) : Nat := three.toNat / 2 ^ (2 * d + 4) % 4
     n = 3 ∧ (∀ d < 6, role d ≠ 3) ∧ ∀ d < 6, ∃ e < 6, e % 3 = d % 3 ∧ role e = 1 ∧ ∀ f < 6, f % 3 = d % 3 → role f = 1 → f = e) ∧
    (let role (d : Nat) : Nat := one.toNat / 2 ^ (2 * d + 4) % 4
     one.toNat % 16 = 1 ∧ (∀ d < 6, role d ≠ 3) ∧ ∃ e < 6, role e = 1 ∧ ∀ f < 6, role f = 1 → f = e) ∧
    (ready.fenced 1 = false ∧ ¬ (1 % 3 = 0 % 3 ↔ ready.partOf 1 = ready.partOf 0)) ∧
    ((4 : Nat) % 16 ≠ 1 ∧ (4 : Nat) % 16 ≠ 2 ∧ (4 : Nat) % 16 ≠ 3 ∧ (4 : Nat) % 16 ≠ 6) ∧
    ((ready.setFld Fld.PLAN_STAT_STATE 0 2).layoutFree = false ∧ (ready.setFld Fld.HLK_Q_CFG_EN (qIdx 0 3) 1).rolesFree (3 * 2 ^ 4) = false) := by
  unfold Dev.serves; decide +kernel

/-! ### Checks, tests and flash -/

/-- An image at 0x1000 of two tiles, its signature tile with a KEYID and the neutral point's signature (R298, R299). -/
def signed (img : Memory) (v : Nat) : Memory := Memory.put img 0x2000 (leBytes 8 v ++ leBytes 57 1)

/-- The module with memory `m`, whose running firmware lists the neutral point as the bushel key. -/
def holding (m : Memory) : Dev := { ready with mem := m, sec := { ready.sec with running := some ⟨true, 3, false, 1, 1, [(1, 1)], 0, 0, []⟩ } }

/-- The signature tile and what stands before it. -/
theorem signed_before (img : Memory) (v a n : Nat) (h : a + n ≤ 0x2000) : Memory.bytes (signed img v) a n = Memory.bytes img a n :=
  Memory.bytes_congr _ _ _ _ (fun x _ h2 => Memory.byte_put_out _ _ _ _ (by omega))

theorem signed_num (img : Memory) (v o n : Nat) (h : o + n ≤ 0x1000) : (holding (signed img v)).imageNum 0x1000 o n = Memory.num img (0x1000 + o) n := by
  show Memory.num (signed img v) (0x1000 + o) n = _
  unfold Memory.num
  rw [signed_before _ _ _ _ (by omega)]

theorem signed_zero (img : Memory) (v lo hi : Nat) (h : lo ≤ hi ∧ hi ≤ 0x1000) :
    (holding (signed img v)).imageZero 0x1000 lo hi = (Memory.bytes img (0x1000 + lo) (hi - lo)).all (fun b => b == 0) := by
  show (Memory.bytes (signed img v) (0x1000 + lo) (hi - lo)).all _ = _
  rw [signed_before _ _ _ _ (by omega)]

theorem signed_tile (img : Memory) (v : Nat) (hi : ∀ e ∈ img, e.1 < 0x2000) :
    Memory.bytes (signed img v) 0x2000 tileSize = leBytes 8 v ++ (leBytes 57 1 ++ List.replicate 57 0 ++ List.replicate 3974 0) := by
  have hw : (leBytes 8 v ++ leBytes 57 1).length = 65 := by simp [leBytes_length]
  rw [show tileSize = 65 + 4031 from rfl, Memory.bytes_append, List.append_assoc (leBytes 57 1), List.replicate_append_replicate, ← List.append_assoc]
  congr 1
  · have := Memory.bytes_put img 0x2000 (leBytes 8 v ++ leBytes 57 1)
    rwa [hw] at this
  · unfold signed
    rw [Memory.bytes_congr _ img _ _ (fun x h1 _ => Memory.byte_put_out _ _ _ _ (by rw [hw]; omega)),
      bytes_clear _ _ _ (fun e he => .inl (by have := hi e he; omega))]

/-- The same in three pieces: KEYID, SIG and the zeros. -/
theorem signed_pieces (img : Memory) (v : Nat) (hi : ∀ e ∈ img, e.1 < 0x2000) : Memory.bytes (signed img v) 0x2000 8 = leBytes 8 v ∧
    Memory.bytes (signed img v) 0x2008 114 = leBytes 57 1 ++ List.replicate 57 0 ∧ Memory.bytes (signed img v) 0x207A 3974 = List.replicate 3974 0 := by
  have h := signed_tile img v hi
  rw [show tileSize = 8 + (114 + 3974) from rfl, Memory.bytes_append, Memory.bytes_append] at h
  have h1 := List.append_inj h (by simp [leBytes_length, Memory.bytes_length])
  have h2 := List.append_inj h1.2 (by simp [leBytes_length, Memory.bytes_length])
  exact ⟨h1.1, h2.1, h2.2⟩

/-- What the signature tile of a signed image holds, part by part. -/
theorem signed_parts (img : Memory) (k : Nat) (hi : ∀ e ∈ img, e.1 < 0x2000) (hl : Memory.num img 0x1010 8 = 0x2000) :
    let t := (holding (signed img (keyId k))).lastTile 0x1000
    leNat (t.take 8) = keyId k ∧ (t.drop 8).take 114 = leBytes 57 1 ++ List.replicate 57 0 ∧ (t.drop 122).all (fun b => b == 0) = true := by
  intro t
  have h8 : (leBytes 8 (keyId k)).length = 8 := leBytes_length _ _
  have e : t = leBytes 8 (keyId k) ++ (leBytes 57 1 ++ List.replicate 57 0 ++ List.replicate 3974 0) := by
    show (holding (signed img (keyId k))).lastTile 0x1000 = _
    unfold Dev.lastTile
    rw [signed_num _ _ _ _ (by decide), hl]
    exact signed_tile img _ hi
  have d : t.drop 8 = leBytes 57 1 ++ List.replicate 57 0 ++ List.replicate 3974 0 := by rw [e, List.drop_left' h8]
  have l : (leBytes 57 1 ++ List.replicate 57 (0 : Byte)).length = 114 := by decide
  refine ⟨?_, by rw [d, List.take_left' l], ?_⟩
  · rw [e, List.take_left' h8, leNat_leBytes _ _ (keyId_lt k)]
  · rw [show (122 : Nat) = 8 + 114 from rfl, ← List.drop_drop, d, List.drop_left' l]
    exact List.all_replicate.trans (by decide)

theorem signed_ok (img : Memory) (context : String) (digest : List Byte) (hi : ∀ e ∈ img, e.1 < 0x2000) (hl : Memory.num img 0x1010 8 = 0x2000) :
    sigTileOk context digest ((holding (signed img (keyId 1))).lastTile 0x1000) [1] = true := by
  obtain ⟨h1, h2, h3⟩ := signed_parts img 1 hi hl
  unfold sigTileOk
  rw [h1, h2, h3, List.any_cons, neutral_signs]
  simp

/-- A bushel of one test: one program tile, one input tile, one output whose comparison data stand at byte 128 (R467). -/
def bushelImage : Memory :=
  image 0x1000 [(0, leBytes 8 0x4C45485355425846 ++ leBytes 4 5 ++ leBytes 2 2 ++ leBytes 2 1 ++ leBytes 8 0x2000 ++ leBytes 4 1000),
    (64, leBytes 4 0 ++ leBytes 2 1 ++ zeros 6 ++ leBytes 2 0 ++ leBytes 2 1 ++ leBytes 4 0 ++ leBytes 4 128)]

theorem bushel_parses : ∃ r, (holding (signed bushelImage (keyId 1))).parseBushel 0 0x1000 = some r ∧ r.id = 5 := by
  have n0 : Memory.num bushelImage (0x1000 + 0) 8 = 0x4C45485355425846 := by decide +kernel
  have n14 : Memory.num bushelImage (0x1000 + 14) 2 = 1 := by decide +kernel
  have n16 : Memory.num bushelImage (0x1000 + 16) 8 = 0x2000 := by decide +kernel
  have n24 : Memory.num bushelImage (0x1000 + 24) 4 = 1000 := by decide +kernel
  have h1 : (holding (signed bushelImage (keyId 1))).tilesInHbm 0 0x1000 1 = true := by show ready.tilesInHbm 0 0x1000 1 = true; decide +kernel
  have h2 : (holding (signed bushelImage (keyId 1))).tilesInHbm 0 0x1000 2 = true := by show ready.tilesInHbm 0 0x1000 2 = true; decide +kernel
  have ht : (holding (signed bushelImage (keyId 1))).bushelTestOk 0x1000 1 64 = true := by
    unfold Dev.bushelTestOk
    simp (disch := omega) only [signed_num]
    decide +kernel
  have hz : (Memory.bytes (holding (signed bushelImage (keyId 1))).mem (0x1000 + 28) 36).all (fun b => b == 0) = true := by
    show (Memory.bytes (signed bushelImage (keyId 1)) (0x1000 + 28) 36).all _ = true
    rw [signed_before _ _ _ _ (by decide)]
    decide +kernel
  have hn : Memory.num bushelImage (0x1000 + 8) 4 = 5 := by decide +kernel
  have ha : (List.range 1).all (fun t => (holding (signed bushelImage (keyId 1))).bushelTestOk 0x1000 1 (64 + 32 * t)) = true := by
    rw [show List.range 1 = [0] from rfl, List.all_cons, List.all_nil, Bool.and_true]
    exact ht
  unfold Dev.parseBushel
  simp (disch := omega) only [signed_num, n0, n14, n16, n24, hn]
  exact ⟨_, if_pos ⟨by decide, h1, trivial, by decide, by decide, by decide, by decide, by decide, by decide, h2, by decide, hz, ha⟩, rfl⟩

/-- The bushel is installed from a READY module whose flash holds no valid one. -/
theorem test_bushel_installs : let s := holding (signed bushelImage (keyId 1))
    s.serves 0 ∧ s.isOwner 0 = true ∧ s.running = true ∧ (∃ r, s.parseBushel 0 0x1000 = some r ∧ r.id = 5 ∧
      sigTileOk "FENRAM-TX4-BUSH" (leBytes 64 r.digest) (s.lastTile 0x1000) (s.fwKeys 1) = true) ∧
    (∀ b ∈ s.bushelsAhead State.reset.flash, b.valid = false) := by
  obtain ⟨r, hr, hi⟩ := bushel_parses
  exact ⟨serves_ready.1, serves_ready.2, by decide, ⟨r, hr, hi, signed_ok bushelImage _ _ (by decide +kernel) (by decide +kernel)⟩, by decide⟩

/-- Firmware that lists no bushel key accepts no bushel. -/
theorem test_bushel_unsigned (context : String) (digest : List Byte) : sigTileOk context digest (zeros tileSize) [] = false := by
  unfold sigTileOk; simp

/-- A bushel that flash holds, in a newer version than the image and in an older one. -/
def inSlot (version : Nat) : Flash := { State.reset.flash with bushels := ⟨5, version, 1, 1, 0, true, []⟩ :: State.reset.flash.bushels.tail }

theorem test_bushel_versions : (ready.bushelsAhead (inSlot 3))[0]? = some ⟨5, 3, 1, 1, 0, true, []⟩ ∧ Memory.num bushelImage (0x1000 + 12) 2 = 2 ∧
    ready.parseBushel 0 0x1000 = none := by
  refine ⟨rfl, by decide +kernel, ?_⟩
  unfold Dev.parseBushel
  exact if_neg (fun h => absurd h.2.2.1 (by decide +kernel))

/-- Captures that come out in each class (R462), the retirement of a slot that is not yet asked for, and a log with records. -/
def capture (spans : List SpanEntry) : Capture :=
  { core := 0, kind := 1, event := 0x1007, slot := 0, capSlot := some 3, staging := [], banks := [], index := 0, panel := {}, spans := spans, fpc := 0
    row := 0, total := false, result := 0, operand := 0, tol := 0, chain := 0, step := 0, stream := 0 }
def diagnosing : Dev := ((ready.setFld Fld.CHK_STAT_DIAG 0 1).setFld Fld.SPR_POLICY_AUTO 0 0).setPart 0 { captures := [capture [], capture [⟨0, 0, 0, []⟩]] }

theorem test_diagnosis :
    diagnosing.settled ∧ diagnosing.flag Fld.CHK_STAT_DIAG 0 = true ∧ (diagnosing.part 0).captures[0]? = some (capture []) ∧
    (diagnosing.part 0).captures[1]? = some (capture [⟨0, 0, 0, []⟩]) ∧
    (let tail := diagnosing.replayTail (capture [⟨0, 0, 0, []⟩])
     upsetValues tail.1 [] ≠ upsetValues tail.1 [(0, 1)] ∧ diagnosing.replayPasses (capture [⟨0, 0, 0, []⟩]) tail.2 (upsetValues tail.1 []) = true) ∧
    diagnosing.fld Fld.CHK_LOGSTAT_COUNT 0 < 32 ∧ diagnosing.retired 3 = false ∧ diagnosing.retired 0 = false ∧ diagnosing.flag Fld.SPR_POLICY_AUTO 0 = false ∧
    diagnosing.spr.requests.length < 64 ∧ (∀ r ∈ diagnosing.spr.requests, r.1 ≠ 3) ∧
    (((ready.setFld Fld.HLK_PARTCFG_PARTS 0 6).setFld Fld.CHK_LOGSTAT_COUNT 5 32).partOf 5 ≠ ready.partOf 0) ∧
    (ready.setFld Fld.CHK_LOGSTAT_COUNT 5 32).partOf 5 = ready.partOf 0 := by
  refine ⟨leads_of (by decide +kernel), ?_⟩
  decide +kernel

theorem test_flash_writes (w : FlashWrite) : ({ ready with sec := { ready.sec with flashQ := [w] } } : Dev).sec.flashQ = w :: [] ∧
    2 < State.reset.flash.bushels.length ∧ (inSlot 3).bushels[0]? = some ⟨5, 3, 1, 1, 0, true, []⟩ := ⟨rfl, by decide, rfl⟩

/-- A bushel of one test, whose program is STEPEND, and whose one output tile nothing writes: its scruple is 0, which the record expects or
not (R467, R468); the zeros that end the image's tile are left out. -/
def bushel (expected : Nat) : BushelRec :=
  ⟨5, 1, 1, 1000, 0, true, [(zeros 64 ++ leBytes 4 0 ++ leBytes 2 1 ++ zeros 8 ++ leBytes 2 1 ++ leBytes 4 160 ++ leBytes 4 128 ++ leBytes 6 100 ++ zeros 34 ++
    leBytes 8 expected ++ zeros 24 ++ leBytes 8 (0x27 * 2 ^ 56), 0)]⟩

theorem test_bushel_runs : (bushel 0).firstFail = none ∧ (bushel 1).firstFail = some 0 ∧ (bushel 0).failing (some 0) = some 0 ∧
    (bushel 0).failing (some 1) = none := by decide +kernel

/-- A rolling test of slot 2 of a cluster in each of its phases, with spare 16. -/
def swap (phase : Nat) : SwapTest :=
  { die := 1, cluster := 7, core := 0x2072, tested := 2, spare := 16, step := 0, phase := phase, bushel := bushel 0, copy := [], dirty := [] }
def rolling (phase : Nat) : Dev :=
  { (if 3 ≤ phase then ready.swapMap (swap phase) else ready) with spr := { ready.spr with swaps := [swap phase] } }

theorem test_rolling_leads : ∀ ph < 6, Leads (rolling ph) [] [] [swap ph] [] ∧ Leads ((rolling ph).setFld Fld.CTL_JSTAT_SOLO 0 1) [] [] [swap ph] [] := by
  intro ph hp
  have : ∀ ph < 6, leadsB (rolling ph) [] [] [swap ph] [] = true ∧ leadsB ((rolling ph).setFld Fld.CTL_JSTAT_SOLO 0 1) [] [] [swap ph] [] = true := by
    decide +kernel
  exact ⟨leads_of (this ph hp).1, leads_of (this ph hp).2⟩

theorem test_rolling :
    (∀ ph < 6, (rolling ph).swapOf 1 7 = some (swap ph) ∧ (rolling ph).clusterOpen 1 7 [] = false) ∧ (rolling 1).step ((rolling 1).partOf 1) = 0 ∧
    (rolling 3).retired (slotId 1 7 2) = false ∧ (rolling 3).servedBy (slotId 1 7 2) = none ∧ (rolling 3).fenced 1 = false ∧ (rolling 3).isShort 1 7 = false ∧
    (rolling 3).solo = false ∧ ((rolling 3).setFld Fld.CTL_JSTAT_SOLO 0 1).solo = true ∧
    (rolling 4).planState ((rolling 4).partOf 1) ≠ 3 ∧ ((rolling 4).setFld Fld.PLAN_STAT_STATE 0 3).planState 0 = 3 ∧ (rolling 4).partOf 1 = 0 ∧
    (swap 4).core = coreId 1 7 (coreNum (swap 4).core) ∧ (swap 4).tested < 17 ∧ (swap 4).spare < 17 := by decide +kernel

/-- A test of every die under way. -/
def testing : Dev :=
  { ((ready.setFld Fld.TEST_STAT_STATE 0 2).setFld Fld.SPR_POLICY_AUTO 0 0) with sec := { ready.sec with testDies := 0x3F, testBushel := some (bushel 0) } }

theorem test_testing_settled : testing.settled := leads_of (by decide +kernel)

theorem test_device_tests :
    (ready.serves 0 ∧ ready.isOwner 0 = true ∧ (0x3F : Nat) % 64 ≠ 0 ∧ ready.fld Fld.TEST_STAT_STATE 0 ≠ 1 ∧ ready.fld Fld.TEST_STAT_STATE 0 ≠ 2 ∧
      ready.running = true ∧ ready.maskRunning 0x3F = []) ∧
    (let s := ready.setFld Fld.PLAN_STAT_STATE 0 3
     s.maskRunning 0x20 ≠ [] ∧ s.flag Fld.TEST_CTL_FORCE 0 = false ∧ (s.setFld Fld.TEST_CTL_FORCE 0 1).flag Fld.TEST_CTL_FORCE 0 = true ∧
       (s.setFld Fld.TEST_STAT_STATE 0 1).fld Fld.TEST_STAT_STATE 0 = 1) ∧
    (let s : Dev := { (ready.setFld Fld.TEST_STAT_STATE 0 1) with sec := { ready.sec with testDies := 0x3F } }
     s.fld Fld.TEST_STAT_STATE 0 = 1 ∧ s.maskRunning s.sec.testDies = [] ∧ ∀ p ∈ s.maskParts s.sec.testDies, s.fld Fld.CTX_DSTAT_STATE p ≠ 1) ∧
    (let s := testing
     let n := slotId 5 271 16
     s.fld Fld.TEST_STAT_STATE 0 = 2 ∧ s.flag Fld.CTL_JSTAT_SOLO 0 = false ∧ s.sec.testBushel = some (bushel 0) ∧ 0 < (bushel 0).ntest ∧ isSlot n = true ∧
       s.sec.testDies.testBit (slotDie n) = true ∧ s.fenced (slotDie n) = false ∧ s.retired n = false ∧ n < 2 ^ 17 ∧
       s.flag Fld.SPR_POLICY_AUTO 0 = false ∧ s.spr.requests.length < 64 ∧ ∀ r ∈ s.spr.requests, r.1 ≠ n) := by
  unfold Dev.serves; decide +kernel

/-- A retirement that waits for flash, its record acknowledged (R482); and flash that holds or does not hold the slot of a rolling test. -/
def flashing : Dev := { due true with sec := { (due true).sec with flashQ := [.retire 0] } }

theorem test_flash_retirement : Leads flashing [] [0] [] [jrec true] ∧ flashing.sec.flashQ = [.retire 0] ∧ jrec true ∈ flashing.ctl.journal ∧
    (jrec true).isOpen = true ∧ (jrec true).type = 1 ∧ (jrec true).target = 0 ∧ (jrec true).openAck = true ∧ flashing.retireReady 0 = true ∧ isSlot 0 = true := by
  refine ⟨leads_of (by decide +kernel), ?_⟩
  decide +kernel

theorem test_rolling_flash : Flash.factory.holdsRetired (slotId 1 7 2) = false ∧
    ({ Flash.factory with retireA := ⟨true, [slotId 1 7 2]⟩, retireB := ⟨true, [slotId 1 7 2]⟩ } : Flash).holdsRetired (slotId 1 7 2) = true := by decide

/-! ### Security, attestation and debug -/

/-- A firmware image of SVN 3, compatibility 2 and one key of kind 1 (R556). -/
def firmwareImage : Memory :=
  image 0x1000 [(0, leBytes 8 0x4D52494634585446 ++ leBytes 2 1 ++ leBytes 2 3 ++ zeros 4 ++ leBytes 8 0x2000 ++ leBytes 8 2 ++ leBytes 8 4 ++ leBytes 2 1),
    (64, leBytes 57 9 ++ [1])]

theorem firmware_parses (s : Dev) (v : Nat) (hm : s.mem = signed firmwareImage v) (fits : Nat → Bool) (h1 : fits 1 = true) (h2 : fits 2 = true) (hv : v < 2 ^ 64) :
    ∃ r, s.parseFirmware 0x1000 fits = some r ∧ r.svn = 3 ∧ r.compat = 2 ∧ r.signer = v ∧ r.sig = leBytes 57 1 ++ List.replicate 57 0 := by
  obtain ⟨p1, p2, p3⟩ := signed_pieces firmwareImage v (by decide +kernel)
  have zs : s.imageZero 0x1000 (0x2000 - tileSize + 122) 0x2000 = true := by
    show (Memory.bytes s.mem (0x1000 + (0x2000 - tileSize + 122)) (0x2000 - (0x2000 - tileSize + 122))).all _ = true
    rw [hm, show 0x1000 + (0x2000 - tileSize + 122) = 0x207A from rfl, show 0x2000 - (0x2000 - tileSize + 122) = 3974 from rfl, p3]
    exact List.all_replicate.trans (by decide)
  have sg : s.imageNum 0x1000 (0x2000 - tileSize) 8 = v := by
    unfold Dev.imageNum Memory.num
    rw [hm, show 0x1000 + (0x2000 - tileSize) = 0x2000 from rfl, p1, leNat_leBytes _ _ hv]
  have sb : Memory.bytes s.mem (0x1000 + (0x2000 - tileSize) + 8) 114 = leBytes 57 1 ++ List.replicate 57 0 := by
    rw [hm, show 0x1000 + (0x2000 - tileSize) + 8 = 0x2008 from rfl, p2]
  have hn (o n : Nat) (h : o + n ≤ 0x1000) : s.imageNum 0x1000 o n = Memory.num firmwareImage (0x1000 + o) n := by
    unfold Dev.imageNum
    rw [hm]
    exact signed_num _ v _ _ h
  have hz (lo hi : Nat) (h : lo ≤ hi ∧ hi ≤ 0x1000) : s.imageZero 0x1000 lo hi = (Memory.bytes firmwareImage (0x1000 + lo) (hi - lo)).all (fun b => b == 0) := by
    unfold Dev.imageZero
    rw [hm]
    exact signed_zero _ v _ _ h
  have n0 : Memory.num firmwareImage (0x1000 + 0) 8 = 0x4D52494634585446 := by decide +kernel
  have n8 : Memory.num firmwareImage (0x1000 + 8) 2 = 1 := by decide +kernel
  have n10 : Memory.num firmwareImage (0x1000 + 10) 2 = 3 := by decide +kernel
  have n12 : Memory.num firmwareImage (0x1000 + 12) 1 = 0 := by decide +kernel
  have n16 : Memory.num firmwareImage (0x1000 + 16) 8 = 0x2000 := by decide +kernel
  have n24 : Memory.num firmwareImage (0x1000 + 24) 8 = 2 := by decide +kernel
  have n40 : Memory.num firmwareImage (0x1000 + 40) 2 = 1 := by decide +kernel
  have nk : Memory.num firmwareImage (0x1000 + (64 + 64 * 0 + 57)) 1 = 1 := by decide +kernel
  have z13 : s.imageZero 0x1000 13 16 = true := by rw [hz _ _ (by decide)]; decide +kernel
  have z42 : s.imageZero 0x1000 42 64 = true := by rw [hz _ _ (by decide)]; decide +kernel
  have zk : (List.range 1).all (fun k => s.imageZero 0x1000 (64 + 64 * k + 58) (64 + 64 * k + 64)) = true := by
    rw [show List.range 1 = [0] from rfl, List.all_cons, List.all_nil, Bool.and_true, hz _ _ (by decide)]
    decide +kernel
  have ks : (s.imageKeys 0x1000 1).all (fun k => k.2 == 1 || k.2 == 2) = true := by
    unfold Dev.imageKeys
    rw [show List.range 1 = [0] from rfl, List.map_cons, List.map_nil, List.all_cons, List.all_nil, Bool.and_true, hn _ _ (by decide), hn _ _ (by decide), nk]
    rfl
  unfold Dev.parseFirmware
  simp (disch := omega) only [hn, n0, n8, n10, n12, n16, n24, n40]
  exact ⟨_, if_pos ⟨by decide, h1, trivial, trivial, by decide, by decide, z13, by decide, by decide, by decide, by decide, by decide, z42, h2, ks, zk, by decide, zs⟩, rfl, rfl, sg, sb⟩

/-- The image is accepted in READY, where it asks for a reset, and in RECOVERY, out of the recovery buffer. -/
def updating (st : Nat) : Dev := (holding (signed firmwareImage (keyId 1))).setFld Fld.CTL_BOOT_STAGE 0 st

theorem holding_running (m : Memory) : (holding m).sec.running = some ⟨true, 3, false, 1, 1, [(1, 1)], 0, 0, []⟩ := rfl

theorem test_update_accepted (st : Nat) (s : Dev) (hs : s = updating st) (fits : Nat → Bool) (h1 : fits 1 = true) (h2 : fits 2 = true) :
    let f : Flash := { State.reset.flash with romKey := 1 }
    ∃ r, s.parseFirmware 0x1000 fits = some r ∧ r.signer = keyId f.romKey ∧
      Ed448.verify f.romKey "FENRAM-TX4-FIRM" (leBytes 64 r.digest) r.sig = true ∧ f.floor ≤ r.svn ∧
      ∀ run, s.sec.running = some run → run.compat ≠ r.compat := by
    have hm : s.mem = signed firmwareImage (keyId 1) := by rw [hs]; rfl
    obtain ⟨r, hr, _, hc, hk, hg⟩ := firmware_parses s _ hm fits h1 h2 (keyId_lt 1)
    refine ⟨r, hr, hk, by rw [hg]; exact neutral_signs _ _, Nat.zero_le _, fun run hrun => ?_⟩
    have : s.sec.running = some ⟨true, 3, false, 1, 1, [(1, 1)], 0, 0, []⟩ := by rw [hs]; unfold updating; rw [Dev.setFld_sec]; exact holding_running _
    rw [hc, Option.some.inj (hrun.symm.trans this)]
    decide

/-- An image below the floor is not accepted, nor one from an empty memory. -/
theorem test_update_refused : (holding []).parseFirmware 0x1000 (fun _ => true) = none := by
  unfold Dev.parseFirmware
  exact if_neg (fun h => absurd h.2.2.1 (by decide +kernel))

theorem test_update_states :
    (let s := ready
     s.fld Fld.HLK_PSTAT_LINK 0 = 2 ∧ s.fld Fld.HLK_PSTAT_ROLE 0 ≠ 0 ∧ s.isOwner 0 = true ∧ s.fld Fld.CTL_BOOT_STAGE 0 = 6 ∧ s.flag Fld.SEC_STAT_FWBUSY 0 = false ∧
       s.power ≠ 1 ∧ s.power ≠ 2 ∧ s.allEmpty = true ∧ s.tilesInHbm (s.partOf 0) 0x1000 1 = true ∧ s.tilesInHbm (s.partOf 0) 0x1000 2 = true ∧
       (s.setFld Fld.PLAN_STAT_STATE 0 2).allEmpty = false ∧ (s.setFld Fld.SEC_STAT_FWBUSY 0 1).flag Fld.SEC_STAT_FWBUSY 0 = true) ∧
    (let s := ready.setFld Fld.CTL_BOOT_STAGE 0 7
     s.fld Fld.HLK_PSTAT_LINK 0 = 2 ∧ s.fld Fld.HLK_PSTAT_ROLE 0 ≠ 0 ∧ s.isOwner 0 = true ∧ s.fld Fld.CTL_BOOT_STAGE 0 = 7 ∧
       s.recoveryBase ≤ 0x1000 ∧ 0x1000 + 2 * tileSize ≤ s.recoveryBase + 0x1000000) := by decide +kernel

/-- A table of owner and operator keys; the flash that holds it. -/
def keyTable (ks : List (Nat × Nat)) : Flash := { State.reset.flash with keysA := ⟨true, ks⟩, keysB := ⟨true, ks⟩ }

theorem table_keys (s : Dev) (ks : List (Nat × Nat)) (h : s.sec.flashQ = []) : s.keysAhead (keyTable ks) = ks := by
  unfold Dev.keysAhead
  rw [h]
  exact if_pos rfl

theorem ready_keys (ks : List (Nat × Nat)) : ready.keysAhead (keyTable ks) = ks := table_keys _ _ rfl

theorem test_key_commands :
    ready.serves 0 ∧ ready.isOwner 0 = true ∧ ready.keysBarred = false ∧ (ready.setFld Fld.SEC_STAT_FWBUSY 0 1).keysBarred = true ∧
    (∀ k ∈ ready.keysAhead (keyTable []), keyId k.2 ≠ keyId ready.keyInput) ∧ ((ready.keysAhead (keyTable [])).filter (fun k => k.1 == 1)).length < 4 ∧
    ((ready.keysAhead (keyTable [])).filter (fun k => k.1 == 2)).length < 16 ∧
    4 ≤ ((ready.keysAhead (keyTable (List.replicate 4 (1, 9)))).filter (fun k => k.1 == 1)).length ∧
    16 ≤ ((ready.keysAhead (keyTable (List.replicate 16 (2, 9)))).filter (fun k => k.1 == 2)).length ∧
    (∃ k ∈ ready.keysAhead (keyTable [(2, ready.keyInput)]), keyId k.2 = keyId ready.keyInput) := by
  refine ⟨serves_ready.1, serves_ready.2, by decide, by decide, ?_, ?_, ?_, ?_, ?_, ⟨(2, ready.keyInput), by rw [ready_keys]; exact List.mem_singleton_self _, congrArg keyId rfl⟩⟩ <;> rw [ready_keys] <;> simp

/-- The module whose SEC_KEY0 names a key: the last owner key is not removed, an operator key is. -/
def names (k : Nat) : Dev := ready.setReg .SEC_KEY 0 (keyId k)

theorem names_key (k : Nat) : (names k).reg .SEC_KEY 0 = keyId k := by
  unfold names
  rw [Dev.reg_setReg_self, Nat.mod_eq_of_lt (keyId_lt k)]

theorem test_key_removal :
    (let ahead := (names 9).keysAhead (keyTable [(2, 9)])
     let left := ahead.filter (fun k => decide (keyId k.2 ≠ (names 9).reg .SEC_KEY 0))
     (∃ k ∈ ahead, keyId k.2 = (names 9).reg .SEC_KEY 0) ∧ ((∃ k ∈ ahead, k.1 = 1) → ∃ k ∈ left, k.1 = 1)) ∧
    (let ahead := (names 9).keysAhead (keyTable [(1, 9)])
     let left := ahead.filter (fun k => decide (keyId k.2 ≠ (names 9).reg .SEC_KEY 0))
     (∃ k ∈ ahead, k.1 = 1) ∧ ∀ k ∈ left, k.1 ≠ 1) := by
  have h (ks : List (Nat × Nat)) : (names 9).keysAhead (keyTable ks) = ks := table_keys _ _ (by unfold names; rw [Dev.setReg_sec]; rfl)
  simp only [h, names_key]
  exact ⟨⟨⟨(2, 9), by simp, rfl⟩, by simp⟩, ⟨⟨(1, 9), by simp, rfl⟩, by simp⟩⟩

/-- Port 0 with a request of a length in its mailbox, taken up by its write of REQLEN, at a stage of the negotiation. -/
def asks (ws : List Nat) (len stage : Nat) : Dev :=
  let d := ws.zipIdx.foldl (fun s w => s.setReg .SPDM_REQ w.2 w.1) ((ready.setFld Fld.SEC_STAT_IDOK 0 1).setFld Fld.SEC_SPDM_BUSY 0 1)
  d.setHost 0 { spdm := stage, asked := some (d.spdmRequest 0 len) }

/-- The request that port 0's taking up left. -/
def asked (ws : List Nat) (len stage : Nat) : List Byte := (((asks ws len stage).hostPort 0).asked).getD []

theorem test_requests :
    (ready.serves 0 ∧ ready.flag Fld.SEC_SPDM_BUSY 0 = false ∧ (asks [0x8410] 4 31).serves 0 ∧ (asks [0x8410] 4 31).flag Fld.SEC_SPDM_BUSY 0 = true) ∧
    (let m := asked [0x8410] 4 31
     m.length = 4 ∧ msgNum m 0 1 = 0x10 ∧ msgNum m 1 1 = 0x84) ∧
    (let m := asked [0xE112, 0x100000000000, 0x1000] 20 1
     m.length = 20 ∧ msgNum m 0 1 = 0x12 ∧ msgNum m 1 1 = 0xE1 ∧ 42 ≤ msgNum m 12 4 ∧ msgNum m 12 4 ≤ msgNum m 16 4) ∧
    (let m := asked [0x00010020_0000E312, 0x20_00000800] 32 2
     m.length = 32 ∧ msgNum m 0 1 = 0x12 ∧ msgNum m 1 1 = 0xE3 ∧ msgNum m 28 1 = 0 ∧ msgNum m 29 1 = 0 ∧ msgNum m 4 2 = 32 ∧
       msgNum m 6 1 % 2 + msgNum m 8 4 / 2 ^ 11 % 2 + msgNum m 12 4 / 2 ^ 5 % 2 = 3) ∧
    (let m := asked [0x8112] 4 31
     m.length = 4 ∧ msgNum m 0 1 = 0x12 ∧ msgNum m 1 1 = 0x81 ∧ (31 : Nat) % 4 = 3 ∧ (31 : Nat).testBit 3 = true ∧ (31 : Nat).testBit 4 = true ∧
       (31 : Nat) % 16 / 4 = 3) ∧
    (let m := asked [0x0FF8_0000_0000_8212] 8 31
     m.length = 8 ∧ msgNum m 0 1 = 0x12 ∧ msgNum m 1 1 = 0x82 ∧ msgNum m 2 1 = 0 ∧ msgNum m 4 2 = 0) ∧
    (let m := asked [0x8312] 36 31
     m.length = 36 ∧ msgNum m 0 1 = 0x12 ∧ msgNum m 1 1 = 0x83 ∧ msgNum m 2 1 = 0 ∧ msgNum m 3 1 = 0) ∧
    ((asks [] 0 31).flag Fld.SEC_STAT_IDOK 0 = true ∧ ready.flag Fld.SEC_STAT_IDOK 0 = false) ∧
    (let m := asked [0x0D00E012] 4 31
     m.length = 4 ∧ msgNum m 0 1 = 0x12 ∧ msgNum m 1 1 = 0xE0 ∧ msgNum m 2 1 = 0 ∧ msgNum m 3 1 = 13) ∧
    (let m := asked [0xE412] 4096 31
     m.length = 4096 ∧ ¬ msgNum m 1 1 ∈ [0x81, 0x82, 0x83, 0x84, 0xE0, 0xE1, 0xE3]) := by
  unfold Dev.serves; decide +kernel

theorem test_certificates : 0 < certChain.length := by
  unfold certChain
  simp only [List.length_append, leBytes_length]
  omega

/-- A signature under the neutral point: that point, and zero. -/
def pointSig : List Byte := leBytes 57 1 ++ List.replicate 57 0

/-- A token of a key, signed with the neutral point, for this module, with its nonce (R571). -/
def token (key : Nat) : List Byte :=
  leBytes 8 0x4755424434585446 ++ (leBytes 8 Config.serial.toNat ++ (leBytes 8 (ready.reg .DBG_NONCE 0) ++ (leBytes 1 2 ++ (zeros 7 ++ (leBytes 8 (keyId key) ++ (pointSig ++ zeros 6))))))

/-- The module in a stage whose running firmware lists the neutral point for debug, with that token submitted. -/
def granting (st key : Nat) : Dev :=
  { ready.setFld Fld.CTL_BOOT_STAGE 0 st with sec := { ready.sec with tokens := [token key], running := some ⟨true, 3, false, 1, 1, [(1, 2)], 0, 0, []⟩ } }

theorem test_token_good (st key : Nat) : let rd (o n : Nat) : Nat := leNat (((token key).drop o).take n)
    (granting st key).sec.tokens = token key :: [] ∧ rd 0 8 = 0x4755424434585446 ∧ rd 8 8 = Config.serial.toNat ∧ rd 16 8 = (granting st key).reg .DBG_NONCE 0 ∧ rd 24 1 = 2 ∧
    rd 25 7 = 0 ∧ keyId key = rd 32 8 ∧ (∀ msg, Ed448.verify 1 "FENRAM-TX4-DBUG" msg (((token key).drop 40).take 114) = true) ∧ rd 154 6 = 0 := by
  have cut (xs ys : List Byte) (o n : Nat) (h : xs.length = n) (zs : List Byte) (hz : zs.length = o) : ((zs ++ (xs ++ ys)).drop o).take n = xs := by
    rw [← hz, List.drop_left, ← h, List.take_left]
  have hs : Config.serial.toNat < 256 ^ 8 := Config.serial.isLt
  have hn : (granting st key).reg .DBG_NONCE 0 = ready.reg .DBG_NONCE 0 := by
    unfold granting
    rw [sec_reg]
    exact Dev.reg_setReg_ne _ _ _ _ _ _ (by decide)
  have hl : ready.reg .DBG_NONCE 0 < 256 ^ 8 := Dev.reg_lt _ _ _
  have t2 : token key = (leBytes 8 0x4755424434585446 ++ leBytes 8 Config.serial.toNat) ++ (leBytes 8 (ready.reg .DBG_NONCE 0) ++ (leBytes 1 2 ++ (zeros 7 ++ (leBytes 8 (keyId key) ++ (pointSig ++ zeros 6))))) := by
    unfold token; simp only [List.append_assoc]
  have t3 : token key = (leBytes 8 0x4755424434585446 ++ leBytes 8 Config.serial.toNat ++ leBytes 8 (ready.reg .DBG_NONCE 0)) ++ (leBytes 1 2 ++ (zeros 7 ++ (leBytes 8 (keyId key) ++ (pointSig ++ zeros 6)))) := by
    unfold token; simp only [List.append_assoc]
  have t4 : token key = (leBytes 8 0x4755424434585446 ++ leBytes 8 Config.serial.toNat ++ leBytes 8 (ready.reg .DBG_NONCE 0) ++ leBytes 1 2) ++ (zeros 7 ++ (leBytes 8 (keyId key) ++ (pointSig ++ zeros 6))) := by
    unfold token; simp only [List.append_assoc]
  have t5 : token key = (leBytes 8 0x4755424434585446 ++ leBytes 8 Config.serial.toNat ++ leBytes 8 (ready.reg .DBG_NONCE 0) ++ leBytes 1 2 ++ zeros 7) ++ (leBytes 8 (keyId key) ++ (pointSig ++ zeros 6)) := by
    unfold token; simp only [List.append_assoc]
  have t6 : token key = (leBytes 8 0x4755424434585446 ++ leBytes 8 Config.serial.toNat ++ leBytes 8 (ready.reg .DBG_NONCE 0) ++ leBytes 1 2 ++ zeros 7 ++ leBytes 8 (keyId key) ++ pointSig) ++ (zeros 6 ++ []) := by
    unfold token; simp only [List.append_assoc, List.append_nil]
  have t7 : token key = (leBytes 8 0x4755424434585446 ++ leBytes 8 Config.serial.toNat ++ leBytes 8 (ready.reg .DBG_NONCE 0) ++ leBytes 1 2 ++ zeros 7 ++ leBytes 8 (keyId key)) ++
      (pointSig ++ zeros 6) := by
    unfold token; simp only [List.append_assoc]
  have lp : pointSig.length = 114 := by decide
  have len : ∀ n, (zeros n).length = n := fun n => List.length_replicate
  refine ⟨rfl, ?_, ?_, ?_, ?_, ?_, ?_, fun msg => ?_, ?_⟩
  · show leNat (((token key).drop 0).take 8) = _
    rw [List.drop_zero]
    unfold token
    rw [List.take_left' (leBytes_length _ _), leNat_leBytes _ _ (by decide)]
  · show leNat (((token key).drop 8).take 8) = _
    unfold token
    rw [cut _ _ _ _ (leBytes_length _ _) _ (leBytes_length _ _), leNat_leBytes _ _ hs]
  · show leNat (((token key).drop 16).take 8) = _
    rw [t2, cut _ _ _ _ (leBytes_length _ _) _ (by simp [leBytes_length]), hn, leNat_leBytes _ _ hl]
  · show leNat (((token key).drop 24).take 1) = _
    rw [t3, cut _ _ _ _ (leBytes_length _ _) _ (by simp [leBytes_length])]
    rfl
  · show leNat (((token key).drop 25).take 7) = _
    rw [t4, cut _ _ _ _ (len _) _ (by simp [leBytes_length])]
    rfl
  · show _ = leNat (((token key).drop 32).take 8)
    rw [t5, cut _ _ _ _ (leBytes_length _ _) _ (by simp [leBytes_length, len]), leNat_leBytes _ _ (keyId_lt key)]
  · rw [t7, cut _ _ _ _ lp _ (by simp [leBytes_length, len])]
    exact neutral_signs _ msg
  · show leNat (((token key).drop 154).take 6) = _
    rw [t6, cut _ _ _ _ (len _) _ (by simp [leBytes_length, len, lp])]
    rfl

/-- Flash beside a mask ROM whose recovery key is the neutral point. -/
def recovers : Flash := { State.reset.flash with recoveryKey := 1 }

/-- The token's key is in READY the one that the running firmware lists, in RECOVERY the one in the mask ROM. -/
theorem test_token_keys : 1 ∈ (granting 6 1).debugKeys State.reset.flash ∧ 1 ∈ (granting 7 1).debugKeys recovers := by decide +kernel

theorem test_debug :
    (ready.serves 0 ∧ ready.isOwner 0 = true ∧ ready.flag Fld.DBG_STAT_BUSY 0 = false ∧ ready.tapServed = true) ∧
    (let s := (ready.setFld Fld.DBG_STAT_LEVEL 0 2).setFld Fld.DBG_CTL_ALLOWD2 0 1
     s.flag Fld.DBG_CTL_ALLOWD2 0 = true ∧ s.fld Fld.DBG_STAT_LEVEL 0 = 2 ∧ s.secState (keyTable [(1, 9)]) = 1) ∧
    (granting 7 1).tokenAllowed recovers = true ∧ (granting 6 1).tokenAllowed State.reset.flash = true ∧ (granting 6 1).tokenAllowed (keyTable [(1, 9)]) = false ∧
    (ready.setFld Fld.DBG_STAT_BUSY 0 1).flag Fld.DBG_STAT_BUSY 0 = true := by unfold Dev.serves; decide +kernel

/-- A level of debug, and what core 0x2072 is there. -/
def debugs (lv : Nat) (x : Core) : Dev := (ready.setFld Fld.DBG_STAT_LEVEL 0 lv).setCore 0x2072 x

theorem test_tap :
    ((debugs 1 {}).tapServed = true ∧ 1 ≤ (debugs 1 {}).fld Fld.DBG_STAT_LEVEL 0) ∧
    (let a := ctlBase + 5 * ctlSize + 0x200000 + 8 * 0x1509
     ctlPlace a = .die 5 (0x200000 + 8 * 0x1509) ∧ regAt .die (0x200000 + 8 * 0x1509) = some (.CTL_EVCNT, 0x1509) ∧ (regDesc .CTL_EVCNT).writer = .partition) ∧
    ((debugs 2 {}).tapServed = true ∧ 2 ≤ (debugs 2 {}).fld Fld.DBG_STAT_LEVEL 0 ∧ (debugs 2 {}).tapMem 0x1000 = true ∧ (debugs 2 {}).power ≠ 2) ∧
    (let s := (debugs 2 {}).setFld Fld.PWR_STAT_STATE 0 2
     s.tapServed = true ∧ 2 ≤ s.fld Fld.DBG_STAT_LEVEL 0 ∧ s.tapMem 0x1000 = true ∧ s.power = 2) ∧
    (let s := (debugs 2 {}).setFld Fld.CTL_DIECFG_FENCED 5 1
     s.tapServed = true ∧ 2 ≤ s.fld Fld.DBG_STAT_LEVEL 0 ∧ memPlace (20 * stackSize) ≠ .other ∧ s.tapMem (20 * stackSize) = false) ∧
    (let a := ctlBase + 0x310028 + 0x80 * 1023
     ctlPlace a = .die 0 (0x310028 + 0x80 * 1023) ∧ regAt .die (0x310028 + 0x80 * 1023) = some (.FMT_MON_BLK, 1023) ∧ (regDesc .FMT_MON_BLK).writer = .lowest ∧
       (debugs 1 {}).partOf 0 = 0) ∧
    ((inPower 3).power = 3 ∧ (inPower 2).power < 3) ∧
    ((debugs 2 { halted := true }).present 0x2072 = true ∧ ((debugs 2 { halted := true }).core 0x2072).halted = true ∧
      ((debugs 2 { halted := true }).core 0x2072).fetched = none ∧ ((debugs 2 { halted := true }).core 0x2072).pc = 0 ∧
      ((debugs 2 { halted := true, fetched := some (0, zeros 64) }).core 0x2072).fetched = some (0, zeros 64)) ∧
    (Dev.reset.tapServed = false ∧ ready.fld Fld.DBG_STAT_LEVEL 0 < 1 ∧ Dev.reset.power < 3) := by decide +kernel

theorem test_tap_memory (g : Nat) : memPlace 0x1000 ≠ .gill g := by
  have : memPlace 0x1000 = .hbmPayload 0 1 := by decide +kernel
  rw [this]
  nofun

/-! ### Counters and the whole block -/

/-- Counters of a die's window, of the device-wide block and of a core's window, and the places they stand at. -/
theorem test_counter_places :
    (ctlPlace (ctlBase + 5 * ctlSize + 0x200000 + 8 * 0x1509) = .die 5 (0x200000 + 8 * 0x1509) ∧ RegKind.CTL_EVCNT ∈ eventRegs ∧
      regAt .die (0x200000 + 8 * 0x1509) = some (.CTL_EVCNT, 0x1509) ∧ ready.mayWrite (some 0) (regDesc .CTL_EVCNT).writer 5 = true ∧ ready.partOf 5 = ready.partOf 0) ∧
    (ctlPlace (ctlBase + 0x500080) = .die 0 0x500080 ∧ regAt .die 0x500080 = some (.PWR_PC_STRETCH, 0) ∧ RegKind.PWR_PC_STRETCH.perfCounter = true) ∧
    (ctlPlace (ctlBase + 0x360018) = .die 0 0x360018 ∧ regAt .die 0x360018 = some (.FAB_PORT_ERR, 0) ∧ RegKind.FAB_PORT_ERR ∈ linkRegs) ∧
    (ctlPlace (devBase + 0x200000 + 8 * 0x1509) = .dev (0x200000 + 8 * 0x1509) ∧ devRegAt (0x200000 + 8 * 0x1509) = some (.CTL_EVCNT_DEV, 0x1509) ∧
      ready.mayWrite (some 0) (regDesc .CTL_EVCNT_DEV).writer 0 = true) ∧
    (ctlPlace (devBase + 0x100) = .dev 0x100 ∧ devRegAt 0x100 = some (.CTL_BRG, 0) ∧ ready.mayWrite (some 0) (regDesc .CTL_BRG).writer 0 = true) ∧
    (let a := ctlBase + 5 * ctlSize + 0x40000000 + 0x10000 * 4351
     ctlPlace (a + 0x430) = .core (8192 * 5 + 4351) 0x430 ∧ regAt .core 0x430 = some (.GILL_OVF, 0) ∧ (regDesc .GILL_OVF).writer ≠ .none ∧
       ctlPlace (a + 0x280) = .core (8192 * 5 + 4351) 0x280 ∧ regAt .core 0x280 = some (.ARR_PC_ISSUE, 0) ∧ RegKind.ARR_PC_ISSUE.perfCounter = true ∧
       (regDesc .ARR_PC_ISSUE).writer ≠ .none ∧ ready.coreServed (ready.partOf 0) (8192 * 5 + 4351) = true ∧ a % 8 = 0 ∧ isCtl a = true) := by decide +kernel

theorem test_queue (c : Instr) (rest : List Instr) : ({ State.reset with pending := c :: rest } : State).pending = c :: rest ∧ State.reset.pending = [] ∧
    (State.reset.dev.now + 1) % 544 ≠ 0 ∧ (({ Dev.reset with now := 543 } : Dev).now + 1) % 544 = 0 := ⟨rfl, rfl, by decide, rfl⟩

theorem test_step_keeps_flash : (∃ t, Sys2Proof.Machine.step State.reset = .next t) ∧ State.reset.flash.Sound := by
  refine ⟨⟨_, rfl⟩, by decide, ?_, by decide⟩
  have : ∀ b ∈ State.reset.flash.bushels, b.valid = false := by decide
  intro i j a b ha _ _ hv
  rw [this a (List.mem_of_getElem? ha)] at hv
  cases hv

theorem test_turned_away :
    hostRequest (.testCmd 3 1) = some 3 ∧ ownerRequest (.testCmd 3 1) = some 3 ∧ ready.flag Fld.CTL_JSTAT_SOLO 0 = false ∧ ready.fld Fld.HLK_PSTAT_LINK 3 ≠ 2 ∧
    (let s := (ready.setFld Fld.HLK_PSTAT_LINK 3 2).setFld Fld.HLK_PSTAT_ROLE 3 0
     s.flag Fld.CTL_JSTAT_SOLO 0 = false ∧ s.fld Fld.HLK_PSTAT_LINK 3 = 2 ∧ s.fld Fld.HLK_PSTAT_ROLE 3 = 0) ∧
    (let s := ready.setFld Fld.HLK_PSTAT_LINK 3 2
     s.serves 3 ∧ s.isOwner 3 = false ∧ s.flag Fld.CTL_JSTAT_SOLO 0 = false) := by unfold Dev.serves; decide +kernel

theorem test_tile_verifies : (scrupleAddr 0x1FF8).isSome = true ∧ 0x1FF8 % tileSize + [1, 2, 3, 4, 5, 6, (7 : Byte), 8].length ≤ tileSize ∧
    Memory.verify [] 0x1FF8 = true := by decide +kernel

end Sys2Proof.Tests
end

section
/-!
PROOF. The state at reset (O57).
-/
namespace Sys2Proof.Machine

theorem Flash.factory_sound : Flash.factory.Sound where
  slots := rfl
  ids := by
    intro i j a b ha _ _ hv
    have hall : ∀ b ∈ Flash.factory.bushels, b.valid = false := by decide
    rw [hall a (List.mem_of_getElem? ha)] at hv
    cases hv
  floor := by decide

/-- Settles O57, register by register from the table of reset values. -/
theorem resetState : Obligations.ResetState := by
  unfold Obligations.ResetState
  refine ⟨rfl, rfl, fun _ => rfl, fun k i => ?_, ?_, by decide +kernel, by decide +kernel, by decide +kernel, Flash.factory_sound⟩
  · simp [State.reset]
  · decide +kernel
end Sys2Proof.Machine
end

section
/-!
PROOF. Clears of counters (O54).
-/
namespace Sys2Proof.Machine

/-! ### A write of a register reaches it (R423) -/

/-- An aligned 8-byte request breaks no rule of R421 or R423. -/
theorem reqMalformed_aligned8 {a : Nat} (ha : a % 8 = 0) : reqMalformed a 8 = false := by
  have h4096 : ¬ 4096 < a % 4096 + 8 := by omega
  simp [reqMalformed, ha, tileSize, h4096]

theorem Dev.inRecovery_of_serves {s : Dev} {q : Nat} (hs : s.serves q) (a n : Nat) : s.inRecovery a n = false := by
  have hstage : s.bootStage = 6 := hs.2.2
  simp [Dev.inRecovery, hstage, stRecovery]

/-- A register write by a port that is served, to a place of its window, is the write of that place. -/
theorem Dev.writeReg_eq_ctlWrite {s : Dev} {q a v : Nat} (f : Flash) (hs : s.serves q) (ha : a % 8 = 0) (hlt : a < 2 ^ 52) (hv : v < 2 ^ 64)
    (hc : isCtl a = true) (hw : s.ctlServed q (ctlPlace a) = true) : s.writeReg f q a v = s.ctlWrite f (some q) (ctlPlace a) v := by
  obtain ⟨hlink, hrole, -⟩ := id hs
  have hbytes : ((leBytes 8 v ++ zeros 8).take 8) = leBytes 8 v := List.take_left' (leBytes_length 8 v)
  unfold Dev.writeReg Dev.hostWrite
  rw [Nat.mod_eq_of_lt hlt, hbytes]
  simp [hlink, hrole, reqMalformed_aligned8 ha, Dev.inRecovery_of_serves hs, hc, hw, leNat_leBytes 8 v hv]

/-! ### What CLR = 1 does to a counter -/

theorem RegKind.hasClr_of_perfCounter {k : RegKind} (h : k.perfCounter = true) : k.hasClr = true := by
  unfold RegKind.perfCounter at h
  split at h
  · simp_all [RegKind.hasClr]
  · cases h

theorem RegKind.hasClr_of_eventRegs : ∀ k ∈ eventRegs, k.hasClr = true := by decide
theorem RegKind.hasClr_of_linkRegs : ∀ k ∈ linkRegs, k.hasClr = true := by decide

theorem RegKind.ne_brg_of_eventRegs : ∀ k ∈ eventRegs, k ≠ .CTL_BRG := by decide
theorem RegKind.ne_brg_of_perfCounter {k : RegKind} (h : k.perfCounter = true) : k ≠ .CTL_BRG := by
  rintro rfl
  cases h

theorem testBit_clr : Nat.testBit (2 ^ 63) 63 = true := Nat.testBit_two_pow_self

theorem Dev.writeClr_set (s : Dev) {k : RegKind} (i : Nat) (hk : k ≠ .CTL_BRG) : s.writeClr k i (2 ^ 63) = s.setReg k i 0 := by
  unfold Dev.writeClr
  rw [testBit_clr, if_neg hk]
  rfl

theorem Dev.coreRegWrite_perf (s : Dev) {k : RegKind} (c : Nat) (hk : k.perfCounter = true) : s.coreRegWrite k c (2 ^ 63) = s.setReg k c 0 := by
  unfold Dev.coreRegWrite
  rw [testBit_clr]
  split
  case h_7 => rw [if_pos hk]; rfl
  all_goals exact absurd hk (by decide)

theorem Dev.coreRegWrite_gillOvf (s : Dev) (c : Nat) : s.coreRegWrite .GILL_OVF c (2 ^ 63) = s.setReg .GILL_OVF c 0 := by
  simp only [Dev.coreRegWrite, testBit_clr, if_true]

/-! ### A clear of a counter -/

/-- Register `k` number `i` is zero, and nothing else of the module has changed. -/
def ClearedOnly (s : State) (k : RegKind) (i : Nat) (t : State) : Prop :=
  t.dev.reg k i = 0 ∧ Frame { reg := fun r j => r = k ∧ j = i } s.dev t.dev ∧ t.flash = s.flash ∧
    ∀ r j, ¬ (r = k ∧ j = i) → t.dev.reg r j = s.dev.reg r j

/-- Setting one register to zero clears it and nothing else. -/
theorem clearedOnly_setReg (s : State) (k : RegKind) (i : Nat) :
    leadsTo (okFlash s (s.dev.setReg k i 0, s.flash)) (ClearedOnly s k i) :=
  ⟨_, rfl, Dev.reg_setReg_self _ k i 0, Frame.setReg _ _ k i 0 ⟨rfl, rfl⟩, rfl, fun r j h => Dev.reg_setReg_ne _ k r i j 0 h⟩

/-- What a clear of CTL_BRG leaves: RETRY and its OVF bit zero, UP as it was (R25). -/
def BridgeCleared (s : State) (i : Nat) (t : State) : Prop :=
  t.dev.fld Fld.CTL_BRG_RETRY i = 0 ∧ t.dev.flag Fld.CTL_BRG_RETRY_OVF i = false ∧ t.dev.flag Fld.CTL_BRG_UP i = s.dev.flag Fld.CTL_BRG_UP i ∧
    Frame { reg := fun r j => r = .CTL_BRG ∧ j = i } s.dev t.dev ∧ t.flash = s.flash ∧
    ∀ r j, ¬ (r = .CTL_BRG ∧ j = i) → t.dev.reg r j = s.dev.reg r j

theorem bridgeCleared_writeClr (s : State) (i : Nat) :
    leadsTo (okFlash s (s.dev.writeClr .CTL_BRG i (2 ^ 63), s.flash)) (BridgeCleared s i) := by
  refine ⟨_, rfl, ?_⟩
  simp only [Dev.writeClr, testBit_clr, Bool.not_true, Bool.false_eq_true, if_false, if_true]
  refine ⟨?_, ?_, ?_, ?_, rfl, fun r j h => ?_⟩
  · rw [Dev.fld_setFld_apart _ _ _ _ _ _ (by decide) (by decide), Dev.fld_setFld_self _ _ _ _ (by decide)]
    rfl
  · simp [Dev.flag, Dev.fld_setFld_self _ Fld.CTL_BRG_RETRY_OVF i 0 (by decide)]
  · simp only [Dev.flag]
    rw [Dev.fld_setFld_apart _ _ _ _ _ _ (by decide) (by decide), Dev.fld_setFld_apart _ _ _ _ _ _ (by decide) (by decide)]
  · have hbrg : ∀ (d : Dev) (f : Fld), f.reg = .CTL_BRG → Frame { reg := fun r j => r = .CTL_BRG ∧ j = i } d (d.setFld f i 0) :=
      fun d f hf => Frame.setFld _ d f i 0 ⟨hf, rfl⟩
    exact (hbrg _ _ rfl).trans (hbrg _ _ rfl)
  · rw [Dev.reg_setFld_ne _ _ _ _ _ _ h, Dev.reg_setFld_ne _ _ _ _ _ _ h]

/-- A command that clears a counter of a class is the write of CLR = 1, where the place is a register of the class. -/
theorem Dev.clearCounter_eq {s : Dev} {q : Nat} {addr : BitVec 52} {k : RegKind} {cls : RegKind → Bool} (f : Flash) (hs : s.serves q)
    (ha : addr.toNat % 8 = 0) (hc : isCtl addr.toNat = true) (hw : s.ctlServed q (ctlPlace addr.toNat) = true)
    (hk : (ctlPlace addr.toNat).reg = some k) (hcls : cls k = true) :
    s.clearCounter f q addr.toNat cls = s.ctlWrite f (some q) (ctlPlace addr.toNat) (2 ^ 63) := by
  simp only [Dev.clearCounter, hk, hcls, if_true]
  exact Dev.writeReg_eq_ctlWrite f hs ha addr.isLt (by decide) hc hw

theorem Dev.ctlWrite_die_clr {s : Dev} {q d off n : Nat} {k : RegKind} (f : Flash) (hr : regAt .die off = some (k, n))
    (hm : s.mayWrite (some q) (regDesc k).writer d = true) (hclr : k.hasClr = true) (hk : k ≠ .CTL_BRG) :
    s.ctlWrite f (some q) (.die d off) (2 ^ 63) = (s.setReg k (dieIdx k d n) 0, f) := by
  simp only [Dev.ctlWrite, hr, hm, if_true, Dev.dieWrite, hclr, Dev.writeClr_set s _ hk]

theorem Dev.ctlWrite_dev_clr {s : Dev} {q off n : Nat} {k : RegKind} (f : Flash) (hr : devRegAt off = some (k, n))
    (hm : s.mayWrite (some q) (regDesc k).writer 0 = true) (hclr : k.hasClr = true) :
    s.ctlWrite f (some q) (.dev off) (2 ^ 63) = (s.writeClr k n (2 ^ 63), f) := by
  simp only [Dev.ctlWrite, hr, hm, if_true, Dev.devWrite, hclr]

theorem Dev.ctlWrite_core {s : Dev} {q c off n v : Nat} {k : RegKind} (f : Flash) (hr : regAt .core off = some (k, n))
    (hw : (regDesc k).writer ≠ .none) : s.ctlWrite f (some q) (.core c off) v = (s.coreRegWrite k c v, f) := by
  simp only [Dev.ctlWrite, Dev.windowWrite, hr, hw, if_false]


/-- A register of a die's window is cleared by a command of its class. -/
theorem clears_die {s : State} {q d off n : Nat} {addr : BitVec 52} {k : RegKind} {cls : RegKind → Bool} (hs : s.dev.serves q)
    (ha : addr.toNat % 8 = 0) (hc : isCtl addr.toNat = true) (hp : ctlPlace addr.toNat = .die d off) (hr : regAt .die off = some (k, n))
    (hm : s.dev.mayWrite (some q) (regDesc k).writer d = true) (hpart : s.dev.partOf d = s.dev.partOf q) (hreach : s.dev.reaches q d = true)
    (hcls : cls k = true) (hclr : k.hasClr = true) (hk : k ≠ .CTL_BRG) :
    leadsTo (okFlash s (s.dev.clearCounter s.flash q addr.toNat cls)) (ClearedOnly s k (dieIdx k d n)) := by
  have hw : s.dev.ctlServed q (ctlPlace addr.toNat) = true := by
    rw [hp, Dev.ctlServed, show s.dev.bootStage = stReady from hs.2.2]
    simp [hpart, hreach]
  rw [Dev.clearCounter_eq s.flash hs ha hc hw (by simp [hp, CtlPlace.reg, CtlPlace.kind, hr]) hcls, hp, Dev.ctlWrite_die_clr s.flash hr hm hclr hk]
  exact clearedOnly_setReg s k _

/-- A register of the device-wide block takes the write of CLR = 1 from a command of its class. -/
theorem clearCounter_dev {s : State} {q off n : Nat} {addr : BitVec 52} {k : RegKind} {cls : RegKind → Bool} (hs : s.dev.serves q)
    (ha : addr.toNat % 8 = 0) (hc : isCtl addr.toNat = true) (hp : ctlPlace addr.toNat = .dev off) (hr : devRegAt off = some (k, n))
    (hm : s.dev.mayWrite (some q) (regDesc k).writer 0 = true) (hcls : cls k = true) (hclr : k.hasClr = true) :
    s.dev.clearCounter s.flash q addr.toNat cls = (s.dev.writeClr k n (2 ^ 63), s.flash) := by
  have hw : s.dev.ctlServed q (ctlPlace addr.toNat) = true := by
    rw [hp, Dev.ctlServed, show s.dev.bootStage = stReady from hs.2.2]
    simp
  rw [Dev.clearCounter_eq s.flash hs ha hc hw (by simp [hp, CtlPlace.reg, CtlPlace.kind, hr]) hcls, hp, Dev.ctlWrite_dev_clr s.flash hr hm hclr]

theorem clears_dev {s : State} {q off n : Nat} {addr : BitVec 52} {k : RegKind} {cls : RegKind → Bool} (hs : s.dev.serves q)
    (ha : addr.toNat % 8 = 0) (hc : isCtl addr.toNat = true) (hp : ctlPlace addr.toNat = .dev off) (hr : devRegAt off = some (k, n))
    (hm : s.dev.mayWrite (some q) (regDesc k).writer 0 = true) (hcls : cls k = true) (hclr : k.hasClr = true) (hk : k ≠ .CTL_BRG) :
    leadsTo (okFlash s (s.dev.clearCounter s.flash q addr.toNat cls)) (ClearedOnly s k n) := by
  rw [clearCounter_dev hs ha hc hp hr hm hcls hclr, Dev.writeClr_set _ n hk]
  exact clearedOnly_setReg s k n

/-- A register of a core's window is cleared by a command of its class. -/
theorem clears_core {s : State} {q c off n : Nat} {addr : BitVec 52} {k : RegKind} {cls : RegKind → Bool} (hs : s.dev.serves q)
    (ha : addr.toNat % 8 = 0) (hc : isCtl addr.toNat = true) (hp : ctlPlace addr.toNat = .core c off) (hr : regAt .core off = some (k, n))
    (hw : (regDesc k).writer ≠ .none) (hserved : s.dev.coreServed (s.dev.partOf q) c = true) (hreach : s.dev.reaches q (coreDie c) = true)
    (hcls : cls k = true) (hset : s.dev.coreRegWrite k c (2 ^ 63) = s.dev.setReg k c 0) :
    leadsTo (okFlash s (s.dev.clearCounter s.flash q addr.toNat cls)) (ClearedOnly s k c) := by
  have hwin : s.dev.ctlServed q (ctlPlace addr.toNat) = true := by
    rw [hp, Dev.ctlServed, show s.dev.bootStage = stReady from hs.2.2]
    simp [hserved, hreach]
  rw [Dev.clearCounter_eq s.flash hs ha hc hwin (by simp [hp, CtlPlace.reg, hr]) hcls, hp, Dev.ctlWrite_core s.flash hr hw, hset]
  exact clearedOnly_setReg s k c

/-- Settles O54: the command of the counter's class is the write of CLR = 1 at its place, which sets that register to zero. -/
theorem countersCleared : Obligations.CountersCleared := by
  unfold Obligations.CountersCleared
  intro s port addr q a only clears hs ha hc
  refine ⟨fun d off k n hp hr hm hpart hreach => ?_, fun off k n hp hr hm => ?_, fun c off k n hp hr hw hserved hreach => ?_⟩
  · refine ⟨fun he => ?_, fun hpf => ?_, fun hl hk => ?_⟩
    · exact clears_die hs ha hc hp hr hm hpart hreach (List.contains_iff_mem.2 he) (RegKind.hasClr_of_eventRegs k he)
        (RegKind.ne_brg_of_eventRegs k he)
    · exact clears_die hs ha hc hp hr hm hpart hreach hpf (RegKind.hasClr_of_perfCounter hpf) (RegKind.ne_brg_of_perfCounter hpf)
    · exact clears_die hs ha hc hp hr hm hpart hreach (List.contains_iff_mem.2 hl) (RegKind.hasClr_of_linkRegs k hl) hk
  · refine ⟨⟨fun he => ?_, fun hpf => ?_, fun hl hk => ?_⟩, ?_⟩
    · exact clears_dev hs ha hc hp hr hm (List.contains_iff_mem.2 he) (RegKind.hasClr_of_eventRegs k he) (RegKind.ne_brg_of_eventRegs k he)
    · exact clears_dev hs ha hc hp hr hm hpf (RegKind.hasClr_of_perfCounter hpf) (RegKind.ne_brg_of_perfCounter hpf)
    · exact clears_dev hs ha hc hp hr hm (List.contains_iff_mem.2 hl) (RegKind.hasClr_of_linkRegs k hl) hk
    · rintro rfl
      have hclear := clearCounter_dev (cls := linkRegs.contains) hs ha hc hp hr hm rfl rfl
      obtain ⟨t, ht, hb⟩ := bridgeCleared_writeClr s n
      exact ⟨t, (congrArg (okFlash s) hclear).trans ht, hb⟩
  · refine ⟨fun hg => ?_, fun hpf => ?_⟩
    · subst hg
      exact clears_core hs ha hc hp hr hw hserved hreach rfl (Dev.coreRegWrite_gillOvf s.dev c)
    · exact clears_core hs ha hc hp hr hw hserved hreach hpf (Dev.coreRegWrite_perf s.dev c hpf)

end Sys2Proof.Machine
end

section
/-!
PROOF. Partition commands of the owner (O45).
-/
namespace Sys2Proof.Machine

/-! ### Folds over a list of updates -/

/-- What every update keeps, the fold keeps. -/
theorem Dev.each_induction {α : Type} (P : Dev → Prop) (f : α → Dev → Dev) (xs : List α) (h : ∀ x ∈ xs, ∀ s, P s → P (f x s)) (s : Dev)
    (hs : P s) : P (s.each xs f) := by
  unfold Dev.each
  induction xs generalizing s with
  | nil => exact hs
  | cons x xs ih => exact ih (fun y hy => h y (List.mem_cons_of_mem x hy)) _ (h x List.mem_cons_self s hs)

/-- What one update of the list establishes and every update keeps holds after the fold. -/
theorem Dev.each_establishes {α : Type} (P : Dev → Prop) (f : α → Dev → Dev) {xs : List α} {x : α} (hx : x ∈ xs) (hset : ∀ s, P (f x s))
    (hkeep : ∀ y ∈ xs, ∀ s, P s → P (f y s)) (s : Dev) : P (s.each xs f) := by
  induction xs generalizing s with
  | nil => cases hx
  | cons y ys ih =>
    rcases List.mem_cons.1 hx with rfl | hx
    · exact Dev.each_induction P f ys (fun z hz => hkeep z (List.mem_cons_of_mem _ hz)) _ (hset s)
    · exact ih hx (fun z hz => hkeep z (List.mem_cons_of_mem _ hz)) (f y s)

/-- A frame of registers that names more of them is weaker. -/
theorem Frame.reg_mono {r r' : RegKind → Nat → Prop} {s t : Dev} (h : Frame { reg := r } s t) (hr : ∀ k i, r k i → r' k i) :
    Frame { reg := r' } s t :=
  h.weaken hr (fun _ => id) (fun _ => id) (fun _ => id) (fun _ => id) id id id id id

/-- A field stays with its register. -/
theorem Dev.fld_congr {s t : Dev} (f : Fld) (i : Nat) (h : t.reg f.reg i = s.reg f.reg i) : t.fld f i = s.fld f i := by
  unfold Dev.fld
  rw [h]

/-- A field of a register that a frame does not name stays. -/
theorem Frame.fld {m : Touches} {s t : Dev} (h : Frame m s t) (f : Fld) (i : Nat) (hc : f.reg.counting = false) (hm : ¬ m.reg f.reg i) :
    t.fld f i = s.fld f i := Dev.fld_congr f i (h.reg f.reg i hc hm)

/-! ### Values of HLK_PARTCMD (R34, R417, R441) -/

theorem cmdRole_eq (v p : Nat) : cmdRole v p = v / 2 ^ (2 * p + 4) % 4 := by
  simp [cmdRole, bits, Nat.shiftRight_eq_div_pow, show 2 * p + 5 + 1 - (2 * p + 4) = 2 by omega]

theorem cmdRole_lt (v p : Nat) : cmdRole v p < 4 := by rw [cmdRole_eq]; omega

theorem layoutPart_le (n d : Nat) (hd : d < 6) : layoutPart n d < 6 := by
  unfold layoutPart
  split
  · split <;> decide
  all_goals omega

/-- A list without repetitions has one member of a kind exactly when one is of the kind and all of the kind are it. -/
theorem filter_range_length_one (m : Nat) (P : Nat → Bool) :
    ((List.range m).filter P).length = 1 ↔ ∃ e, e < m ∧ P e = true ∧ ∀ f < m, P f = true → f = e := by
  have hnodup : ((List.range m).filter P).Nodup := List.nodup_range.filter P
  constructor
  · intro h
    obtain ⟨e, he⟩ := List.length_eq_one_iff.1 h
    have hmem : ∀ f, f ∈ (List.range m).filter P ↔ f = e := by simp [he]
    simp only [List.mem_filter, List.mem_range] at hmem
    obtain ⟨hlt, hP⟩ := (hmem e).2 rfl
    exact ⟨e, hlt, hP, fun f hf hPf => (hmem f).1 ⟨hf, hPf⟩⟩
  · rintro ⟨e, hlt, hP, hall⟩
    have hone : (List.range m).filter P = [e] := by
      refine List.perm_singleton.1 ((List.perm_ext_iff_of_nodup hnodup (List.nodup_singleton e)).2 fun f => ?_)
      simp only [List.mem_filter, List.mem_range, List.mem_singleton]
      exact ⟨fun h => hall f h.1 h.2, fun h => h ▸ ⟨hlt, hP⟩⟩
    rw [hone]
    rfl

theorem layoutOk_iff (v : Nat) : layoutOk v = true ↔
    (v % 16 = 1 ∨ v % 16 = 2 ∨ v % 16 = 3 ∨ v % 16 = 6) ∧ (∀ d < 6, cmdRole v d ≠ 3) ∧
      ∀ d < 6, ∃ e, e < 6 ∧ layoutPart (v % 16) e = layoutPart (v % 16) d ∧ cmdRole v e = 1 ∧
        ∀ f < 6, layoutPart (v % 16) f = layoutPart (v % 16) d → cmdRole v f = 1 → f = e := by
  simp only [layoutOk, Bool.and_eq_true, List.contains_iff_mem, List.mem_cons, List.not_mem_nil, or_false, List.all_eq_true, List.mem_range, bne_iff_ne,
    beq_iff_eq, filter_range_length_one, and_assoc, and_imp]

/-! ### A request of the owner port is carried out (R423, R433) -/

theorem Dev.ownerGate_eq {s : Dev} {q : Nat} (hs : s.serves q) (ho : s.isOwner q = true) (f : Dev → Dev) : s.ownerGate q f = f s := by
  obtain ⟨hlink, hrole, hstage⟩ := hs
  simp [Dev.ownerGate, Dev.hostGate, Dev.hostGateIn, hlink, hrole, hstage, ho]

/-! ### The owner credential -/

/-- HLK_OWNSTAT with HOLD, OWNER and NONE written. -/
def Dev.putHold (s : Dev) (hold owner none : Nat) : Dev :=
  ((s.setFld Fld.HLK_OWNSTAT_HOLD 0 hold).setFld Fld.HLK_OWNSTAT_OWNER 0 owner).setFld Fld.HLK_OWNSTAT_NONE 0 none

/-- A change of HOLD writes HLK_OWNSTAT, and tells of a new owner port. -/
theorem Dev.setHold_cases (s : Dev) (h : Nat) :
    ∃ a b, s.setHold h = s.putHold h a b ∨ s.setHold h = (s.putHold h a b).raiseDev Ev.HLK_OWNER := by
  refine ⟨(s.setFld Fld.HLK_OWNSTAT_HOLD 0 h).owner.getD 0, b2n (s.setFld Fld.HLK_OWNSTAT_HOLD 0 h).owner.isNone, ?_⟩
  unfold Dev.setHold
  dsimp only
  split
  · exact .inl rfl
  · exact .inr rfl

/-- What a change of HOLD touches. -/
def holdTouch : Touches where
  reg := fun k i => k = .HLK_OWNSTAT ∧ i = 0

theorem Dev.putHold_frame (s : Dev) (h a b : Nat) : Frame holdTouch s (s.putHold h a b) :=
  ((Frame.setFld holdTouch s Fld.HLK_OWNSTAT_HOLD 0 h ⟨rfl, rfl⟩).trans (Frame.setFld holdTouch _ Fld.HLK_OWNSTAT_OWNER 0 a ⟨rfl, rfl⟩)).trans
    (Frame.setFld holdTouch _ Fld.HLK_OWNSTAT_NONE 0 b ⟨rfl, rfl⟩)

theorem Dev.setHold_frame (s : Dev) (h : Nat) : Frame holdTouch s (s.setHold h) := by
  obtain ⟨a, b, e | e⟩ := s.setHold_cases h
  · exact e ▸ s.putHold_frame h a b
  · exact e ▸ (s.putHold_frame h a b).trans (Frame.raiseDev _ _ _)

theorem Dev.setHold_fld (s : Dev) (h : Nat) (f : Fld) (i : Nat) (hc : f.reg.counting = false) (hf : f.reg ≠ .HLK_OWNSTAT) :
    (s.setHold h).fld f i = s.fld f i := (s.setHold_frame h).fld f i hc (fun e => hf e.1)

theorem Dev.putHold_hold (s : Dev) (h a b : Nat) : (s.putHold h a b).fld Fld.HLK_OWNSTAT_HOLD 0 = h % 64 := by
  unfold Dev.putHold
  rw [Dev.fld_setFld_apart _ _ _ _ _ _ (by decide) (by decide), Dev.fld_setFld_apart _ _ _ _ _ _ (by decide) (by decide),
    Dev.fld_setFld_self _ _ _ _ (by decide)]
  rfl

theorem Dev.setHold_hold (s : Dev) (h : Nat) : (s.setHold h).fld Fld.HLK_OWNSTAT_HOLD 0 = h % 64 := by
  obtain ⟨a, b, e | e⟩ := s.setHold_cases h
  · rw [e, Dev.putHold_hold]
  · rw [e, (Quiet.raiseDev _ _).fld _ _ rfl, Dev.putHold_hold]

theorem testBit_ofBits (xs : List Nat) (i : Nat) : (ofBits xs).testBit i = decide (i ∈ xs) := by
  have hacc : ∀ (xs : List Nat) (a : Nat), (xs.foldl (fun a i => a ||| 2 ^ i) a).testBit i = (a.testBit i || decide (i ∈ xs)) := by
    intro xs
    induction xs with
    | nil => simp
    | cons x xs ih =>
      intro a
      simp only [List.foldl_cons, ih, Nat.testBit_or, Nat.testBit_two_pow, List.mem_cons, Bool.decide_or, Bool.or_assoc, eq_comm]
  simpa [ofBits] using hacc xs 0


/-! ### Roles and partitions of the ports (R417, R441) -/

/-- The writes of one port's role and partition. -/
def Dev.setRole1 (v p : Nat) (s : Dev) : Dev :=
  ((s.setFld Fld.HLK_PSTAT_ROLE p (cmdRole v p)).setFld Fld.HLK_PSTAT_PART p (s.partOf p)).setFld ⟨.HLK_PARTCFG, 2 * p + 4, 2⟩ 0 (cmdRole v p)

theorem Dev.setRoles_eq (s : Dev) (v : Nat) : s.setRoles v =
    (s.each (List.range 6) (Dev.setRole1 v)).setHold
      (ofBits ((setBits 6 ((s.each (List.range 6) (Dev.setRole1 v)).fld Fld.HLK_OWNSTAT_HOLD 0)).filter (fun p => cmdRole v p != 0))) := rfl

/-- What a change of roles touches. -/
def roleTouch : Touches where
  reg := fun k _ => k = .HLK_PSTAT ∨ k = .HLK_PARTCFG ∨ k = .HLK_OWNSTAT

theorem Dev.setRole1_frame (v p : Nat) (s : Dev) : Frame roleTouch s (s.setRole1 v p) :=
  ((Frame.setFld roleTouch s Fld.HLK_PSTAT_ROLE p _ (.inl rfl)).trans (Frame.setFld roleTouch _ Fld.HLK_PSTAT_PART p _ (.inl rfl))).trans
    (Frame.setFld roleTouch _ ⟨.HLK_PARTCFG, 2 * p + 4, 2⟩ 0 _ (.inr (.inl rfl)))

theorem Dev.setRoles_frame (s : Dev) (v : Nat) : Frame roleTouch s (s.setRoles v) := by
  rw [Dev.setRoles_eq]
  exact (Frame.each roleTouch s _ _ (fun p _ t => Dev.setRole1_frame v p t)).trans ((Dev.setHold_frame _ _).reg_mono (fun k i h => .inr (.inr h.1)))

theorem Dev.setRole1_nparts (v p : Nat) (hp : p < 6) (s : Dev) : (s.setRole1 v p).nparts = s.nparts := by
  unfold Dev.nparts Dev.setRole1
  rw [Dev.fld_setFld_apart _ _ _ _ _ _ (by simp; omega) (by simp [Fld.HLK_PARTCFG_PARTS]), Dev.fld_setFld_kind _ _ _ _ _ _ (by decide),
    Dev.fld_setFld_kind _ _ _ _ _ _ (by decide)]

theorem Dev.setRole1_busy (v p : Nat) (hp : p < 6) (s : Dev) : (s.setRole1 v p).flag Fld.HLK_PARTCFG_BUSY 0 = s.flag Fld.HLK_PARTCFG_BUSY 0 := by
  unfold Dev.flag Dev.setRole1
  rw [Dev.fld_setFld_apart _ _ _ _ _ _ (by simp; omega) (by simp [Fld.HLK_PARTCFG_BUSY]; omega), Dev.fld_setFld_kind _ _ _ _ _ _ (by decide),
    Dev.fld_setFld_kind _ _ _ _ _ _ (by decide)]

theorem Dev.setRole1_role (v p : Nat) (s : Dev) : (s.setRole1 v p).fld Fld.HLK_PSTAT_ROLE p = cmdRole v p := by
  unfold Dev.setRole1
  rw [Dev.fld_setFld_kind _ _ _ _ _ _ (by simp [Fld.HLK_PSTAT_ROLE]), Dev.fld_setFld_apart _ _ _ _ _ _ (by decide) (by decide), Dev.fld_setFld_self _ _ _ _ (by decide)]
  exact Nat.mod_eq_of_lt (cmdRole_lt v p)

theorem Dev.setRole1_part (v p : Nat) (hp : p < 6) (s : Dev) : (s.setRole1 v p).fld Fld.HLK_PSTAT_PART p = layoutPart s.nparts p := by
  have hlt := layoutPart_le s.nparts p hp
  unfold Dev.setRole1
  rw [Dev.fld_setFld_kind _ _ _ _ _ _ (by simp [Fld.HLK_PSTAT_PART]), Dev.fld_setFld_self _ _ _ _ (by decide)]
  exact Nat.mod_eq_of_lt (by simp only [Fld.HLK_PSTAT_PART, Dev.partOf]; omega)

/-- The writes of one port leave another port's HLK_PSTAT alone. -/
theorem Dev.setRole1_ne (v : Nat) {p d : Nat} (h : d ≠ p) (f : Fld) (hf : f.reg = .HLK_PSTAT) (s : Dev) : (s.setRole1 v p).fld f d = s.fld f d := by
  unfold Dev.setRole1
  rw [Dev.fld_setFld_kind _ _ _ _ _ _ (by simp [hf]), Dev.fld_setFld_inst _ _ _ _ _ _ h, Dev.fld_setFld_inst _ _ _ _ _ _ h]

/-- What a change of roles leaves: the layout and BUSY as they were, each port's role and partition, and no HOLD on an OFF port. -/
structure RolesSet (v : Nat) (s t : Dev) : Prop where
  nparts : t.nparts = s.nparts
  busy : t.flag Fld.HLK_PARTCFG_BUSY 0 = s.flag Fld.HLK_PARTCFG_BUSY 0
  role : ∀ d < 6, t.fld Fld.HLK_PSTAT_ROLE d = cmdRole v d
  part : ∀ d < 6, t.fld Fld.HLK_PSTAT_PART d = layoutPart s.nparts d
  hold : ∀ d < 6, (t.fld Fld.HLK_OWNSTAT_HOLD 0).testBit d = ((s.fld Fld.HLK_OWNSTAT_HOLD 0).testBit d && decide (cmdRole v d ≠ 0))

theorem testBit_mod_64 (n d : Nat) (hd : d < 6) : (n % 64).testBit d = n.testBit d := by
  rw [show 64 = 2 ^ 6 by rfl, Nat.testBit_mod_two_pow]
  simp [hd]

theorem Dev.eachRole_nparts (s : Dev) (v : Nat) : (s.each (List.range 6) (Dev.setRole1 v)).nparts = s.nparts :=
  Dev.each_keeps Dev.nparts _ _ (fun p hp t => Dev.setRole1_nparts v p (List.mem_range.1 hp) t) s

theorem Dev.eachRole_busy (s : Dev) (v : Nat) :
    (s.each (List.range 6) (Dev.setRole1 v)).flag Fld.HLK_PARTCFG_BUSY 0 = s.flag Fld.HLK_PARTCFG_BUSY 0 :=
  Dev.each_keeps (fun t => t.flag Fld.HLK_PARTCFG_BUSY 0) _ _ (fun p hp t => Dev.setRole1_busy v p (List.mem_range.1 hp) t) s

theorem Dev.eachRole_role (s : Dev) (v : Nat) {d : Nat} (hd : d < 6) :
    (s.each (List.range 6) (Dev.setRole1 v)).fld Fld.HLK_PSTAT_ROLE d = cmdRole v d := by
  refine Dev.each_establishes (fun t => t.fld Fld.HLK_PSTAT_ROLE d = cmdRole v d) _ (List.mem_range.2 hd) (fun t => Dev.setRole1_role v d t)
    (fun y _ t ht => ?_) s
  rcases eq_or_ne d y with rfl | hne
  · exact Dev.setRole1_role v d t
  · exact (Dev.setRole1_ne v hne _ rfl t).trans ht

theorem Dev.eachRole_part (s : Dev) (v : Nat) {d : Nat} (hd : d < 6) :
    (s.each (List.range 6) (Dev.setRole1 v)).fld Fld.HLK_PSTAT_PART d = layoutPart s.nparts d := by
  rw [← s.eachRole_nparts v]
  refine Dev.each_establishes (fun t => t.fld Fld.HLK_PSTAT_PART d = layoutPart t.nparts d) _ (List.mem_range.2 hd) (fun t => ?_)
    (fun y hy t ht => ?_) s
  · rw [Dev.setRole1_part v d hd, Dev.setRole1_nparts v d hd]
  · rw [Dev.setRole1_nparts v y (List.mem_range.1 hy)]
    rcases eq_or_ne d y with rfl | hne
    · exact Dev.setRole1_part v d hd t
    · exact (Dev.setRole1_ne v hne _ rfl t).trans ht

theorem Dev.setRoles_set (s : Dev) (v : Nat) : RolesSet v s (s.setRoles v) := by
  rw [Dev.setRoles_eq]
  refine ⟨?_, ?_, fun d hd => ?_, fun d hd => ?_, fun d hd => ?_⟩
  · exact (Dev.setHold_fld _ _ _ _ rfl (by decide)).trans (s.eachRole_nparts v)
  · rw [Dev.flag, Dev.setHold_fld _ _ _ _ rfl (by decide)]
    exact s.eachRole_busy v
  · rw [Dev.setHold_fld _ _ _ _ rfl (by decide), s.eachRole_role v hd]
  · rw [Dev.setHold_fld _ _ _ _ rfl (by decide), s.eachRole_part v hd]
  · have hkept : (s.each (List.range 6) (Dev.setRole1 v)).fld Fld.HLK_OWNSTAT_HOLD 0 = s.fld Fld.HLK_OWNSTAT_HOLD 0 :=
      Dev.each_keeps (fun t => t.fld Fld.HLK_OWNSTAT_HOLD 0) _ _ (fun p _ t => by
        unfold Dev.setRole1
        simp only [Dev.fld_setFld_kind, Fld.HLK_OWNSTAT_HOLD, Fld.HLK_PSTAT_ROLE, Fld.HLK_PSTAT_PART, ne_eq, reduceCtorEq, not_false_eq_true]) s
    rw [Dev.setHold_hold, testBit_mod_64 _ _ hd, testBit_ofBits, hkept]
    simp [setBits, hd, Bool.and_comm]

/-! ### A new layout (R437, R325) -/

/-- What a new layout does to a die whose set changes. -/
def Dev.scrubDie (d : Nat) (s : Dev) : Dev := (if s.fenced d then s else s.zeroDie d).setFld Fld.STEP_STAT_UNCERT d 0

/-- The registers of one copy queue at reset. -/
def Dev.resetQueue (d n : Nat) (s : Dev) : Dev :=
  ((((s.clearReg .HLK_Q_BASE (qIdx d n)).clearReg .HLK_Q_CBASE (qIdx d n)).clearReg .HLK_Q_CFG (qIdx d n)).clearReg .HLK_Q_DB (qIdx d n)).clearReg
    .HLK_Q_STAT (qIdx d n)

/-- A die's queues and reads forgotten. -/
def Dev.dropQueues (s : Dev) (d : Nat) : Dev := (s.setPart d { s.part d with queues := [] }).setHost d { s.hostPort d with reads := [] }

theorem Dev.dropQueues_reg (s : Dev) (d : Nat) (k : RegKind) (i : Nat) : (s.dropQueues d).reg k i = s.reg k i := rfl
theorem Dev.dropQueues_mem (s : Dev) (d : Nat) : (s.dropQueues d).mem = s.mem := rfl
theorem Dev.dropQueues_part (s : Dev) (d : Nat) : ((s.dropQueues d).part d).queues = [] := by
  simp only [Dev.dropQueues, Dev.setHost_part, Dev.setPart_self]
theorem Dev.dropQueues_part_ne (s : Dev) {d e : Nat} (h : d ≠ e) : (s.dropQueues e).part d = s.part d := by
  simp only [Dev.dropQueues, Dev.setHost_part, Dev.setPart_ne _ _ _ _ h]

/-- The mask, slice and queues of a die at reset. -/
def Dev.resetHostRegs (d : Nat) (s : Dev) : Dev :=
  (((s.clearReg .HLK_IMASK d).clearReg .FAB_PARTSLICE d).each (List.range 16) (Dev.resetQueue d)).dropQueues d

/-- The dies whose sets change with a layout. -/
def Dev.changedDies (s : Dev) (parts : Nat) : List Nat :=
  (List.range 6).filter (fun d => (List.range 6).filter (fun e => layoutPart s.nparts e == layoutPart s.nparts d)
    != (List.range 6).filter (fun e => layoutPart parts e == layoutPart parts d))

theorem Dev.setLayout_eq (s : Dev) (parts : Nat) : s.setLayout parts =
    ((s.each (s.changedDies parts) Dev.scrubDie).each (List.range 6) Dev.resetHostRegs).setFld Fld.HLK_PARTCFG_PARTS 0 parts := rfl

theorem Dev.mem_changedDies (s : Dev) (parts d : Nat) : d ∈ s.changedDies parts ↔
    d < 6 ∧ ∃ e < 6, ¬ (layoutPart parts e = layoutPart parts d ↔ s.partOf e = s.partOf d) := by
  have hne : ∀ (P Q : Nat → Bool), (List.range 6).filter P ≠ (List.range 6).filter Q ↔ ∃ e < 6, P e ≠ Q e := by
    intro P Q
    refine ⟨fun h => ?_, fun ⟨e, he, hPQ⟩ h => hPQ ?_⟩
    · by_contra hall
      push Not at hall
      exact h (List.filter_congr (fun e he => hall e (List.mem_range.1 he)))
    · have hmem : e ∈ (List.range 6).filter P ↔ e ∈ (List.range 6).filter Q := by rw [h]
      simpa [he, ← Bool.eq_iff_iff] using hmem
  simp only [Dev.changedDies, List.mem_filter, List.mem_range, bne_iff_ne, hne, Dev.partOf]
  refine and_congr_right fun _ => exists_congr fun e => and_congr_right fun _ => ?_
  rw [ne_comm, ne_eq, Bool.eq_iff_iff, beq_iff_eq, beq_iff_eq]

/-- The bytes of a die's stacks and of its cores' strides (R26, R27). -/
def dieByte (d a : Nat) : Prop :=
  (4 * d * stackSize ≤ a ∧ a < (4 * d + 4) * stackSize) ∨ (strideAddr (8192 * d) 0 ≤ a ∧ a < strideAddr (8192 * d + 8192) 0)

theorem Dev.byte_zeroDie (s : Dev) (d a : Nat) [Decidable (dieByte d a)] :
    Memory.byte (s.zeroDie d).mem a = if dieByte d a then 0 else Memory.byte s.mem a := by
  have hs : 4 * d * stackSize ≤ (4 * d + 4) * stackSize := Nat.mul_le_mul_right _ (by omega)
  have hc : strideAddr (8192 * d) 0 ≤ strideAddr (8192 * (d + 1)) 0 := by simp only [strideAddr, strideSize]; omega
  have hbyte : Memory.byte (s.zeroDie d).mem a =
      SMap.read 0 (SMap.clear (SMap.clear s.mem (4 * d * stackSize) ((4 * d + 4) * stackSize)) (strideAddr (8192 * d) 0)
        (strideAddr (8192 * (d + 1)) 0)) a := rfl
  rw [hbyte, SMap.read_clear _ _ _ _ _ hc, SMap.read_clear _ _ _ _ _ hs, show 8192 * (d + 1) = 8192 * d + 8192 by ring]
  unfold dieByte
  by_cases h1 : 4 * d * stackSize ≤ a ∧ a < (4 * d + 4) * stackSize <;>
    by_cases h2 : strideAddr (8192 * d) 0 ≤ a ∧ a < strideAddr (8192 * d + 8192) 0 <;> simp [h1, h2, Memory.byte]

theorem Dev.scrubDie_reg (d : Nat) (s : Dev) {k : RegKind} (i : Nat) (hk : k ≠ .STEP_STAT) : (s.scrubDie d).reg k i = s.reg k i := by
  unfold Dev.scrubDie
  rw [Dev.reg_setFld_kind _ _ _ _ _ _ hk]
  split <;> rfl

theorem Dev.scrubDie_uncert (d : Nat) (s : Dev) : (s.scrubDie d).flag Fld.STEP_STAT_UNCERT d = false := by
  unfold Dev.flag Dev.scrubDie
  rw [Dev.fld_setFld_self _ _ _ _ (by decide)]
  rfl

theorem Dev.scrubDie_uncert_keeps (d e : Nat) (s : Dev) (h : s.flag Fld.STEP_STAT_UNCERT e = false) :
    (s.scrubDie d).flag Fld.STEP_STAT_UNCERT e = false := by
  rcases eq_or_ne e d with rfl | hne
  · exact Dev.scrubDie_uncert e s
  · unfold Dev.flag Dev.scrubDie
    rw [Dev.fld_setFld_inst _ _ _ _ _ _ hne]
    split <;> exact h

theorem Dev.scrubDie_fenced (d e : Nat) (s : Dev) : (s.scrubDie d).fenced e = s.fenced e := by
  unfold Dev.fenced Dev.flag Dev.fld
  rw [Dev.scrubDie_reg d s e (by decide)]

theorem Dev.byte_scrubDie (d a : Nat) (s : Dev) [Decidable (dieByte d a)] :
    Memory.byte (s.scrubDie d).mem a = if s.fenced d = false ∧ dieByte d a then 0 else Memory.byte s.mem a := by
  unfold Dev.scrubDie
  rw [Dev.setFld_mem]
  cases hf : s.fenced d
  · simpa using Dev.byte_zeroDie s d a
  · simp

/-! ### A register at its reset value -/

/-- A register holds its reset value. -/
def Dev.AtReset (s : Dev) (k : RegKind) (i : Nat) : Prop := s.reg k i = regReset k i % 2 ^ 64

theorem Dev.atReset_clearReg_self (s : Dev) (k : RegKind) (i : Nat) : (s.clearReg k i).AtReset k i := Dev.reg_setReg_self s k i _

theorem Dev.AtReset.clearReg {s : Dev} {k : RegKind} {i : Nat} (h : s.AtReset k i) (k' : RegKind) (i' : Nat) : (s.clearReg k' i').AtReset k i := by
  by_cases he : k = k' ∧ i = i'
  · obtain ⟨rfl, rfl⟩ := he
    exact Dev.atReset_clearReg_self s k i
  · exact (Dev.reg_setReg_ne s k' k i' i _ he).trans h

theorem Dev.AtReset.resetQueue {s : Dev} {k : RegKind} {i : Nat} (h : s.AtReset k i) (d n : Nat) : (s.resetQueue d n).AtReset k i :=
  ((((h.clearReg _ _).clearReg _ _).clearReg _ _).clearReg _ _).clearReg _ _

theorem Dev.atReset_resetQueue_cfg (s : Dev) (d n : Nat) : (s.resetQueue d n).AtReset .HLK_Q_CFG (qIdx d n) :=
  ((Dev.atReset_clearReg_self _ .HLK_Q_CFG (qIdx d n)).clearReg _ _).clearReg _ _

theorem Dev.AtReset.resetQueues {s : Dev} {k : RegKind} {i : Nat} (h : s.AtReset k i) (d : Nat) :
    (s.each (List.range 16) (Dev.resetQueue d)).AtReset k i :=
  Dev.each_induction (fun t => t.AtReset k i) _ _ (fun n _ _ ht => ht.resetQueue d n) s h

/-- The registers of a die after the reset of its host registers. -/
theorem Dev.resetHostRegs_reg_eq (d : Nat) (s : Dev) (k : RegKind) (i : Nat) : (s.resetHostRegs d).reg k i =
    (((s.clearReg .HLK_IMASK d).clearReg .FAB_PARTSLICE d).each (List.range 16) (Dev.resetQueue d)).reg k i := by
  rw [Dev.resetHostRegs, Dev.dropQueues_reg]

theorem Dev.AtReset.resetHostRegs {s : Dev} {k : RegKind} {i : Nat} (h : s.AtReset k i) (d : Nat) : (s.resetHostRegs d).AtReset k i := by
  rw [Dev.AtReset, Dev.resetHostRegs_reg_eq]
  exact ((h.clearReg _ _).clearReg _ _).resetQueues d

theorem Dev.atReset_resetHostRegs_mask (d : Nat) (s : Dev) : (s.resetHostRegs d).AtReset .HLK_IMASK d := by
  rw [Dev.AtReset, Dev.resetHostRegs_reg_eq]
  exact ((Dev.atReset_clearReg_self s .HLK_IMASK d).clearReg _ _).resetQueues d

theorem Dev.atReset_resetHostRegs_slice (d : Nat) (s : Dev) : (s.resetHostRegs d).AtReset .FAB_PARTSLICE d := by
  rw [Dev.AtReset, Dev.resetHostRegs_reg_eq]
  exact (Dev.atReset_clearReg_self _ .FAB_PARTSLICE d).resetQueues d

theorem Dev.atReset_resetHostRegs_cfg (d m : Nat) (hm : m < 16) (s : Dev) : (s.resetHostRegs d).AtReset .HLK_Q_CFG (qIdx d m) := by
  rw [Dev.AtReset, Dev.resetHostRegs_reg_eq]
  exact Dev.each_establishes (fun t => t.AtReset .HLK_Q_CFG (qIdx d m)) _ (List.mem_range.2 hm) (fun t => t.atReset_resetQueue_cfg d m)
    (fun n _ _ ht => ht.resetQueue d n) _

/-- What one die's reset of its host registers establishes and every die's keeps holds once all dies' are reset. -/
theorem Dev.atReset_eachHostRegs {k : RegKind} {i d : Nat} (hd : d < 6) (h : ∀ s : Dev, (s.resetHostRegs d).AtReset k i) (s : Dev) :
    (s.each (List.range 6) Dev.resetHostRegs).AtReset k i :=
  Dev.each_establishes (fun t => t.AtReset k i) _ (List.mem_range.2 hd) h (fun e _ _ ht => ht.resetHostRegs e) s

/-- The registers that a new layout resets. -/
def hostRegKinds : List RegKind := [.HLK_IMASK, .FAB_PARTSLICE, .HLK_Q_BASE, .HLK_Q_CBASE, .HLK_Q_CFG, .HLK_Q_DB, .HLK_Q_STAT]

theorem Dev.reg_clearReg_kind (s : Dev) {k k' : RegKind} (i i' : Nat) (h : k ≠ k') : (s.clearReg k' i').reg k i = s.reg k i :=
  Dev.reg_setReg_kind s k' k i' i _ h

theorem Dev.resetQueue_reg (d n : Nat) (s : Dev) {k : RegKind} (i : Nat) (hk : k ∉ hostRegKinds) : (s.resetQueue d n).reg k i = s.reg k i := by
  simp only [hostRegKinds, List.mem_cons, List.not_mem_nil, or_false, not_or] at hk
  obtain ⟨-, -, hbase, hcbase, hcfg, hdb, hstat⟩ := hk
  simp only [Dev.resetQueue, Dev.reg_clearReg_kind, ne_eq, hbase, hcbase, hcfg, hdb, hstat, not_false_eq_true]

theorem Dev.resetHostRegs_reg (d : Nat) (s : Dev) {k : RegKind} (i : Nat) (hk : k ∉ hostRegKinds) : (s.resetHostRegs d).reg k i = s.reg k i := by
  have hqueues := Dev.each_keeps (fun t => t.reg k i) (List.range 16) (Dev.resetQueue d) (fun n _ t => Dev.resetQueue_reg d n t i hk)
    ((s.clearReg .HLK_IMASK d).clearReg .FAB_PARTSLICE d)
  simp only [hostRegKinds, List.mem_cons, List.not_mem_nil, or_false, not_or] at hk
  rw [Dev.resetHostRegs_reg_eq, hqueues]
  exact (Dev.reg_clearReg_kind _ _ _ hk.2.1).trans (Dev.reg_clearReg_kind _ _ _ hk.1)

theorem Dev.resetQueue_mem (d n : Nat) (s : Dev) : (s.resetQueue d n).mem = s.mem := by
  simp only [Dev.resetQueue, Dev.clearReg_mem]

theorem Dev.resetQueue_part (d n p : Nat) (s : Dev) : (s.resetQueue d n).part p = s.part p := by
  simp only [Dev.resetQueue, Dev.clearReg_part]

theorem Dev.resetHostRegs_mem (d : Nat) (s : Dev) : (s.resetHostRegs d).mem = s.mem := by
  have hqueues := Dev.each_keeps Dev.mem (List.range 16) (Dev.resetQueue d) (fun n _ t => t.resetQueue_mem d n)
    ((s.clearReg .HLK_IMASK d).clearReg .FAB_PARTSLICE d)
  rw [Dev.resetHostRegs, Dev.dropQueues_mem, hqueues, Dev.clearReg_mem, Dev.clearReg_mem]

theorem Dev.resetHostRegs_queues_self (d : Nat) (s : Dev) : ((s.resetHostRegs d).part d).queues = [] := by
  rw [Dev.resetHostRegs, Dev.dropQueues_part]

theorem Dev.resetHostRegs_queues_keeps (d e : Nat) (s : Dev) (h : (s.part d).queues = []) : ((s.resetHostRegs e).part d).queues = [] := by
  rcases eq_or_ne d e with rfl | hne
  · exact s.resetHostRegs_queues_self d
  · have hparts := Dev.each_keeps (fun t => t.part d) (List.range 16) (Dev.resetQueue e) (fun n _ t => t.resetQueue_part e n d)
      ((s.clearReg .HLK_IMASK e).clearReg .FAB_PARTSLICE e)
    rw [Dev.resetHostRegs, Dev.dropQueues_part_ne _ hne, hparts, Dev.clearReg_part, Dev.clearReg_part, h]

/-- What a new layout leaves (R325, R437). -/
structure LayoutSet (parts : Nat) (s t : Dev) : Prop where
  nparts : t.nparts = parts
  busy : t.flag Fld.HLK_PARTCFG_BUSY 0 = s.flag Fld.HLK_PARTCFG_BUSY 0
  hold : t.fld Fld.HLK_OWNSTAT_HOLD 0 = s.fld Fld.HLK_OWNSTAT_HOLD 0
  scrubbed : ∀ d ∈ s.changedDies parts, s.fenced d = false → ∀ a, dieByte d a → Memory.byte t.mem a = 0
  kept : ∀ a, (∀ d ∈ s.changedDies parts, s.fenced d = false → ¬ dieByte d a) → Memory.byte t.mem a = Memory.byte s.mem a
  certain : ∀ d ∈ s.changedDies parts, t.flag Fld.STEP_STAT_UNCERT d = false
  mask : ∀ d < 6, t.AtReset .HLK_IMASK d
  slice : ∀ d < 6, t.AtReset .FAB_PARTSLICE d
  config : ∀ d < 6, ∀ m < 16, t.AtReset .HLK_Q_CFG (qIdx d m)
  queues : ∀ d < 6, (t.part d).queues = []

theorem Dev.eachScrub_reg (ds : List Nat) (s : Dev) {k : RegKind} (i : Nat) (hk : k ≠ .STEP_STAT) : (s.each ds Dev.scrubDie).reg k i = s.reg k i :=
  Dev.each_keeps (fun t => t.reg k i) ds Dev.scrubDie (fun d _ t => Dev.scrubDie_reg d t i hk) s

open Classical in
theorem Dev.eachScrub_scrubbed (ds : List Nat) (s : Dev) {d a : Nat} (hd : d ∈ ds) (hf : s.fenced d = false) (ha : dieByte d a) :
    Memory.byte (s.each ds Dev.scrubDie).mem a = 0 := by
  have hlive : (s.each ds Dev.scrubDie).fenced d = false :=
    (Dev.each_keeps (fun t => t.fenced d) ds Dev.scrubDie (fun e _ t => Dev.scrubDie_fenced e d t) s).trans hf
  refine Dev.each_establishes (fun t => t.fenced d = false → Memory.byte t.mem a = 0) Dev.scrubDie hd (fun t ht => ?_) (fun e _ t ht hte => ?_) s hlive
  · rw [Dev.scrubDie_fenced] at ht
    rw [Dev.byte_scrubDie, if_pos ⟨ht, ha⟩]
  · rw [Dev.scrubDie_fenced] at hte
    rw [Dev.byte_scrubDie, ht hte, ite_self]

open Classical in
theorem Dev.eachScrub_kept (ds : List Nat) (s : Dev) {a : Nat} (h : ∀ d ∈ ds, s.fenced d = false → ¬ dieByte d a) :
    Memory.byte (s.each ds Dev.scrubDie).mem a = Memory.byte s.mem a := by
  refine (Dev.each_induction (fun t => (∀ d, t.fenced d = s.fenced d) ∧ Memory.byte t.mem a = Memory.byte s.mem a) Dev.scrubDie ds
    (fun d hd t ⟨hfenced, hbyte⟩ => ⟨fun e => ?_, ?_⟩) s ⟨fun _ => rfl, rfl⟩).2
  · rw [Dev.scrubDie_fenced, hfenced]
  · rw [Dev.byte_scrubDie, if_neg (fun hc => h d hd ((hfenced d).symm.trans hc.1) hc.2), hbyte]

/-- The writes of a layout after the scrub: registers that are neither host registers nor HLK_PARTCFG stay. -/
theorem Dev.setLayout_reg (s : Dev) (parts : Nat) {k : RegKind} (i : Nat) (hk : k ∉ hostRegKinds) (hp : k ≠ .HLK_PARTCFG) :
    (s.setLayout parts).reg k i = (s.each (s.changedDies parts) Dev.scrubDie).reg k i := by
  rw [Dev.setLayout_eq, Dev.reg_setFld_kind _ _ _ _ _ _ hp]
  exact Dev.each_keeps (fun t => t.reg k i) _ _ (fun d _ t => Dev.resetHostRegs_reg d t i hk) _

theorem Dev.setLayout_mem (s : Dev) (parts : Nat) : (s.setLayout parts).mem = (s.each (s.changedDies parts) Dev.scrubDie).mem := by
  rw [Dev.setLayout_eq, Dev.setFld_mem]
  exact Dev.each_keeps Dev.mem (List.range 6) Dev.resetHostRegs (fun d _ t => Dev.resetHostRegs_mem d t) _

/-- A register that the last write of a layout does not touch is at reset where the dies' resets left it so. -/
theorem Dev.setLayout_atReset (s : Dev) (parts : Nat) {k : RegKind} {i d : Nat} (hd : d < 6) (hk : k ≠ .HLK_PARTCFG)
    (h : ∀ t : Dev, (t.resetHostRegs d).AtReset k i) : (s.setLayout parts).AtReset k i := by
  rw [Dev.setLayout_eq, Dev.AtReset, Dev.reg_setFld_kind _ _ _ _ _ _ hk]
  exact Dev.atReset_eachHostRegs hd h _

theorem Dev.setLayout_set (s : Dev) {parts : Nat} (hparts : parts < 16) : LayoutSet parts s (s.setLayout parts) where
  nparts := by
    rw [Dev.setLayout_eq, Dev.nparts, Dev.fld_setFld_self _ _ _ _ (by decide)]
    exact Nat.mod_eq_of_lt hparts
  busy := by
    have hreg : ((s.each (s.changedDies parts) Dev.scrubDie).each (List.range 6) Dev.resetHostRegs).reg .HLK_PARTCFG 0 = s.reg .HLK_PARTCFG 0 :=
      (Dev.each_keeps (fun t => t.reg .HLK_PARTCFG 0) _ _ (fun d _ t => Dev.resetHostRegs_reg d t 0 (by decide)) _).trans
        (Dev.eachScrub_reg _ s 0 (by decide))
    rw [Dev.setLayout_eq, Dev.flag, Dev.fld_setFld_apart _ _ _ _ _ _ (by decide) (by decide), Dev.fld_congr Fld.HLK_PARTCFG_BUSY 0 hreg]
    rfl
  hold := by
    exact Dev.fld_congr Fld.HLK_OWNSTAT_HOLD 0 ((s.setLayout_reg parts 0 (by decide) (by decide)).trans (Dev.eachScrub_reg _ s 0 (by decide)))
  scrubbed d hd hf a ha := by rw [Dev.setLayout_mem, Dev.eachScrub_scrubbed _ s hd hf ha]
  kept a h := by rw [Dev.setLayout_mem, Dev.eachScrub_kept _ s h]
  certain d hd := by
    have huncert : (s.each (s.changedDies parts) Dev.scrubDie).flag Fld.STEP_STAT_UNCERT d = false :=
      Dev.each_establishes (fun t => t.flag Fld.STEP_STAT_UNCERT d = false) _ hd (Dev.scrubDie_uncert d)
        (fun e _ t ht => Dev.scrubDie_uncert_keeps e d t ht) s
    rw [Dev.flag, Dev.fld_congr Fld.STEP_STAT_UNCERT d (s.setLayout_reg parts d (by decide) (by decide))]
    exact huncert
  mask d hd := s.setLayout_atReset parts hd (by decide) (Dev.atReset_resetHostRegs_mask d)
  slice d hd := s.setLayout_atReset parts hd (by decide) (Dev.atReset_resetHostRegs_slice d)
  config d hd m hm := s.setLayout_atReset parts hd (by decide) (Dev.atReset_resetHostRegs_cfg d m hm)
  queues d hd := by
    rw [Dev.setLayout_eq, Dev.setFld_part]
    exact Dev.each_establishes (fun t => (t.part d).queues = []) _ (List.mem_range.2 hd) (Dev.resetHostRegs_queues_self d)
      (fun e _ t ht => Dev.resetHostRegs_queues_keeps d e t ht) _

/-! ### A write of HLK_PARTCMD -/

/-- Whether a write of HLK_PARTCMD is refused (R437, R441). -/
def Dev.partRefused (s : Dev) (v : Nat) : Prop :=
  layoutOk v = false ∨ s.flag Fld.HLK_PARTCFG_BUSY 0 = true ∨ (v % 16 ≠ s.nparts ∧ s.layoutFree = false) ∨
    (v % 16 = s.nparts ∧ s.rolesFree v = false)

theorem Dev.partCmd_refused {s : Dev} {v : Nat} (h : s.partRefused v) : s.partCmd v = s.raiseDev Ev.HLK_REFUSED := by
  unfold Dev.partCmd
  refine if_pos ?_
  rcases h with h | h | ⟨hn, h⟩ | ⟨hn, h⟩ <;> simp [*]

/-- The module with BUSY set, as a write of HLK_PARTCMD leaves it until the command completes. -/
def Dev.partBusy (s : Dev) : Dev := s.setFld Fld.HLK_PARTCFG_BUSY 0 1

theorem Dev.partBusy_busy (s : Dev) : s.partBusy.flag Fld.HLK_PARTCFG_BUSY 0 = true := by
  rw [Dev.flag, Dev.partBusy, Dev.fld_setFld_self _ _ _ _ (by decide)]
  rfl

theorem Dev.partBusy_nparts (s : Dev) : s.partBusy.nparts = s.nparts := Dev.fld_setFld_apart _ _ _ _ _ _ (by decide) (by decide)

theorem Dev.partBusy_fld (s : Dev) (f : Fld) (i : Nat) (hf : f.reg ≠ .HLK_PARTCFG) : s.partBusy.fld f i = s.fld f i :=
  Dev.fld_setFld_kind _ _ _ _ _ _ hf

theorem Dev.partBusy_fenced (s : Dev) (d : Nat) : s.partBusy.fenced d = s.fenced d := by
  unfold Dev.fenced Dev.flag
  rw [s.partBusy_fld _ _ (by decide)]

theorem Dev.partBusy_changedDies (s : Dev) (parts : Nat) : s.partBusy.changedDies parts = s.changedDies parts := by
  simp only [Dev.changedDies, Dev.partBusy_nparts]

theorem Dev.partCmd_layout {s : Dev} {v : Nat} (hok : layoutOk v = true) (hb : s.flag Fld.HLK_PARTCFG_BUSY 0 = false) (hn : v % 16 ≠ s.nparts)
    (hfree : s.layoutFree = true) : s.partCmd v = (s.partBusy.setLayout (v % 16)).setRoles v := by
  unfold Dev.partCmd
  simp [hok, hb, hn, hfree, Dev.partBusy]

theorem Dev.partCmd_roles {s : Dev} {v : Nat} (hok : layoutOk v = true) (hb : s.flag Fld.HLK_PARTCFG_BUSY 0 = false) (hn : v % 16 = s.nparts)
    (hfree : s.rolesFree v = true) : s.partCmd v = s.partBusy.setRoles v := by
  unfold Dev.partCmd
  simp [hok, hb, hn, hfree, Dev.partBusy]

/-- What an accepted write of HLK_PARTCMD gives: BUSY, the layout, each port's role and partition, and HOLD on no OFF port. -/
structure PartGiven (v : Nat) (s t : Dev) : Prop where
  busy : t.flag Fld.HLK_PARTCFG_BUSY 0 = true
  nparts : t.nparts = v % 16
  role : ∀ d < 6, t.fld Fld.HLK_PSTAT_ROLE d = cmdRole v d
  part : ∀ d < 6, t.fld Fld.HLK_PSTAT_PART d = layoutPart (v % 16) d
  hold : ∀ d < 6, (t.fld Fld.HLK_OWNSTAT_HOLD 0).testBit d = ((s.fld Fld.HLK_OWNSTAT_HOLD 0).testBit d && decide (cmdRole v d ≠ 0))

theorem RolesSet.given {v : Nat} {s u t : Dev} (h : RolesSet v u t) (hb : u.flag Fld.HLK_PARTCFG_BUSY 0 = true) (hn : u.nparts = v % 16)
    (hh : u.fld Fld.HLK_OWNSTAT_HOLD 0 = s.fld Fld.HLK_OWNSTAT_HOLD 0) : PartGiven v s t :=
  ⟨h.busy.trans hb, h.nparts.trans hn, h.role, fun d hd => (h.part d hd).trans (by rw [hn]), fun d hd => (h.hold d hd).trans (by rw [hh])⟩

theorem Dev.setLayout_partBusy (s : Dev) (v : Nat) : LayoutSet (v % 16) s.partBusy (s.partBusy.setLayout (v % 16)) :=
  s.partBusy.setLayout_set (Nat.mod_lt _ (by decide))

theorem Dev.partCmd_layout_given (s : Dev) (v : Nat) : PartGiven v s ((s.partBusy.setLayout (v % 16)).setRoles v) :=
  have hlayout := s.setLayout_partBusy v
  (Dev.setRoles_set _ v).given (hlayout.busy.trans s.partBusy_busy) hlayout.nparts (hlayout.hold.trans (s.partBusy_fld _ _ (by decide)))

theorem Dev.partCmd_roles_given (s : Dev) {v : Nat} (hn : v % 16 = s.nparts) : PartGiven v s (s.partBusy.setRoles v) :=
  (Dev.setRoles_set _ v).given s.partBusy_busy (s.partBusy_nparts.trans hn.symm) (s.partBusy_fld _ _ (by decide))

/-- A register at reset after a new layout is so after the roles are set. -/
theorem Dev.setRoles_atReset {s : Dev} (v : Nat) {k : RegKind} {i : Nat} (h : s.AtReset k i) (hc : k.counting = false) (hk : ¬ roleTouch.reg k i)
    (hlt : regReset k i < 2 ^ 64) : (s.setRoles v).reg k i = regReset k i :=
  ((s.setRoles_frame v).reg k i hc hk).trans (h.trans (Nat.mod_eq_of_lt hlt))

/-- Settles O45: what one write of HLK_PARTCMD does, by the layout and roles it names, and what a refused one does. -/
theorem partitionCommandsOfOwner : Obligations.PartitionCommandsOfOwner := by
  unfold Obligations.PartitionCommandsOfOwner
  intro s port value v n owns role lowest good busy changed dieBytes given refused
  have hrole : ∀ d, role d = cmdRole v d := fun d => (cmdRole_eq v d).symm
  have hlowest : ∀ d, lowest n d = layoutPart n d := fun _ => rfl
  have hgood : good ↔ layoutOk v = true := by
    simp only [good, hrole, hlowest]
    exact (layoutOk_iff v).symm
  have hchanged : ∀ d < 6, changed d ↔ d ∈ s.dev.changedDies n ∧ s.dev.fenced d = false := by
    intro d hd
    simp only [changed, hlowest, Dev.mem_changedDies, hd, true_and]
    exact and_comm
  have hgiven : ∀ t : State, PartGiven v s.dev t.dev → t.flash = s.flash → given t := fun t h hf =>
    ⟨h.busy, hf, h.nparts, fun d hd => ⟨(h.role d hd).trans (hrole d).symm, h.part d hd, (h.hold d hd).trans (by rw [hrole])⟩⟩
  have hexec : owns → exec (.partitionLayoutChange port value) s = ok s (s.dev.partCmd v) ∧
      exec (.partitionRoleChange port value) s = ok s (s.dev.partCmd v) := fun ho =>
    ⟨congrArg (ok s) (Dev.ownerGate_eq ho.1 ho.2 _), congrArg (ok s) (Dev.ownerGate_eq ho.1 ho.2 _)⟩
  refine ⟨fun ho hg hb hn hfree => ?_, fun ho hg hb hn hfree => ?_, fun ho hbad => ?_, ?_⟩
  · rw [(hexec ho).1, Dev.partCmd_layout (hgood.1 hg) hb hn hfree]
    have hlayout := s.dev.setLayout_partBusy v
    have hframe := (s.dev.partBusy.setLayout (v % 16)).setRoles_frame v
    refine ⟨_, rfl, hgiven _ (s.dev.partCmd_layout_given v) rfl, fun d hd hc a ha => ?_, fun a ha => ?_, fun d hd => ⟨?_, ?_, fun he => ?_, fun m hm => ⟨?_, ?_⟩⟩⟩
    · obtain ⟨hmem, hf⟩ := (hchanged d hd).1 hc
      exact (hframe.byte a id).trans (hlayout.scrubbed d (s.dev.partBusy_changedDies n ▸ hmem) ((s.dev.partBusy_fenced d).trans hf) a ha)
    · refine (hframe.byte a id).trans (hlayout.kept a fun d hd hf => ?_)
      rw [Dev.partBusy_changedDies] at hd
      rw [Dev.partBusy_fenced] at hf
      have hlt := ((Dev.mem_changedDies s.dev _ d).1 hd).1
      exact ha d hlt ((hchanged d hlt).2 ⟨hd, hf⟩)
    · exact Dev.setRoles_atReset v (hlayout.mask d hd) rfl (by simp [roleTouch]) (by change fieldsReset _ < _; decide)
    · exact Dev.setRoles_atReset v (hlayout.slice d hd) rfl (by simp [roleTouch]) (by change fieldsReset _ < _; decide)
    · have hmem : d ∈ s.dev.partBusy.changedDies n := s.dev.partBusy_changedDies n ▸ (Dev.mem_changedDies s.dev n d).2 ⟨hd, he⟩
      exact (congrArg (fun x => decide (x = 1)) (hframe.fld Fld.STEP_STAT_UNCERT d rfl (by simp [roleTouch, Fld.STEP_STAT_UNCERT]))).trans
        (hlayout.certain d hmem)
    · exact Dev.setRoles_atReset v (hlayout.config d hd m hm) rfl (by simp [roleTouch]) (by change fieldsReset _ < _; decide)
    · have hqueues : (((s.dev.partBusy.setLayout (v % 16)).setRoles v).part d).queues = [] :=
        (congrArg Part.queues (hframe.part d id)).trans (hlayout.queues d hd)
      exact congrArg (fun q => SMap.read {} q m) hqueues
  · rw [(hexec ho).2, Dev.partCmd_roles (hgood.1 hg) hb hn hfree]
    exact ⟨_, rfl, hgiven _ (s.dev.partCmd_roles_given hn) rfl,
      (Frame.setFld roleTouch s.dev Fld.HLK_PARTCFG_BUSY 0 1 (.inr (.inl rfl))).trans (Dev.setRoles_frame _ v)⟩
  · have href : s.dev.partRefused v := hbad.imp (fun h => by simpa [hgood] using h) id
    have hdone : leadsTo (ok s (s.dev.partCmd v)) (fun t => Frame {} s.dev t.dev ∧ t.flash = s.flash ∧
        t.dev.eventsDev Ev.HLK_REFUSED = min 0xFFFFFFFF (s.dev.eventsDev Ev.HLK_REFUSED + 1)) := by
      rw [Dev.partCmd_refused href]
      exact ⟨_, rfl, Frame.raiseDev _ _ _, rfl, Dev.raiseDev_eventsDev _ _⟩
    simp only [refused]
    rw [(hexec ho).1, (hexec ho).2]
    exact ⟨hdone, hdone⟩
  · refine ⟨_, rfl, ?_, rfl, Frame.setFld _ _ _ _ _ ⟨rfl, rfl⟩⟩
    simp only [busy, Dev.flag]
    rw [Dev.fld_setFld_self _ _ _ _ (by decide)]
    rfl

end Sys2Proof.Machine
end

section
/-!
PROOF. What the upkeep of fenced dies, ports that are down and partitions that stop keeps.
-/
namespace Sys2Proof.Machine

/-! ### What the upkeep of a fenced die, of a port that is down and of a partition that stops keeps -/

/-- The fields that say which dies are fenced, their stages, the roles of their controllers, the retired slots, and the states of the links. -/
def heldFields : List Fld :=
  [Fld.CTL_DIECFG_FENCED, Fld.CTL_DBOOT_STAGE, Fld.CTL_CSTAT_ROLE, Fld.SPR_CLSTAT_RETIRED, Fld.HLK_PSTAT_LINK, Fld.FAB_PORT_STAT_LINK]

/-- Whether two fields share no bit of a register. -/
def Fld.apart (f g : Fld) : Bool := decide (f.reg ≠ g.reg) || decide (f.lo + f.width ≤ g.lo) || decide (g.lo + g.width ≤ f.lo)

theorem Dev.fld_setFld_of_apart (s : Dev) {f g : Fld} (i i' v : Nat) (hw : g.lo + g.width ≤ 64) (h : f.apart g = true) :
    (s.setFld g i v).fld f i' = s.fld f i' := by
  simp only [Fld.apart, Bool.or_eq_true, decide_eq_true_eq] at h
  obtain (h | h) | h := h
  · exact Dev.fld_setFld_kind s g f i i' v h
  · exact Dev.fld_setFld_apart s g f i i' v hw (.inl h)
  · exact Dev.fld_setFld_apart s g f i i' v hw (.inr h)

/-- Fields, fills and rolling tests, and all of the controllers' state but the numbers of log records are as they were. -/
structure Keeps (fs : List Fld) (s t : Dev) : Prop where
  fld : ∀ f ∈ fs, ∀ i, t.fld f i = s.fld f i
  spr : t.spr = s.spr
  ctl : t.ctl = { s.ctl with logSeq := t.ctl.logSeq }

section
variable {fs : List Fld} {s t u : Dev}

theorem Keeps.refl (s : Dev) : Keeps fs s s := ⟨fun _ _ _ => rfl, rfl, rfl⟩

theorem Keeps.trans (h : Keeps fs s t) (g : Keeps fs t u) : Keeps fs s u :=
  ⟨fun f hf i => (g.fld f hf i).trans (h.fld f hf i), g.spr.trans h.spr, by rw [g.ctl, h.ctl]⟩

/-- Fewer fields are kept too. -/
theorem Keeps.mono {gs : List Fld} (h : Keeps fs s t) (hsub : ∀ f ∈ gs, f ∈ fs) : Keeps gs s t := ⟨fun f hf => h.fld f (hsub f hf), h.spr, h.ctl⟩

theorem Keeps.ite {b : Prop} [Decidable b] (h : Keeps fs s t) (g : Keeps fs s u) : Keeps fs s (if b then t else u) := by
  split
  · exact h
  · exact g

theorem Keeps.each {α : Type} (s : Dev) (xs : List α) (f : α → Dev → Dev) (h : ∀ x ∈ xs, ∀ t, Keeps fs t (f x t)) : Keeps fs s (s.each xs f) :=
  Dev.each_induction (Keeps fs s) f xs (fun x hx t ht => ht.trans (h x hx t)) s (Keeps.refl s)

theorem Keeps.of_regs (h : t.regs = s.regs) (hspr : t.spr = s.spr) (hctl : t.ctl = s.ctl) : Keeps fs s t :=
  ⟨fun f _ i => Dev.fld_congr f i (by unfold Dev.reg; rw [h]), hspr, by rw [hctl]⟩

theorem Keeps.setFld (s : Dev) (g : Fld) (i v : Nat) (hw : g.lo + g.width ≤ 64) (h : fs.all (fun f => f.apart g) = true) : Keeps fs s (s.setFld g i v) :=
  ⟨fun f hf i' => Dev.fld_setFld_of_apart s i i' v hw (List.all_eq_true.1 h f hf), rfl, rfl⟩

theorem Keeps.setReg (s : Dev) (k : RegKind) (i v : Nat) (h : fs.all (fun f => decide (f.reg ≠ k)) = true) : Keeps fs s (s.setReg k i v) :=
  ⟨fun f hf i' => Dev.fld_setReg_kind s f k i i' v (of_decide_eq_true (List.all_eq_true.1 h f hf)), rfl, rfl⟩

theorem Keeps.setCore (s : Dev) (c : Nat) (x : Core) : Keeps fs s (s.setCore c x) := Keeps.of_regs rfl rfl rfl
theorem Keeps.setPart (s : Dev) (p : Nat) (x : Part) : Keeps fs s (s.setPart p x) := Keeps.of_regs rfl rfl rfl
theorem Keeps.setHost (s : Dev) (p : Nat) (x : HostPortSt) : Keeps fs s (s.setHost p x) := Keeps.of_regs rfl rfl rfl
theorem Keeps.setFab (s : Dev) (p : Nat) (x : FabPortSt) : Keeps fs s (s.setFab p x) := Keeps.of_regs rfl rfl rfl

theorem Keeps.setStandby (s : Dev) (b : Standby) : Keeps fs s { s with sby := b } := Keeps.of_regs rfl rfl rfl
theorem Keeps.logSeq (s : Dev) (m : SMap Nat) : Keeps fs s { s with ctl := { s.ctl with logSeq := m } } := ⟨fun _ _ _ => rfl, rfl, rfl⟩

/-- A frame that names no register of the fields keeps them. -/
theorem Keeps.of_frame {m : Touches} (h : Frame m s t) (hreg : ∀ f ∈ fs, f.reg.counting = false ∧ ∀ i, ¬ m.reg f.reg i) (hspr : ¬ m.spr) (hctl : ¬ m.ctl) :
    Keeps fs s t :=
  ⟨fun f hf i => h.fld f i (hreg f hf).1 ((hreg f hf).2 i), h.spr hspr, by rw [h.ctl hctl]⟩

end

/-- An update that keeps the held fields. -/
abbrev Holds (s t : Dev) : Prop := Keeps heldFields s t

theorem Holds.of_quiet {s t : Dev} (h : Quiet s t) : Holds s t :=
  Keeps.of_frame (Frame.quiet {} h) (fun f hf => ⟨by revert f; decide, fun _ => not_false⟩) not_false not_false

theorem heldFields_not_wired : ∀ f ∈ heldFields, f.reg.counting = false ∧
    f.reg ≠ .FAB_PORT_DROP ∧ f.reg ≠ .FAB_INJDROP ∧ f.reg ≠ .GRP_STAT ∧ f.reg ≠ .STEP_STAT := by decide

theorem Holds.of_wired {s t : Dev} (h : Wired s t) : Holds s t := by
  refine Keeps.of_frame h.frame (fun f hf => ?_) not_false not_false
  obtain ⟨hc, h1, h2, h3, h4⟩ := heldFields_not_wired f hf
  exact ⟨hc, fun _ => by simp [wires, h1, h2, h3, h4]⟩

theorem Holds.raise (s : Dev) (d c : Nat) : Holds s (s.raise d c) := Holds.of_quiet (Quiet.raise s d c)
theorem Holds.raiseDev (s : Dev) (c : Nat) : Holds s (s.raiseDev c) := Holds.of_quiet (Quiet.raiseDev s c)
theorem Holds.hostSend (s : Dev) (p : Nat) (x : HPkt) : Holds s (s.hostSend p x) := Holds.of_quiet (Quiet.hostSend s p x)
theorem Holds.unclean (s : Dev) (p c : Nat) : Holds s (s.unclean p c) := Holds.of_wired (Wired.unclean_step s p c)

theorem Holds.countLink (s : Dev) (f g : Fld) (i n : Nat) (hf : f.lo + f.width ≤ 64) (hg : g.lo + g.width ≤ 64)
    (h : heldFields.all (fun x => x.apart f && x.apart g) = true) : Holds s (s.countLink f g i n) := by
  have hfa : heldFields.all (fun x => x.apart f) = true := List.all_eq_true.2 fun x hx => (Bool.and_eq_true _ _ ▸ List.all_eq_true.1 h x hx).1
  have hga : heldFields.all (fun x => x.apart g) = true := List.all_eq_true.2 fun x hx => (Bool.and_eq_true _ _ ▸ List.all_eq_true.1 h x hx).2
  exact Keeps.ite (Keeps.setFld s f i _ hf hfa) ((Keeps.setFld s f i _ hf hfa).trans (Keeps.setFld _ g i 1 hg hga))

theorem Holds.perf (s : Dev) (k : RegKind) (i d n : Nat) (h : heldFields.all (fun f => decide (f.reg ≠ k)) = true) : Holds s (s.perf k i d n) :=
  Keeps.ite ((Keeps.setReg s k i _ h).trans (Holds.raise _ _ _)) (Keeps.setReg s k i _ h)

/-! ### The fault log and scope tiles -/

theorem Holds.logRecord (s : Dev) (d : Nat) (r : LogRec) : Holds s (s.logRecord d r) := by
  unfold Dev.logRecord
  dsimp only
  split
  · exact Holds.raise s _ _
  · refine Keeps.trans ?_ (Keeps.setFld _ Fld.CHK_LOGSTAT_COUNT _ _ (by decide) (by decide))
    exact (Keeps.each s _ _ fun _ _ t => Keeps.setReg t .CHK_LOG _ _ (by decide)).trans (Keeps.logSeq _ _)

theorem Holds.useFailedAs (s : Dev) (p d code : Nat) (core : Option Nat) (fpc a e g : Nat) : Holds s (s.useFailedAs p d code core fpc a e g) :=
  ((Holds.raise s d code).trans (Holds.logRecord _ _ _)).trans (Holds.unclean _ _ _)

theorem Holds.rejectTile (s : Dev) (d : Delivery) (c : Nat) : Holds s (s.rejectTile d c) := (Holds.perf s _ _ _ _ (by decide)).trans (Holds.raise _ _ _)

theorem Holds.scopeTake (s : Dev) (d : Delivery) (t : List Byte) : Holds s (s.scopeTake d t).1 := by
  have raised : ∀ c, Holds s (s.raise d.die c) := fun c => Holds.raise s _ c
  unfold Dev.scopeTake
  dsimp only
  split
  · exact Holds.rejectTile s d _
  split
  · exact (Holds.useFailedAs s _ _ _ _ _ _ _ _).trans (Holds.raise _ _ _)
  split
  · exact raised _
  split
  · split
    · exact raised _
    · split
      · exact Keeps.refl s
      · split
        · exact raised _
        · exact Keeps.setPart s _ _
  · split
    · exact raised _
    · split
      · exact Keeps.refl s
      · split
        · exact raised _
        · exact Keeps.refl s
  · split
    · exact raised _
    · split
      · exact Keeps.refl s
      · split
        · exact raised _
        · exact Keeps.setPart s _ _
  · split
    · exact raised _
    · split
      · exact Keeps.refl s
      · split
        · exact raised _
        · exact Keeps.setPart s _ _
  · exact raised _

theorem Holds.scopeSend (s : Dev) (p r dp ty : Nat) (v : Vote) : Holds s (s.scopeSend p r dp ty v) := by
  have inj : ∀ x, Holds s (s.inject p x).1 := fun x => Holds.of_wired (Wired.inject s p x)
  unfold Dev.scopeSend
  dsimp only
  split
  · exact (inj _).trans (Holds.scopeTake _ _ _)
  · exact inj _

theorem Holds.sendUp (s : Dev) (p ty : Nat) (v : Vote) : Holds s (s.sendUp p ty v) :=
  Keeps.ite (Holds.scopeSend s _ _ _ _ _) ((Holds.scopeSend s _ _ _ _ _).trans (Holds.scopeSend _ _ _ _ _ _))

theorem Holds.sendDown (s : Dev) (p ty : Nat) (v : Vote) : Holds s (s.sendDown p ty v) :=
  Keeps.each s _ _ fun _ _ t => Keeps.ite (Holds.scopeSend t _ _ _ _ _) ((Holds.scopeSend t _ _ _ _ _).trans (Holds.scopeSend _ _ _ _ _ _))

theorem Holds.tryDone (s : Dev) (p : Nat) : Holds s (s.tryDone p) := by
  unfold Dev.tryDone
  dsimp only
  refine Keeps.ite (Keeps.refl s) (Keeps.ite ?_ ?_)
  · exact ((Keeps.setPart s _ _).trans (Keeps.setPart _ _ _)).trans (Holds.sendDown _ _ _ _)
  · exact (Keeps.setPart s _ _).trans (Holds.sendUp _ _ _ _)

/-! ### Drains, loads and steps that end -/

theorem Holds.abandonDrain (s : Dev) (p : Nat) : Holds s (s.abandonDrain p) := by
  unfold Dev.abandonDrain
  dsimp only
  exact ((((Keeps.each s _ _ fun _ _ t => Keeps.setHost t _ _).trans (Keeps.setFld _ _ _ _ (by decide) (by decide))).trans (Holds.raise _ _ _)).trans
    (Keeps.setPart _ _ _)).trans (Holds.tryDone _ _)

theorem Holds.setChn (s : Dev) (st : Nat) : Holds s (s.setChn st) := by
  have h := Keeps.setFld (fs := heldFields) s Fld.CHN_STAT_STATE 0 st (by decide) (by decide)
  exact Keeps.ite h (h.trans (Keeps.each _ _ _ fun _ _ t => Keeps.setFld t _ _ _ (by decide) (by decide)))

theorem Holds.clearChain (s : Dev) : Holds s s.clearChain := by
  have hregs : Holds s (((s.setReg .CHN_CTL 0 0).setReg .CHN_CFG 0 0).setReg .CHN_FWD 0 0) :=
    ((Keeps.setReg s _ _ _ (by decide)).trans (Keeps.setReg _ _ _ _ (by decide))).trans (Keeps.setReg _ _ _ _ (by decide))
  have hun : ∀ t : Dev, Holds t t.unlockChain := fun t =>
    ((Holds.setChn t _).trans (Keeps.setFld _ Fld.CHN_STAT_HOLD 0 0 (by decide) (by decide))).trans (Keeps.of_regs rfl rfl rfl)
  exact (hregs.trans (hun _)).trans (Keeps.of_regs rfl rfl rfl)

theorem Holds.releaseChain (s : Dev) (p : Nat) : Holds s (s.releaseChain p) := Keeps.ite (Keeps.refl s) (Holds.clearChain s)

theorem Holds.planErr (s : Dev) (p c : Nat) : Holds s (s.planErr p c) := (Keeps.setFld s _ _ _ (by decide) (by decide)).trans (Holds.raise _ _ _)

theorem Holds.undoLoad (s : Dev) (p c : Nat) : Holds s (s.undoLoad p c []) :=
  (((Keeps.setFld s Fld.PLAN_STAT_STATE p 0 (by decide) (by decide)).trans (Keeps.setFld _ Fld.PLAN_STAT_ERR p c (by decide) (by decide))).trans
    (Keeps.setPart _ _ _)).trans (Holds.releaseChain _ _)

theorem Holds.loadBind (s : Dev) (p : Nat) : Holds s (s.loadBind p) := by
  unfold Dev.loadBind
  split
  · exact Keeps.refl s
  · refine Keeps.ite (Keeps.refl s) ?_
    split
    · exact (((Keeps.setFld s _ _ _ (by decide) (by decide)).trans (Keeps.setPart _ _ _)).trans (Holds.planErr _ _ _)).trans (Holds.releaseChain _ _)
    · exact Keeps.setPart s _ _

/-! #### With no rolling test in progress -/

theorem Dev.dropSwap_idle {s : Dev} (h : s.spr.swaps = []) (d k : Nat) : s.dropSwap d k = s := by
  unfold Dev.dropSwap Dev.swapOf
  rw [h]
  rfl

theorem Dev.swapsBack_idle {s : Dev} (h : s.spr.swaps = []) (p : Nat) : s.swapsBack p = s := by
  unfold Dev.swapsBack
  rw [h]
  rfl

theorem Dev.endTests_idle {s : Dev} (h : s.spr.swaps = []) (p : Nat) : s.endTests p = s := by
  unfold Dev.endTests
  rw [h]
  exact ite_self s

theorem Dev.dropCopies_idle {s : Dev} (h : s.spr.swaps = []) (p : Nat) : s.dropCopies p = s := by
  unfold Dev.dropCopies
  rw [h]
  rfl

theorem Holds.toLoaded {s : Dev} (h : s.spr.swaps = []) (p : Nat) : Holds s (s.toLoaded p) := by
  rw [Dev.toLoaded, Dev.swapsBack_idle]
  · exact (Keeps.setFld s _ _ _ (by decide) (by decide)).trans (Keeps.setPart _ _ _)
  · exact h

theorem Holds.abortCore (s : Dev) (c : Nat) : Holds s (s.abortCore c) :=
  (((Keeps.setCore s c _).trans (Keeps.setFld _ Fld.CORE_STAT_STATE _ _ (by decide) (by decide))).trans
    (Keeps.setFld _ Fld.GILL_STAT_FILL _ _ (by decide) (by decide))).trans (Keeps.setFld _ Fld.EDGE_STAT_RSTPEND _ _ (by decide) (by decide))

theorem Holds.undoReversals (s : Dev) (p : Nat) : Holds s (s.undoReversals p) := by
  unfold Dev.undoReversals
  dsimp only
  refine Keeps.trans ?_ (Keeps.setPart _ _ _)
  have hmon : ∀ (xs : List Nat) (f : Nat → Nat) , Holds s (s.each xs fun n s =>
      ((s.setFld Fld.FMT_MON_STATE_FMT (monIdx p n) (f n % 16)).setFld Fld.FMT_MON_STATE_FB (monIdx p n) (f n / 16 % 2)).setFld Fld.FMT_MON_STATE_RVPEND (monIdx p n) 1) :=
    fun xs f => Keeps.each s _ _ fun _ _ t => ((Keeps.setFld t _ _ _ (by decide) (by decide)).trans (Keeps.setFld _ _ _ _ (by decide) (by decide))).trans
      (Keeps.setFld _ _ _ _ (by decide) (by decide))
  exact Keeps.ite (hmon _ _) ((hmon _ _).trans (Keeps.setFld _ _ _ _ (by decide) (by decide)))

theorem Holds.noteCaptures (s : Dev) (p : Nat) : Holds s (s.noteCaptures p) := by
  unfold Dev.noteCaptures
  dsimp only
  have hun : ∀ (xs : List Capture), Holds s (s.each xs fun c s => s.unresolved p c) := fun xs => Keeps.each s _ _ fun _ _ t =>
    ((Holds.raise t _ _).trans (Holds.logRecord _ _ _)).trans (Keeps.setFld _ Fld.CHK_STAT_LAST _ _ (by decide) (by decide))
  have hcap : ∀ (xs : List Capture) (x : Part) (n : Nat), Holds s (((s.each xs fun c s => s.unresolved p c).setPart p x).setFld Fld.CHK_STAT_NCAP p n) :=
    fun xs _ _ => ((hun xs).trans (Keeps.setPart _ _ _)).trans (Keeps.setFld _ _ _ _ (by decide) (by decide))
  exact Keeps.ite (hcap _ _ _) ((hcap _ _ _).trans (Keeps.setFld _ Fld.CHK_STAT_DIAG p 1 (by decide) (by decide)))

theorem Holds.raiseAbort (s : Dev) (p : Nat) : Holds s (s.raiseAbort p) := Keeps.ite (Holds.raiseDev s _) (Holds.raise s _ _)

/-- A partition whose step has ended by an abort, before its rolling tests are dropped. -/
def Dev.stepCut (s : Dev) (p : Nat) : Dev :=
  let s := s.each (s.boundCores p) (fun c s => s.abortCore c)
  let s := ((s.undoReversals p).setFld Fld.STEP_STAT_HELD p 0).setFld Fld.STEP_STAT_UNCLEAN p 0
  let s := s.setFld Fld.STEP_STAT_HOLDN p (s.part p).round
  s.setPart p (s.part p).atEnd

theorem Dev.abortStep_eq (s : Dev) (p : Nat) : s.abortStep p =
    ((((((s.stepCut p).dropCopies p).endTests p).toLoaded p).raiseAbort p).perf .STEP_PC_ABORT p p 1).noteCaptures p := rfl

theorem Holds.stepCut (s : Dev) (p : Nat) : Holds s (s.stepCut p) :=
  (((((Keeps.each s _ _ fun c _ t => Holds.abortCore t c).trans (Holds.undoReversals _ p)).trans
    (Keeps.setFld _ Fld.STEP_STAT_HELD _ _ (by decide) (by decide))).trans (Keeps.setFld _ Fld.STEP_STAT_UNCLEAN _ _ (by decide) (by decide))).trans
    (Keeps.setFld _ Fld.STEP_STAT_HOLDN _ _ (by decide) (by decide))).trans (Keeps.setPart _ _ _)

theorem Holds.abortStep {s : Dev} (h : s.spr.swaps = []) (p : Nat) : Holds s (s.abortStep p) := by
  have hcut := Holds.stepCut s p
  have hidle : (s.stepCut p).spr.swaps = [] := by rw [hcut.spr, h]
  rw [Dev.abortStep_eq, Dev.dropCopies_idle hidle, Dev.endTests_idle hidle]
  exact (((hcut.trans (Holds.toLoaded hidle p)).trans (Holds.raiseAbort _ _)).trans (Holds.perf _ _ _ _ _ (by decide))).trans (Holds.noteCaptures _ _)

theorem Holds.stopAtOnce {s : Dev} (h : s.spr.swaps = []) (p : Nat) : Holds s (s.stopAtOnce p false) := by
  have e : s.stopAtOnce p false = if (s.part p).stepping then s.abortStep p else if s.planState p = 3 then s.toLoaded p else s := by
    simp [Dev.stopAtOnce]
  rw [e]
  exact Keeps.ite (Holds.abortStep h p) (Keeps.ite (Holds.toLoaded h p) (Keeps.refl s))

theorem Holds.fencePartition {s : Dev} (h : s.spr.swaps = []) (p : Nat) : Holds s (s.fencePartition p) := by
  unfold Dev.fencePartition
  dsimp only
  generalize hu : s.setPart p _ = u
  have h0 : Holds s u := hu ▸ Keeps.setPart s p _
  have h1 : ∀ v : Dev, Holds v (if (v.part p).drain.isSome then v.abandonDrain p else v) := fun v => Keeps.ite (Holds.abandonDrain v p) (Keeps.refl v)
  have h2 : ∀ v : Dev, Holds v (if (v.part p).loading.isSome then v.undoLoad p Ev.PLAN_STATE [] else v) := fun v =>
    Keeps.ite (Holds.undoLoad v p _) (Keeps.refl v)
  have h3 : ∀ v : Dev, Holds v (if v.fld Fld.CTX_STAT_STATE p = 1 then v.setFld Fld.CTX_STAT_STATE p 3 else v) := fun v =>
    Keeps.ite (Keeps.setFld v _ _ _ (by decide) (by decide)) (Keeps.refl v)
  have hall := ((h0.trans (h1 u)).trans (h2 _)).trans (h3 _)
  exact hall.trans (Holds.stopAtOnce (by rw [hall.spr, h]) p)

/-! ### Links that go down -/

theorem Holds.updateDegraded (s : Dev) (p : Nat) : Holds s (s.updateDegraded p) := by
  unfold Dev.updateDegraded
  dsimp only
  refine Keeps.trans (Keeps.each s _ _ fun gi _ t => ?_) (Keeps.setFld _ _ _ _ (by decide) (by decide))
  exact Keeps.trans (Keeps.ite (Holds.raise t _ _) (Keeps.refl t)) (Keeps.setFld _ _ _ _ (by decide) (by decide))

theorem Holds.evalDegraded (s : Dev) (p : Nat) (b : Bool) (was : List Nat) : Holds s (s.evalDegraded p b was) := by
  unfold Dev.evalDegraded
  split
  · exact Keeps.refl s
  · exact (Keeps.each s _ _ fun _ _ t => Keeps.setFld t _ _ _ (by decide) (by decide)).trans (Holds.of_wired (Wired.sendMessages _ _ _))

theorem Holds.setPlan (s : Dev) (q st : Nat) : Holds s (s.setPlan q st) :=
  ((Keeps.setFld s Fld.FAB_PORT_STAT_PLAN q st (by decide) (by decide)).trans (Keeps.setFld _ Fld.FAB_STAT_NMISS _ _ (by decide) (by decide))).trans
    (Keeps.setFld _ Fld.FAB_STAT_NEXTRA _ _ (by decide) (by decide))

theorem Holds.unmatch (s : Dev) (q : Nat) (b : Bool) : Holds s (s.unmatch q b) := by
  unfold Dev.unmatch
  dsimp only
  have hmiss : Holds s (if b then (s.setPlan q planMissing).raise (q / 6) Ev.FAB_MISSING else s.setPlan q planMissing) :=
    Keeps.ite ((Holds.setPlan s q _).trans (Holds.raise _ _ _)) (Holds.setPlan s q _)
  exact Keeps.ite (Keeps.refl s) ((hmiss.trans (Holds.evalDegraded _ _ _ _)).trans (Holds.updateDegraded _ _))

theorem Wired.freeQueued (s : Dev) (q : Queued Packet) : Wired s (s.freeQueued q) := by
  unfold Dev.freeQueued
  split
  · exact Wired.freeBuf s _ _ _
  · exact Wired.refl s

theorem Holds.dropLink (s : Dev) (q : Nat) : Holds s (s.dropLink q) :=
  (Keeps.setFab s q _).trans (Keeps.each _ _ _ fun x _ t => Holds.of_wired (Wired.freeQueued t x))

/-- A fabric port declared DOWN. -/
theorem Holds.fabDown (s : Dev) (q : Nat) : Holds (s.setFld Fld.FAB_PORT_STAT_LINK q 3) (s.fabDown q) :=
  ((((Keeps.setFld _ Fld.FAB_PORT_STAT_PEERVALID q 0 (by decide) (by decide)).trans (Holds.dropLink _ _)).trans
    (Holds.countLink _ _ _ _ _ (by decide) (by decide) (by decide))).trans (Holds.raise _ _ _)).trans (Holds.unmatch _ _ _)

theorem Holds.setQueue (s : Dev) (p n : Nat) (q : Queue) : Holds s (s.setQueue p n q) := Keeps.setPart s p _

theorem Holds.setBusy (s : Dev) (p n : Nat) : Holds s (s.setBusy p n) := Keeps.setFld s _ _ _ (by decide) (by decide)

theorem Holds.dropReads (s : Dev) (p n : Nat) (kind : HRead → Bool) : Holds s (s.dropReads p n kind) :=
  Keeps.each s _ _ fun _ _ t => Keeps.ite (Keeps.setHost t _ _) (Keeps.refl t)

theorem Holds.haltQueue (s : Dev) (p n : Nat) : Holds s (s.haltQueue p n) :=
  ((Keeps.setFld s _ _ _ (by decide) (by decide)).trans (Holds.dropReads _ _ _ _)).trans (Holds.setBusy _ _ _)

theorem Holds.stopQueue (s : Dev) (p n e : Nat) : Holds s (s.stopQueue p n e) :=
  (((Keeps.setFld s _ _ _ (by decide) (by decide)).trans (Keeps.setFld _ _ _ _ (by decide) (by decide))).trans (Holds.haltQueue _ _ _)).trans
    (Holds.raise _ _ _)

theorem Holds.abortQueue (s : Dev) (p n e : Nat) : Holds s (s.abortQueue p n e) := by
  unfold Dev.abortQueue
  dsimp only
  have h : ∀ q, Holds s ((s.setQueue p n q).dropReads p n (fun _ => true)) := fun q => (Holds.setQueue s p n q).trans (Holds.dropReads _ _ _ _)
  exact Keeps.ite ((h _).trans (Holds.stopQueue _ _ _ _)) ((h _).trans (Holds.setBusy _ _ _))

theorem Holds.flightIntrs (s : Dev) (p n : Nat) : Holds s (s.flightIntrs p n) := by
  unfold Dev.flightIntrs
  split
  · exact Keeps.each s _ _ fun _ _ t => Holds.hostSend t _ _
  · exact Keeps.refl s

theorem Holds.pumpQueue (s : Dev) (p n : Nat) : Holds s (s.pumpQueue p n) :=
  Keeps.ite ((Keeps.setHost s _ _).trans (Holds.hostSend _ _ _)) (Keeps.refl s)

theorem Holds.abortRead (s : Dev) (q : Nat) (r : HRead) : Holds s (s.abortRead q r) := by
  unfold Dev.abortRead
  dsimp only
  split
  · exact (Keeps.setHost s _ _).trans (Holds.pumpQueue _ _ _)
  · exact (Keeps.setHost s _ _).trans (Holds.setQueue _ _ _ _)

theorem Holds.portDownQueues (s : Dev) (q : Nat) : Holds s (s.portDownQueues q) := by
  unfold Dev.portDownQueues
  dsimp only
  refine Keeps.trans (Keeps.each s _ _ fun n _ t => ?_) (Keeps.each _ _ _ fun r _ t => Holds.abortRead t q r)
  exact (((Holds.abortQueue t _ n _).trans (Holds.flightIntrs _ _ n)).trans (Holds.setQueue _ _ _ _)).trans (Holds.setBusy _ _ _)

theorem Holds.clearPort (s : Dev) (q : Nat) : Holds s (s.clearPort q) := (Keeps.setHost s _ _).trans (Keeps.setReg _ _ _ _ (by decide))

theorem Holds.abandonDrains (s : Dev) (q : Nat) : Holds s (s.abandonDrains q) := by
  refine Keeps.each s _ _ fun p _ t => ?_
  split
  · exact Keeps.ite (Holds.abandonDrain t p) (Keeps.refl t)
  · exact Keeps.refl t

theorem heldFields_not_ownstat : ∀ f ∈ heldFields, f.reg.counting = false ∧ f.reg ≠ .HLK_OWNSTAT := by decide

theorem Holds.dropHold (s : Dev) (q : Nat) : Holds s (s.dropHold q) := by
  have hold : ∀ h, Holds s (s.setHold h) := fun h =>
    Keeps.of_frame (Dev.setHold_frame s h) (fun f hf => ⟨(heldFields_not_ownstat f hf).1, fun _ e => (heldFields_not_ownstat f hf).2 e.1⟩) not_false not_false
  exact Keeps.ite (hold _) (Keeps.refl s)

/-- An UP host port goes DOWN; another stays as it is. -/
theorem Holds.hostDown (s : Dev) (q : Nat) : Holds s (s.hostDown q) ∨ Holds (s.setFld Fld.HLK_PSTAT_LINK q 3) (s.hostDown q) := by
  unfold Dev.hostDown
  dsimp only
  split
  · exact .inl (Keeps.refl s)
  · exact .inr ((((Holds.portDownQueues _ q).trans (Holds.clearPort _ q)).trans (Holds.abandonDrains _ q)).trans (Holds.dropHold _ q) |>.trans (Holds.raise _ _ _))

/-! ### The stages of the dies and of the device -/

theorem Holds.setStage (s : Dev) (st : Nat) : Holds s (s.setStage st) :=
  (Keeps.setFld s _ _ _ (by decide) (by decide)).trans (Keeps.setFld _ _ _ _ (by decide) (by decide))

/-- READY entered, counted and told to the host ports. -/
def Dev.tellReady (s : Dev) : Dev := ((s.setStage stReady).countEvent Ev.BOOT_READY none 1).each (List.range 6) (fun p s => s.intr p Ev.BOOT_READY)

theorem Dev.enterReady_eq (s : Dev) : s.enterReady =
    if s.tellReady.sby.sagPending then ({ s.tellReady with sby := { s.tellReady.sby with sagPending := false } } : Dev).raiseDev Ev.SAG_RESET else s.tellReady :=
  rfl

theorem Holds.tellReady (s : Dev) : Holds s s.tellReady :=
  ((Holds.setStage s _).trans (Holds.of_quiet (Quiet.countEvent _ _ _ _))).trans (Keeps.each _ _ _ fun p _ t => Holds.of_quiet (Quiet.intr t p _))

theorem Holds.enterReady (s : Dev) : Holds s s.enterReady := by
  have told : ∀ u : Dev, Holds u (if u.sby.sagPending then ({ u with sby := { u.sby with sagPending := false } } : Dev).raiseDev Ev.SAG_RESET else u) :=
    fun u => Keeps.ite ((Keeps.setStandby u _).trans (Holds.raiseDev _ _)) (Keeps.refl u)
  rw [Dev.enterReady_eq]
  exact (Holds.tellReady s).trans (told _)

theorem Holds.updateStage (s : Dev) : Holds s s.updateStage := by
  unfold Dev.updateStage
  refine Keeps.ite (Keeps.refl s) ?_
  split
  · exact (Holds.setStage s _).trans (Keeps.setFld _ _ _ _ (by decide) (by decide))
  · exact Keeps.ite (Keeps.refl s) (Keeps.ite (Holds.enterReady s) (Holds.setStage s _))

theorem Holds.startMaster (s : Dev) : Holds s s.startMaster :=
  Keeps.ite (((Holds.setChn s _).trans (Keeps.setReg _ _ _ _ (by decide))).trans (Keeps.of_regs rfl rfl rfl)) (Keeps.refl s)

theorem Holds.fenceClocks (s : Dev) (d : Nat) : Holds s (s.fenceClocks d) := by
  unfold Dev.fenceClocks
  dsimp only
  have hclear : ∀ b : Standby, Holds s { s.clearReg .PWR_DSTAT d with sby := b } := fun b => (Keeps.setReg s _ _ _ (by decide)).trans (Keeps.setStandby _ _)
  exact Keeps.ite ((hclear _).trans (Holds.startMaster _)) (hclear _)

theorem Holds.identityLost (s : Dev) : Holds s s.identityLost :=
  ((Keeps.setFld s Fld.SEC_STAT_IDOK _ _ (by decide) (by decide)).trans (Holds.raiseDev _ _)).trans (Holds.logRecord _ _ _)

end Sys2Proof.Machine
end

section
/-!
PROOF. The journal and the rounds of the lead.
-/
namespace Sys2Proof.Machine

/-! ### The journal (R495, R496) -/

/-- The device with another journal, and with what was sent meanwhile. -/
def Dev.putJournal (s : Dev) (js : List JRec) (o : List Out) : Dev := { s with ctl := { s.ctl with journal := js }, out := o }

@[simp] theorem Dev.putJournal_journal (s : Dev) (js : List JRec) (o : List Out) : (s.putJournal js o).ctl.journal = js := rfl

/-- Messages only go out. -/
theorem Dev.ctlSend_out (s : Dev) (a b : Nat) (m : CtlMsg) : ∃ o, s.ctlSend a b m = { s with out := s.out ++ o } ∧ Out.ctl true a b m ∈ o := by
  unfold Dev.ctlSend
  dsimp only
  split
  · exact ⟨[.ctl true a b m, .ctl false a b m], by simp [Dev.emit], by simp⟩
  · exact ⟨[.ctl true a b m], rfl, by simp⟩

theorem Dev.mirror_out (s : Dev) (rs : List JRec) : ∃ o, s.mirror rs = { s with out := o } := by
  unfold Dev.mirror
  split
  · exact ⟨s.out, rfl⟩
  · refine Dev.each_induction (fun t => ∃ o, t = { s with out := o }) _ _ (fun r _ t ht => ?_) s ⟨s.out, rfl⟩
    obtain ⟨o, rfl⟩ := ht
    obtain ⟨o', h, -⟩ := Dev.ctlSend_out { s with out := o } (s.fld Fld.CTL_ELECT_LEAD 0) (s.fld Fld.CTL_ELECT_NEXT 0) (.record r)
    exact ⟨_, h⟩

theorem Dev.closeRecord_eq (s : Dev) (ty tg : Nat) (a : Bool) :
    ∃ o, s.closeRecord ty tg a = s.putJournal (s.ctl.journal.map fun r => if r.isFor ty tg then r.closed a s.solo else r) o :=
  Dev.mirror_out _ _

/-- A new record is open, of the type and target, and acknowledged at once where the lead acts unmirrored; the ring may lose a closed one. -/
theorem Dev.journal_eq (s : Dev) (ty tg : Nat) (after : Dev) :
    ∃ r o, s.journal ty tg after = s.putJournal (ringRoom s.ctl.journal ++ [r]) o ∧ r.isFor ty tg = true ∧ r.openAck = s.solo := by
  obtain ⟨o, h⟩ := Dev.mirror_out { s with ctl := { s.ctl with journal := ringRoom s.ctl.journal ++
    [{ seq := s.lastSeq + 1, term := s.fld Fld.CTL_ELECT_TERM 0, type := ty, done := false, aborted := false, target := tg
       lo := if 6 ≤ ty then 0 else after.reg .SPR_REMAP_LO (clIdx (slotDie tg) (slotCluster tg))
       hi := if 6 ≤ ty then 0 else after.reg .SPR_REMAP_HI (clIdx (slotDie tg) (slotCluster tg))
       st := if 6 ≤ ty then 0 else after.reg .SPR_CLSTAT (clIdx (slotDie tg) (slotCluster tg)), openAck := s.solo, closedAck := false }] } } _
  exact ⟨_, o, h, by simp [JRec.isFor, JRec.isOpen], rfl⟩

theorem Dev.remirror_eq (s : Dev) : ∃ o, s.remirror =
    s.putJournal (s.ctl.journal.map fun r => if r.isOpen then { r with openAck := false } else { r with closedAck := true }) o := Dev.mirror_out _ _

theorem mem_of_mem_ringRoom {js : List JRec} {r : JRec} (h : r ∈ ringRoom js) : r ∈ js := by
  unfold ringRoom at h
  split at h
  · exact h
  · split at h
    · exact List.mem_of_mem_erase h
    · exact h

theorem JRec.isFor_iff (r : JRec) (ty tg : Nat) : r.isFor ty tg = true ↔ r.isOpen = true ∧ r.type = ty ∧ r.target = tg := by
  simp [JRec.isFor, and_assoc]

theorem JRec.closed_isOpen (r : JRec) (a b : Bool) : (r.closed a b).isOpen = false := by cases a <;> rfl

/-! ### What waits for the lead -/

/-- The fences and retirements that wait for the lead; no rolling test and no policy does, and the open records are of fills or of the types and
targets in `rs`. -/
structure Waits (fences due : List Nat) (rs : List (Nat × Nat)) (s : Dev) : Prop where
  fences : s.ctl.fences = fences
  due : s.spr.due = due
  swaps : s.spr.swaps = []
  policies : s.spr.policies = []
  records : ∀ r ∈ s.ctl.journal, r.isOpen = true → r.type = 2 ∨ (r.type, r.target) ∈ rs

section
variable {fences due : List Nat} {rs : List (Nat × Nat)} {s t : Dev}

theorem Waits.keeps {fs : List Fld} (h : Waits fences due rs s) (k : Keeps fs s t) : Waits fences due rs t :=
  ⟨by rw [k.ctl]; exact h.fences, k.spr ▸ h.due, k.spr ▸ h.swaps, k.spr ▸ h.policies, by rw [k.ctl]; exact h.records⟩

theorem Waits.putJournal (h : Waits fences due rs s) {js : List JRec} (o : List Out)
    (hjs : ∀ r ∈ js, r.isOpen = true → r.type = 2 ∨ (r.type, r.target) ∈ rs) : Waits fences due rs (s.putJournal js o) :=
  ⟨h.fences, h.due, h.swaps, h.policies, hjs⟩

/-- Acknowledgements leave open what was open. -/
theorem Waits.mapAcks (h : Waits fences due rs s) {g : JRec → JRec} (o : List Out)
    (hg : ∀ r, (g r).type = r.type ∧ (g r).target = r.target ∧ (g r).isOpen = r.isOpen) : Waits fences due rs (s.putJournal (s.ctl.journal.map g) o) := by
  refine h.putJournal o fun r hr ho => ?_
  obtain ⟨x, hx, rfl⟩ := List.mem_map.1 hr
  obtain ⟨hty, htg, hop⟩ := hg x
  rw [hty, htg]
  exact h.records x hx (hop ▸ ho)

theorem Waits.closeRecord (h : Waits fences due rs s) (ty tg : Nat) (a : Bool) :
    Waits fences due (rs.filter (fun x => decide (x ≠ (ty, tg)))) (s.closeRecord ty tg a) := by
  obtain ⟨o, e⟩ := Dev.closeRecord_eq s ty tg a
  rw [e]
  refine ⟨h.fences, h.due, h.swaps, h.policies, fun r hr ho => ?_⟩
  obtain ⟨x, hx, rfl⟩ := List.mem_map.1 hr
  split at ho
  · rw [JRec.closed_isOpen] at ho
    cases ho
  · rename_i hfor
    rw [if_neg hfor]
    refine (h.records x hx ho).imp_right fun hrs => List.mem_filter.2 ⟨hrs, decide_eq_true fun e => hfor ?_⟩
    exact (JRec.isFor_iff x ty tg).2 ⟨ho, congrArg Prod.fst e, congrArg Prod.snd e⟩

theorem Waits.mono {rs' : List (Nat × Nat)} (h : Waits fences due rs s) (hsub : ∀ x ∈ rs, x ∈ rs') : Waits fences due rs' s :=
  ⟨h.fences, h.due, h.swaps, h.policies, fun r hr ho => (h.records r hr ho).imp_right (hsub _)⟩

theorem Waits.closeRecord_keeps (h : Waits fences due rs s) (ty tg : Nat) (a : Bool) : Waits fences due rs (s.closeRecord ty tg a) :=
  (h.closeRecord ty tg a).mono fun _ hx => (List.mem_filter.1 hx).1

theorem Waits.journal (h : Waits fences due rs s) (ty tg : Nat) (after : Dev) (hmem : ty = 2 ∨ (ty, tg) ∈ rs) :
    Waits fences due rs (s.journal ty tg after) := by
  obtain ⟨x, o, e, hfor, -⟩ := Dev.journal_eq s ty tg after
  obtain ⟨-, hty, htg⟩ := (JRec.isFor_iff x ty tg).1 hfor
  rw [e]
  refine h.putJournal o fun r hr ho => ?_
  rcases List.mem_append.1 hr with hr | hr
  · exact h.records r (mem_of_mem_ringRoom hr) ho
  · rw [List.mem_singleton.1 hr, hty, htg]
    exact hmem

/-- How many fences and retirements wait. -/
theorem Waits.waiting (h : Waits fences due rs s) : s.waiting = fences.length + due.length := by
  rw [Dev.waiting, h.fences, h.due, h.policies]
  rfl

/-- No record is open of a type, other than a fill's, and target that is not listed. -/
theorem Waits.not_isFor (h : Waits fences due rs s) {r : JRec} (hr : r ∈ s.ctl.journal) {ty tg : Nat} (hty : ty ≠ 2) (hnot : (ty, tg) ∉ rs) :
    r.isFor ty tg = false := by
  rw [Bool.eq_false_iff]
  intro hfor
  obtain ⟨ho, rfl, rfl⟩ := (JRec.isFor_iff r ty tg).1 hfor
  exact (h.records r hr ho).elim hty hnot

theorem Waits.isOpenFor_false (h : Waits fences due rs s) {ty tg : Nat} (hty : ty ≠ 2) (hnot : (ty, tg) ∉ rs) : s.isOpenFor ty tg = false :=
  List.any_eq_false.2 fun _ hr => by simp [h.not_isFor hr hty hnot]

theorem Waits.mayAct_false (h : Waits fences due rs s) {ty tg : Nat} (hty : ty ≠ 2) (hnot : (ty, tg) ∉ rs) : s.mayAct ty tg = false := by
  unfold Dev.mayAct
  rw [List.any_eq_false.2 fun _ hr => by simp [h.not_isFor hr hty hnot], Bool.and_false]

end

/-! ### Rounds of the lead -/

theorem Dev.fence_fenced {s : Dev} {d : Nat} (h : s.fenced d = true) : s.fence d = s := if_pos h

/-- A fold that leaves a value alone, or moves it to a second one, which stays and which one member of the list reaches. -/
theorem foldl_reaches {α β : Type} {f : α → β → α} {a b : α} {xs : List β} (ha : ∀ y ∈ xs, f a y = a ∨ f a y = b) (hb : ∀ y ∈ xs, f b y = b)
    (hx : ∃ x ∈ xs, f a x = b) : xs.foldl f a = b := by
  have hstay : ∀ ys : List β, (∀ y ∈ ys, f b y = b) → ys.foldl f b = b := by
    intro ys
    induction ys with
    | nil => exact fun _ => rfl
    | cons y ys ih => exact fun h => by rw [List.foldl_cons, h y List.mem_cons_self, ih fun z hz => h z (List.mem_cons_of_mem _ hz)]
  induction xs with
  | nil => exact absurd hx (by simp)
  | cons y ys ih =>
    have hbs : ∀ z ∈ ys, f b z = b := fun z hz => hb z (List.mem_cons_of_mem _ hz)
    rw [List.foldl_cons]
    rcases ha y List.mem_cons_self with hy | hy
    · obtain ⟨x, hmem, hx⟩ := hx
      rcases List.mem_cons.1 hmem with rfl | hmem
      · rw [hx]; exact hstay ys hbs
      · rw [hy]; exact ih (fun z hz => ha z (List.mem_cons_of_mem _ hz)) hbs ⟨x, hmem, hx⟩
    · rw [hy]; exact hstay ys hbs

theorem foldl_stays {α β : Type} {f : α → β → α} {a : α} {xs : List β} (h : ∀ y ∈ xs, f a y = a) : xs.foldl f a = a := by
  cases xs with
  | nil => rfl
  | cons y ys => exact foldl_reaches (fun z hz => .inl (h z hz)) h ⟨y, List.mem_cons_self, h y List.mem_cons_self⟩

theorem Dev.carryRecord_fill (r : Dev × Flash) {x : JRec} (h : x.type = 2) : Dev.carryRecord r x = r := by
  simp [Dev.carryRecord, h]

theorem Dev.carryRecord_waits {r : Dev × Flash} {x : JRec} (h : r.1.mayAct x.type x.target = false) : Dev.carryRecord r x = r := by
  simp [Dev.carryRecord, h]

theorem Dev.carryRecord_fence {r : Dev × Flash} {x : JRec} (hty : x.type = 6) (h : r.1.mayAct 6 x.target = true) :
    Dev.carryRecord r x = (r.1.fence x.target, r.2) := by
  simp [Dev.carryRecord, hty, h]

theorem Dev.carryRecord_retire {r : Dev × Flash} {x : JRec} (hty : x.type = 1 ∨ x.type = 3) (h : r.1.mayAct x.type x.target = true) :
    Dev.carryRecord r x = (r.1.carryRetire r.2 x.target, r.2) := by
  rcases hty with e | e <;> simp [Dev.carryRecord, e ▸ h, e]

section
variable {fences due : List Nat} {rs : List (Nat × Nat)} {s : Dev}

theorem Waits.endFailedTests (h : Waits fences due rs s) : s.endFailedTests = s :=
  Dev.each_induction (fun t => t = s) _ _ (fun p _ t ht => by rw [ht]; exact Dev.endTests_idle h.swaps p) s rfl

theorem Waits.recordSwaps (h : Waits fences due rs s) : s.recordSwaps = s := by
  unfold Dev.recordSwaps
  rw [h.swaps]
  exact ite_self s

theorem Waits.recordPolicy (h : Waits fences due rs s) : s.recordPolicy = s := by
  simp [Dev.recordPolicy, h.policies]

/-- A round carries out the open records, where every fence and retirement that waits has its record. -/
theorem Waits.leadRound (h : Waits fences due rs s) (f : Flash) {u : Dev} {fences' : List Nat} {rs' : List (Nat × Nat)}
    (hfences : fences.foldl Dev.recordFence (s, f) = (u, f)) (hu : Waits fences' due rs' u) (hdue : ∀ pc ∈ due, u.recordRetire pc = u) :
    Dev.leadRound (s, f) = (u.ctl.journal.filter (fun x => x.isOpen)).foldl Dev.carryRecord (u, f) := by
  have heach : u.each u.spr.due (fun pc s => s.recordRetire pc) = u :=
    Dev.each_induction (fun t => t = u) _ _ (fun pc hpc t ht => by rw [ht]; exact hdue pc (hu.due ▸ hpc)) u rfl
  have hwrite : Dev.writeRecords (s, f) = (u, f) := by
    unfold Dev.writeRecords
    rw [h.fences, hfences]
    simp only [heach, hu.recordSwaps, hu.recordPolicy]
  unfold Dev.leadRound
  rw [hwrite]
  simp only [hu.endFailedTests]

/-- With nothing left to carry out, rounds change nothing. -/
theorem Waits.leadRound_idle (h : Waits [] [] rs s) (hrs : ∀ x ∈ rs, x.1 = 6 ∧ s.fenced x.2 = true) (f : Flash) : Dev.leadRound (s, f) = (s, f) := by
  rw [h.leadRound f (u := s) rfl h (fun _ hpc => absurd hpc (by simp))]
  refine foldl_stays fun x hx => ?_
  obtain ⟨hmem, ho⟩ := List.mem_filter.1 hx
  rcases h.records x hmem ho with hty | hin
  · exact Dev.carryRecord_fill _ hty
  · obtain ⟨hty, hfenced⟩ : x.type = 6 ∧ s.fenced x.target = true := hrs _ hin
    cases hact : s.mayAct 6 x.target
    · exact Dev.carryRecord_waits (by rw [hty]; exact hact)
    · rw [Dev.carryRecord_fence hty hact, Dev.fence_fenced hfenced]

theorem leadRounds_fixed {r : Dev × Flash} (h : Dev.leadRound r = r) (n : Nat) : leadRounds n r = r := by
  induction n with
  | zero => rfl
  | succ n ih => rw [leadRounds, h, ih]

end

/-! ### What goes on after the rounds -/

/-- Loads that waited for fills, and dies in CORES, go on. -/
def Dev.goOn (s : Dev) : Dev := (s.each s.partitions (fun p s => s.loadBind p)).each (List.range 6) (fun d s => s.leaveCores d)

theorem Dev.lead_eq (r : Dev × Flash) : Dev.lead r =
    ((if r.1.hasLead then leadRounds (r.1.waiting + 1) r else r).1.goOn, (if r.1.hasLead then leadRounds (r.1.waiting + 1) r else r).2) := rfl

/-- The held fields but the stages of the dies. -/
def laterFields : List Fld := [Fld.CTL_DIECFG_FENCED, Fld.CTL_CSTAT_ROLE, Fld.SPR_CLSTAT_RETIRED, Fld.HLK_PSTAT_LINK, Fld.FAB_PORT_STAT_LINK]

theorem laterFields_held : ∀ f ∈ laterFields, f ∈ heldFields := by decide

/-- The write of a die that leaves CORES, before the device's stage follows. -/
def Dev.dieReady (s : Dev) (d : Nat) : Dev :=
  (s.setFld Fld.CTL_DBOOT_STAGE d stReady).setFld Fld.CTL_BOOT_READY 0 ((s.setFld Fld.CTL_DBOOT_STAGE d stReady).fld Fld.CTL_BOOT_READY 0 ||| 2 ^ d)

theorem Dev.setDieStage_ready (s : Dev) (d : Nat) : s.setDieStage d stReady = (s.dieReady d).updateStage := rfl

theorem Dev.setDieStage_ready_stage (s : Dev) (d : Nat) : (s.setDieStage d stReady).dieStage d = stReady := by
  rw [Dev.setDieStage_ready, Dev.dieStage, (Holds.updateStage _).fld _ (by decide), Dev.dieReady,
    Dev.fld_setFld_kind _ _ _ _ _ _ (by simp [Fld.CTL_BOOT_READY, Fld.CTL_DBOOT_STAGE]), Dev.fld_setFld_self _ _ _ _ (by decide)]
  rfl

theorem Dev.setDieStage_ready_ne (s : Dev) {d e : Nat} (h : d ≠ e) : (s.setDieStage e stReady).dieStage d = s.dieStage d := by
  rw [Dev.setDieStage_ready, Dev.dieStage, (Holds.updateStage _).fld _ (by decide), Dev.dieReady,
    Dev.fld_setFld_kind _ _ _ _ _ _ (by simp [Fld.CTL_BOOT_READY, Fld.CTL_DBOOT_STAGE]), Dev.fld_setFld_inst _ _ _ _ _ _ h]
  rfl

/-- What lets a die leave CORES. -/
def Dev.Leaves (s : Dev) (d : Nat) : Prop :=
  s.booting = true ∧ s.dieStage d = stCores ∧ s.ctl.tested.contains d = true ∧ (!s.fenced d) = true ∧ (!s.ctl.rejoin.contains d) = true
    ∧ s.spr.fills.all (fun f => f.die != d) = true ∧ s.spr.due.all (fun pc => slotDie pc != d) = true

theorem Dev.leaveCores_of_leaves {s : Dev} {d : Nat} (h : s.Leaves d) : s.leaveCores d = s.setDieStage d stReady := if_pos h
theorem Dev.leaveCores_of_not {s : Dev} {d : Nat} (h : ¬ s.Leaves d) : s.leaveCores d = s := if_neg h

theorem Dev.not_leaves {s : Dev} {d : Nat} (h : s.leaveCores d = s) : ¬ s.Leaves d := by
  intro hl
  have e := Dev.setDieStage_ready_stage s d
  rw [← Dev.leaveCores_of_leaves hl, h, hl.2.1] at e
  cases e

theorem Dev.leaveCores_keeps (s : Dev) (d : Nat) : Keeps laterFields s (s.leaveCores d) := by
  by_cases h : s.Leaves d
  · rw [Dev.leaveCores_of_leaves h, Dev.setDieStage_ready]
    exact ((Keeps.setFld s _ _ _ (by decide) (by decide)).trans (Keeps.setFld _ _ _ _ (by decide) (by decide))).trans
      ((Holds.updateStage _).mono laterFields_held)
  · rw [Dev.leaveCores_of_not h]
    exact Keeps.refl s

/-- The stage of a die that is not in CORES does not move. -/
theorem Dev.leaveCores_stage {s : Dev} {d : Nat} (h : s.dieStage d ≠ stCores) (e : Nat) : (s.leaveCores e).dieStage d = s.dieStage d := by
  by_cases hl : s.Leaves e
  · have hne : d ≠ e := fun he => h (he ▸ hl.2.1)
    rw [Dev.leaveCores_of_leaves hl, Dev.setDieStage_ready_ne s hne]
  · rw [Dev.leaveCores_of_not hl]

theorem Dev.goOn_keeps (s : Dev) : Keeps laterFields s s.goOn :=
  (Keeps.each s _ _ fun p _ t => (Holds.loadBind t p).mono laterFields_held).trans (Keeps.each _ _ _ fun d _ t => Dev.leaveCores_keeps t d)

theorem Dev.goOn_stage {s : Dev} {d : Nat} (h : s.dieStage d ≠ stCores) : s.goOn.dieStage d = s.dieStage d := by
  have hload : (s.each s.partitions (fun p s => s.loadBind p)).dieStage d = s.dieStage d :=
    (Keeps.each (fs := heldFields) s _ _ fun p _ t => Holds.loadBind t p).fld Fld.CTL_DBOOT_STAGE (by decide) d
  refine Dev.each_induction (fun t => t.dieStage d = s.dieStage d) _ _ (fun e _ t ht => ?_) _ hload
  rw [Dev.leaveCores_stage (by rw [ht]; exact h), ht]

/-- Nothing goes on where every load is bound and no die may leave CORES. -/
theorem Dev.goOn_idle {s : Dev} (hloads : ∀ p pl, (s.part p).loading = some pl → pl.bound = true) (hdies : ∀ d < 6, ¬ s.Leaves d) : s.goOn = s := by
  have hload : ∀ p, s.loadBind p = s := by
    intro p
    unfold Dev.loadBind
    split
    · rfl
    · rename_i pl hpl
      simp [hloads p pl hpl]
  have hbind : s.each s.partitions (fun p s => s.loadBind p) = s :=
    Dev.each_induction (fun t => t = s) _ _ (fun p _ t ht => by rw [ht]; exact hload p) s rfl
  unfold Dev.goOn
  rw [hbind]
  exact Dev.each_induction (fun t => t = s) _ _ (fun d hd t ht => by rw [ht]; exact Dev.leaveCores_of_not (hdies d (List.mem_range.1 hd))) s rfl

theorem Leads.waits {s : Dev} {fences due : List Nat} {xs : List JRec} {rs : List (Nat × Nat)} (h : Leads s fences due [] xs)
    (hrs : ∀ x ∈ xs, (x.type, x.target) ∈ rs) : Waits fences due rs s :=
  ⟨h.fences, h.due, h.swaps, h.policies, fun r hr ho => (h.records r hr ho).imp_right (hrs r)⟩

theorem Leads.not_leaves {s : Dev} {fences due : List Nat} {swaps : List SwapTest} {xs : List JRec} (h : Leads s fences due swaps xs) {d : Nat} (hd : d < 6) :
    ¬ s.Leaves d := Dev.not_leaves (h.dies d hd)

end Sys2Proof.Machine
end

section
/-!
PROOF. Acknowledgements, NEXT, and controllers that are reset.
-/
namespace Sys2Proof.Machine

/-! ### A lead for which nothing waits -/

theorem Dev.lead_idle {s : Dev} {rs : List (Nat × Nat)} (h : Waits [] [] rs s) (hrs : ∀ x ∈ rs, x.1 = 6 ∧ s.fenced x.2 = true)
    (hloads : ∀ p pl, (s.part p).loading = some pl → pl.bound = true) (hdies : ∀ d < 6, ¬ s.Leaves d) (f : Flash) : Dev.lead (s, f) = (s, f) := by
  have hrounds : (if s.hasLead then leadRounds (s.waiting + 1) (s, f) else (s, f)) = (s, f) := by
    rw [leadRounds_fixed (h.leadRound_idle hrs f), ite_self]
  rw [Dev.lead_eq, hrounds, Dev.goOn_idle hloads hdies]

/-! ### Acknowledgements (R496) -/

theorem JRec.mirrored_keeps (r : JRec) (b : Bool) :
    (r.mirrored b).type = r.type ∧ (r.mirrored b).target = r.target ∧ (r.mirrored b).isOpen = r.isOpen := by
  unfold JRec.mirrored
  split
  · split
    · exact ⟨rfl, rfl, rfl⟩
    · exact ⟨rfl, rfl, rfl⟩
  · exact ⟨rfl, rfl, rfl⟩

/-- The journal with the record of a SEQ acknowledged. -/
def Dev.acked (s : Dev) (seq : Nat) (b : Bool) : List JRec := s.ctl.journal.map fun r => if r.seq ≠ seq then r else r.mirrored b

/-- NEXT's message that it holds a record. -/
def Dev.sendAck (s : Dev) (seq : Nat) (b : Bool) : Dev :=
  match s.nextDie with
  | some n => s.ctlSend n s.leadDie (.ack seq b)
  | none => s

theorem Dev.sendAck_out (s : Dev) (seq : Nat) (b : Bool) :
    ∃ o, s.sendAck seq b = { s with out := o } ∧ ∀ n, s.nextDie = some n → Out.ctl true n s.leadDie (.ack seq b) ∈ o := by
  unfold Dev.sendAck
  cases s.nextDie with
  | none => exact ⟨s.out, rfl, fun _ h => by cases h⟩
  | some n =>
    obtain ⟨o, e, hmem⟩ := s.ctlSend_out n s.leadDie (.ack seq b)
    refine ⟨s.out ++ o, e, fun m h => ?_⟩
    obtain rfl := Option.some.inj h
    exact List.mem_append_right _ hmem

theorem Dev.mirrorAck_def (s : Dev) (seq : Nat) (b : Bool) : s.mirrorAck seq b =
    if s.acked seq b = s.ctl.journal then s
    else { s.sendAck seq b with ctl := { (s.sendAck seq b).ctl with journal := s.acked seq b } } := rfl

theorem Dev.mirrorAck_eq (s : Dev) (seq : Nat) (b : Bool) : ∃ o, s.mirrorAck seq b = s.putJournal (s.acked seq b) o ∧
    (s.acked seq b ≠ s.ctl.journal → ∀ n, s.nextDie = some n → Out.ctl true n s.leadDie (.ack seq b) ∈ o) := by
  rw [Dev.mirrorAck_def]
  by_cases hjs : s.acked seq b = s.ctl.journal
  · rw [if_pos hjs, hjs]
    exact ⟨s.out, rfl, fun h => absurd rfl h⟩
  · obtain ⟨o, e, hmem⟩ := s.sendAck_out seq b
    rw [if_neg hjs, e]
    exact ⟨o, rfl, fun _ => hmem⟩

/-- What an acknowledgement leaves waiting is what waited. -/
theorem Waits.acked {fences due : List Nat} {rs : List (Nat × Nat)} {s : Dev} (h : Waits fences due rs s) (seq : Nat) (b : Bool) (o : List Out) :
    Waits fences due rs (s.putJournal (s.acked seq b) o) :=
  h.mapAcks o fun r => by
    split
    · exact ⟨rfl, rfl, rfl⟩
    · exact r.mirrored_keeps b

/-- An acknowledgement for which nothing waits changes the journal alone. -/
theorem journalMirrorAck_settled (s : State) (seq : Word) (b : Bool) (h : s.dev.settled) : ∃ o,
    exec (.journalMirrorAck seq b) s = .next { s with dev := s.dev.putJournal (s.dev.acked seq.toNat b) o } ∧
    (s.dev.acked seq.toNat b ≠ s.dev.ctl.journal → ∀ n, s.dev.nextDie = some n → Out.ctl true n s.dev.leadDie (.ack seq.toNat b) ∈ o) := by
  obtain ⟨o, e, hout⟩ := s.dev.mirrorAck_eq seq.toNat b
  refine ⟨o, ?_, hout⟩
  have hw : Waits [] [] [] (s.dev.putJournal (s.dev.acked seq.toNat b) o) := (Leads.waits h (by simp)).acked _ _ o
  have hlead := Dev.lead_idle hw (by simp) h.loads (fun d hd => h.not_leaves hd) s.flash
  have hexec : exec (.journalMirrorAck seq b) s = if s.dev.hasLead then okFlash s (Dev.lead (s.dev.mirrorAck seq.toNat b, s.flash)) else ok s s.dev := rfl
  rw [hexec, if_pos h.lead, e, hlead]
  rfl

theorem Frame.putJournal (s : Dev) (js : List JRec) (o : List Out) : Frame { ctl := True } s (s.putJournal js o) :=
  ⟨fun _ _ _ _ => rfl, fun _ _ => rfl, fun _ _ => rfl, fun _ _ => rfl, fun _ _ => rfl, fun _ => rfl, fun _ => rfl, fun h => absurd trivial h, fun _ => rfl,
    fun _ => rfl, rfl⟩

theorem Dev.acked_open (s : Dev) (seq : Nat) :
    s.acked seq false = s.ctl.journal.map fun x => if x.seq = seq then { x with openAck := true } else x :=
  List.map_congr_left fun x _ => by by_cases h : x.seq = seq <;> simp [h, JRec.mirrored]

theorem Dev.acked_closed (s : Dev) (seq : Nat) :
    s.acked seq true = s.ctl.journal.map fun x => if x.seq = seq ∧ x.isOpen = false then { x with closedAck := true } else x :=
  List.map_congr_left fun x _ => by by_cases h : x.seq = seq <;> cases ho : x.isOpen <;> simp [h, ho, JRec.mirrored]

/-! ### NEXT and the lead that acts alone (R494, R496) -/

/-- The registers of a new NEXT. -/
def Dev.nextRegs (s : Dev) (d : Nat) : Dev :=
  (((s.setRole d rlNext).setFld Fld.CTL_ELECT_NEXT 0 d).setFld Fld.CTL_ELECT_NEXTV 0 1).setFld Fld.CTL_JSTAT_SOLO 0 0

/-- The registers of a lead that acts unmirrored. -/
def Dev.soloRegs (s : Dev) : Dev := (s.setFld Fld.CTL_ELECT_NEXTV 0 0).setFld Fld.CTL_JSTAT_SOLO 0 1

/-- A FOLLOWER that is not fenced becomes NEXT, or the lead acts unmirrored; the journal's acknowledgements follow. -/
theorem Dev.appointNext_cases (s : Dev) : ∃ o g, (∀ r : JRec, (g r).type = r.type ∧ (g r).target = r.target ∧ (g r).isOpen = r.isOpen) ∧
    ((∃ d, d < 6 ∧ s.fenced d = false ∧ s.role d = rlFollower ∧ s.appointNext = (s.nextRegs d).putJournal (s.ctl.journal.map g) o) ∨
      s.appointNext = s.soloRegs.putJournal (s.ctl.journal.map g) o) := by
  have keeps : ∀ (b : Bool) (r : JRec), (if r.isOpen then { r with openAck := b } else { r with closedAck := true }).type = r.type ∧
      (if r.isOpen then { r with openAck := b } else { r with closedAck := true }).target = r.target ∧
      (if r.isOpen then { r with openAck := b } else { r with closedAck := true }).isOpen = r.isOpen := by
    intro b r
    split
    · exact ⟨rfl, rfl, rfl⟩
    · exact ⟨rfl, rfl, rfl⟩
  unfold Dev.appointNext
  split
  · rename_i d hd
    have hrole := List.find?_some hd
    have hlive := List.mem_filter.1 (List.mem_of_find?_eq_some hd)
    obtain ⟨o, e⟩ := (s.nextRegs d).remirror_eq
    exact ⟨o, _, keeps false, .inl ⟨d, List.mem_range.1 hlive.1, by simpa using hlive.2, by simpa using hrole, e⟩⟩
  · exact ⟨_, _, keeps true, .inr rfl⟩

theorem Dev.nextRegs_fld (s : Dev) (d : Nat) (f : Fld) (i : Nat) (h1 : f.reg ≠ .CTL_CSTAT) (h2 : f.reg ≠ .CTL_ELECT) (h3 : f.reg ≠ .CTL_JSTAT) :
    (s.nextRegs d).fld f i = s.fld f i := by
  unfold Dev.nextRegs Dev.setRole
  rw [Dev.fld_setFld_kind _ _ _ _ _ _ h3, Dev.fld_setFld_kind _ _ _ _ _ _ h2, Dev.fld_setFld_kind _ _ _ _ _ _ h2, Dev.fld_setFld_kind _ _ _ _ _ _ h1]

theorem Dev.soloRegs_fld (s : Dev) (f : Fld) (i : Nat) (h2 : f.reg ≠ .CTL_ELECT) (h3 : f.reg ≠ .CTL_JSTAT) : s.soloRegs.fld f i = s.fld f i := by
  unfold Dev.soloRegs
  rw [Dev.fld_setFld_kind _ _ _ _ _ _ h3, Dev.fld_setFld_kind _ _ _ _ _ _ h2]

/-- A new NEXT takes no other controller's role. -/
theorem Dev.nextRegs_role (s : Dev) {d e : Nat} (h : e ≠ d) : (s.nextRegs d).role e = s.role e := by
  unfold Dev.role Dev.nextRegs Dev.setRole
  rw [Dev.fld_setFld_kind _ _ _ _ _ _ (by decide), Dev.fld_setFld_kind _ _ _ _ _ _ (by decide), Dev.fld_setFld_kind _ _ _ _ _ _ (by decide),
    Dev.fld_setFld_inst _ _ _ _ _ _ h]

theorem Dev.nextRegs_nextDie (s : Dev) (d : Nat) : (s.nextRegs d).nextDie = some (d % 8) := by
  have hv : (s.nextRegs d).flag Fld.CTL_ELECT_NEXTV 0 = true := by
    rw [Dev.flag, Dev.nextRegs, Dev.fld_setFld_kind _ _ _ _ _ _ (by decide), Dev.fld_setFld_self _ _ _ _ (by decide)]
    rfl
  have hn : (s.nextRegs d).fld Fld.CTL_ELECT_NEXT 0 = d % 8 := by
    rw [Dev.nextRegs, Dev.fld_setFld_kind _ _ _ _ _ _ (by decide), Dev.fld_setFld_apart _ _ _ _ _ _ (by decide) (by decide),
      Dev.fld_setFld_self _ _ _ _ (by decide)]
    rfl
  rw [Dev.nextDie, if_pos hv, hn]

theorem Dev.soloRegs_nextDie (s : Dev) : s.soloRegs.nextDie = none := by
  have hv : s.soloRegs.flag Fld.CTL_ELECT_NEXTV 0 = false := by
    rw [Dev.flag, Dev.soloRegs, Dev.fld_setFld_kind _ _ _ _ _ _ (by decide), Dev.fld_setFld_self _ _ _ _ (by decide)]
    rfl
  simp [Dev.nextDie, hv]

theorem Dev.soloRegs_solo (s : Dev) : s.soloRegs.solo = true := by
  rw [Dev.solo, Dev.flag, Dev.soloRegs, Dev.fld_setFld_self _ _ _ _ (by decide)]
  rfl

/-! ### A controller that is reset (R501) -/

/-- The registers of a controller that is reset. -/
def Dev.downRegs (s : Dev) (d : Nat) : Dev :=
  let s := (s.setRole d rlDown).setFld Fld.CTL_CSTAT_MISSED d 0
  if s.booting then s.setFld Fld.CTL_DBOOT_CRESET d 1 else s

/-- A controller that waits to join again. -/
def Dev.toRejoin (s : Dev) (d : Nat) : Dev := { s with ctl := { s.ctl with rejoin := s.ctl.rejoin ++ [d] } }

theorem Dev.resetController_eq {s : Dev} {d : Nat} (hf : s.fenced d = false) (hr : s.role d ≠ rlDown) :
    s.resetController d = ((s.downRegs d).toRejoin d).raiseDev Ev.CTL_RESET := by
  unfold Dev.resetController
  rw [if_neg (by simp [hf, hr])]
  rfl

theorem Dev.downRegs_fld (s : Dev) (d : Nat) (f : Fld) (i : Nat) (h1 : f.reg ≠ .CTL_CSTAT) (h2 : f.apart Fld.CTL_DBOOT_CRESET = true) :
    (s.downRegs d).fld f i = s.fld f i := by
  have h : ((s.setRole d rlDown).setFld Fld.CTL_CSTAT_MISSED d 0).fld f i = s.fld f i := by
    rw [Dev.fld_setFld_kind _ _ _ _ _ _ h1, Dev.setRole, Dev.fld_setFld_kind _ _ _ _ _ _ h1]
  unfold Dev.downRegs
  dsimp only
  split
  · rw [Dev.fld_setFld_of_apart _ _ _ _ (by decide) h2, h]
  · exact h

theorem Dev.downRegs_role (s : Dev) (d : Nat) : (s.downRegs d).role d = rlDown := by
  have h : ((s.setRole d rlDown).setFld Fld.CTL_CSTAT_MISSED d 0).role d = rlDown := by
    rw [Dev.role, Dev.fld_setFld_apart _ _ _ _ _ _ (by decide) (by decide), Dev.setRole, Dev.fld_setFld_self _ _ _ _ (by decide)]
    rfl
  unfold Dev.downRegs
  dsimp only
  split
  · rw [Dev.role, Dev.fld_setFld_kind _ _ _ _ _ _ (by decide)]
    exact h
  · exact h

theorem Dev.downRegs_same (s : Dev) (d : Nat) :
    (s.downRegs d).spr = s.spr ∧ (s.downRegs d).ctl = s.ctl ∧ (s.downRegs d).sby = s.sby ∧ (s.downRegs d).parts = s.parts := by
  unfold Dev.downRegs
  dsimp only
  split
  · exact ⟨rfl, rfl, rfl, rfl⟩
  · exact ⟨rfl, rfl, rfl, rfl⟩

/-- What the choice of a NEXT leaves: another controller's role, what waits, and all but the registers of roles, election and journal. -/
structure NextChosen (s t : Dev) : Prop where
  fld : ∀ f i, f.reg ≠ .CTL_CSTAT → f.reg ≠ .CTL_ELECT → f.reg ≠ .CTL_JSTAT → t.fld f i = s.fld f i
  role : ∀ e, s.role e ≠ rlFollower ∨ s.fenced e = true → t.role e = s.role e
  next : ∀ n, s.role n ≠ rlFollower → t.nextDie ≠ some n
  solo : t.nextDie = none → t.solo = true
  waits : ∀ {fences due : List Nat} {rs : List (Nat × Nat)}, Waits fences due rs s → Waits fences due rs t
  ctl : t.ctl = { s.ctl with journal := t.ctl.journal }
  spr : t.spr = s.spr
  sby : t.sby = s.sby
  parts : t.parts = s.parts

theorem Dev.appointNext_chosen (s : Dev) : NextChosen s s.appointNext := by
  obtain ⟨o, g, hg, ⟨d, hd, hlive, hrole, e⟩ | e⟩ := s.appointNext_cases
  · rw [e]
    have hdie : (s.nextRegs d).nextDie = some d := by rw [Dev.nextRegs_nextDie, Nat.mod_eq_of_lt (by omega)]
    refine ⟨fun f i h1 h2 h3 => s.nextRegs_fld d f i h1 h2 h3, fun e he => s.nextRegs_role ?_, fun n hn h => hn ?_, fun h => ?_, fun h => ?_, rfl, rfl, rfl, rfl⟩
    · rintro rfl
      exact he.elim (fun h => h hrole) (fun h => by rw [hlive] at h; cases h)
    · exact Option.some.inj (hdie.symm.trans h) ▸ hrole
    · exact absurd (hdie.symm.trans h) (by simp)
    · exact Waits.mapAcks (s := s.nextRegs d) ⟨h.fences, h.due, h.swaps, h.policies, h.records⟩ o hg
  · rw [e]
    refine ⟨fun f i _ h2 h3 => s.soloRegs_fld f i h2 h3, fun e _ => s.soloRegs_fld _ _ (by decide) (by decide), fun n _ h => ?_,
      fun _ => s.soloRegs_solo, fun h => ?_, rfl, rfl, rfl, rfl⟩
    · exact absurd (s.soloRegs_nextDie.symm.trans h) (by simp)
    · exact Waits.mapAcks (s := s.soloRegs) ⟨h.fences, h.due, h.swaps, h.policies, h.records⟩ o hg

/-- What lets a die leave CORES let it do so before the controllers changed. -/
theorem Dev.Leaves.back {s t : Dev} {d : Nat} (h : t.Leaves d) (hsby : t.sby = s.sby) (hspr : t.spr = s.spr) (hboot : t.fld Fld.CTL_BOOT_STAGE 0 = s.fld Fld.CTL_BOOT_STAGE 0)
    (hstage : t.dieStage d = s.dieStage d) (hfenced : t.fenced d = s.fenced d) (htested : t.ctl.tested = s.ctl.tested)
    (hrejoin : ∀ e ∈ s.ctl.rejoin, e ∈ t.ctl.rejoin) : s.Leaves d := by
  obtain ⟨h1, h2, h3, h4, h5, h6, h7⟩ := h
  have hb : t.booting = s.booting := by rw [Dev.booting, Dev.alive, Dev.bootStage, hsby, hboot]; rfl
  refine ⟨hb ▸ h1, hstage ▸ h2, htested ▸ h3, hfenced ▸ h4, ?_, hspr ▸ h6, hspr ▸ h7⟩
  simp only [Bool.not_eq_true', List.contains_eq_mem, decide_eq_false_iff_not] at h5 ⊢
  exact fun hmem => h5 (hrejoin d hmem)

/-! ### NEXT that does not acknowledge (R496) -/

/-- What a reset of a controller leaves. -/
structure ControllerReset (s t : Dev) (d : Nat) : Prop where
  fld : ∀ f i, f.reg.counting = false → f.reg ≠ .CTL_CSTAT → f.apart Fld.CTL_DBOOT_CRESET = true → t.fld f i = s.fld f i
  role : t.role d = rlDown
  events : t.eventsDev Ev.CTL_RESET = min 0xFFFFFFFF (s.eventsDev Ev.CTL_RESET + 1)
  ctl : t.ctl = { s.ctl with rejoin := s.ctl.rejoin ++ [d] }
  spr : t.spr = s.spr
  sby : t.sby = s.sby
  parts : t.parts = s.parts

theorem Dev.resetController_reset {s : Dev} {d : Nat} (hf : s.fenced d = false) (hr : s.role d ≠ rlDown) : ControllerReset s (s.resetController d) d := by
  obtain ⟨hspr, hctl, hsby, hparts⟩ := s.downRegs_same d
  have hq := Quiet.raiseDev ((s.downRegs d).toRejoin d) Ev.CTL_RESET
  rw [Dev.resetController_eq hf hr]
  refine ⟨fun f i hc h1 h2 => (hq.fld f i hc).trans (s.downRegs_fld d f i h1 h2), (hq.fld _ _ rfl).trans (s.downRegs_role d), ?_, hq.ctl.trans ?_,
    hq.spr.trans hspr, hq.sby.trans hsby, hq.parts.trans hparts⟩
  · rw [Dev.raiseDev_eventsDev]
    exact congrArg (fun x => min 0xFFFFFFFF (x + 1)) (s.downRegs_fld d Fld.CTL_EVCNT_DEV_COUNT Ev.CTL_RESET (by decide) (by decide))
  · exact congrArg (fun c : Control => { c with rejoin := c.rejoin ++ [d] }) hctl

theorem Dev.ackTimeout_eq {s : Dev} {r : JRec} {n : Nat} (hlead : s.hasLead = true) (hr : r ∈ s.ctl.journal) (hack : r.acked = false)
    (hn : s.nextDie = some n) : s.ackTimeout = (s.resetController n).appointNext := by
  have hall : s.ctl.journal.all JRec.acked = false := List.all_eq_false.2 ⟨r, hr, by simp [hack]⟩
  simp [Dev.ackTimeout, hlead, hall, hn]

theorem journalAckTimeout_settled (s : State) (r : JRec) (n : Nat) (h : s.dev.settled) (hr : r ∈ s.dev.ctl.journal) (hack : r.acked = false)
    (hn : s.dev.nextDie = some n) (hf : s.dev.fenced n = false) (hrole : s.dev.role n = 2) :
    leadsTo (exec .journalAckTimeout s) (fun t => t.dev.role n = 3 ∧ n ∈ t.dev.ctl.rejoin ∧ t.dev.nextDie ≠ some n ∧
      t.dev.eventsDev Ev.CTL_RESET = min 0xFFFFFFFF (s.dev.eventsDev Ev.CTL_RESET + 1) ∧ (t.dev.nextDie = none → t.dev.solo = true)) := by
  have hreset := Dev.resetController_reset hf (by rw [hrole]; decide)
  have hnext := (s.dev.resetController n).appointNext_chosen
  have e := Dev.ackTimeout_eq h.lead hr hack hn
  rw [← e] at hnext
  have hdown : (s.dev.resetController n).role n ≠ rlFollower := by rw [hreset.role]; decide
  have hw0 : Waits [] [] [] s.dev := Leads.waits h (by simp)
  have hw : Waits [] [] [] s.dev.ackTimeout := hnext.waits
    ⟨by rw [hreset.ctl]; exact hw0.fences, by rw [hreset.spr]; exact hw0.due, by rw [hreset.spr]; exact hw0.swaps, by rw [hreset.spr]; exact hw0.policies,
      by rw [hreset.ctl]; exact hw0.records⟩
  have hloads : ∀ p pl, (s.dev.ackTimeout.part p).loading = some pl → pl.bound = true := by
    unfold Dev.part
    rw [hnext.parts, hreset.parts]
    exact h.loads
  have hfld : ∀ f i, f.reg.counting = false → f.reg ≠ .CTL_CSTAT → f.reg ≠ .CTL_ELECT → f.reg ≠ .CTL_JSTAT → f.apart Fld.CTL_DBOOT_CRESET = true →
      s.dev.ackTimeout.fld f i = s.dev.fld f i := fun f i hc h1 h2 h3 ha => (hnext.fld f i h1 h2 h3).trans (hreset.fld f i hc h1 ha)
  have hdies : ∀ d < 6, ¬ s.dev.ackTimeout.Leaves d := fun d hd hl => h.not_leaves hd (hl.back (hnext.sby.trans hreset.sby) (hnext.spr.trans hreset.spr)
    (hfld _ _ rfl (by decide) (by decide) (by decide) (by decide)) (hfld _ _ rfl (by decide) (by decide) (by decide) (by decide))
    (by rw [Dev.fenced, Dev.flag, hfld _ _ rfl (by decide) (by decide) (by decide) (by decide)]; rfl)
    (by rw [hnext.ctl, hreset.ctl]) (fun e he => by rw [hnext.ctl, hreset.ctl]; exact List.mem_append_left _ he))
  have hexec : exec .journalAckTimeout s = okFlash s (Dev.lead (s.dev.ackTimeout, s.flash)) := rfl
  rw [hexec, Dev.lead_idle hw (by simp) hloads hdies]
  refine ⟨_, rfl, (hnext.role n (.inl hdown)).trans hreset.role, ?_, hnext.next n hdown, ?_, hnext.solo⟩
  · rw [hnext.ctl, hreset.ctl]
    exact List.mem_append_right _ (List.mem_singleton.2 rfl)
  · exact (hnext.fld Fld.CTL_EVCNT_DEV_COUNT Ev.CTL_RESET (by decide) (by decide) (by decide)).trans hreset.events

end Sys2Proof.Machine
end

section
/-!
PROOF. The fence of a die.
-/
namespace Sys2Proof.Machine

/-- What one update of the list establishes and every update keeps, where an invariant of them all holds. -/
theorem Dev.each_establishes_under {α : Type} (I P : Dev → Prop) (f : α → Dev → Dev) {xs : List α} {x : α} (hx : x ∈ xs)
    (hinv : ∀ y ∈ xs, ∀ s, I s → I (f y s)) (hset : ∀ s, I s → P (f x s)) (hkeep : ∀ y ∈ xs, ∀ s, I s → P s → P (f y s)) (s : Dev) (hs : I s) :
    P (s.each xs f) := by
  induction xs generalizing s with
  | nil => cases hx
  | cons y ys ih =>
    have hy : I (f y s) := hinv y List.mem_cons_self s hs
    have hinv' : ∀ z ∈ ys, ∀ t, I t → I (f z t) := fun z hz => hinv z (List.mem_cons_of_mem _ hz)
    have hkeep' : ∀ z ∈ ys, ∀ t, I t → P t → P (f z t) := fun z hz => hkeep z (List.mem_cons_of_mem _ hz)
    rcases List.mem_cons.1 hx with rfl | hx
    · exact (Dev.each_induction (fun t => I t ∧ P t) f ys (fun z hz t ht => ⟨hinv' z hz t ht.1, hkeep' z hz t ht.1 ht.2⟩) _ ⟨hy, hset s hs⟩).2
    · exact ih hx hinv' hkeep' (f y s) hy

/-! ### A fenced die (R37, R488, R502) -/

/-- The fields that say that a die is out: fenced, failed, its controller DOWN. -/
def outFields : List Fld := [Fld.CTL_DIECFG_FENCED, Fld.CTL_DBOOT_STAGE, Fld.CTL_CSTAT_ROLE]

theorem outFields_held : ∀ f ∈ outFields, f ∈ heldFields := by decide

/-- A die is out, and of what the lead had to do only records of its fence may still be open. -/
structure DieOut (d : Nat) (s : Dev) : Prop where
  fenced : s.fenced d = true
  stage : s.dieStage d = stFailed
  role : s.role d = rlDown
  waits : Waits [] [] [(6, d)] s

section
variable {d : Nat} {s t : Dev}

theorem DieOut.keeps (h : DieOut d s) (k : Keeps outFields s t) : DieOut d t :=
  ⟨by rw [Dev.fenced, Dev.flag, k.fld _ (by decide)]; exact h.fenced, (k.fld Fld.CTL_DBOOT_STAGE (by decide) d).trans h.stage,
    (k.fld Fld.CTL_CSTAT_ROLE (by decide) d).trans h.role, h.waits.keeps k⟩

theorem DieOut.holds (h : DieOut d s) (k : Holds s t) : DieOut d t := h.keeps (k.mono outFields_held)

theorem DieOut.closeRecord (h : DieOut d s) (ty tg : Nat) (a : Bool) : DieOut d (s.closeRecord ty tg a) := by
  have hw := h.waits.closeRecord_keeps ty tg a
  obtain ⟨o, e⟩ := s.closeRecord_eq ty tg a
  rw [e] at hw ⊢
  exact ⟨h.fenced, h.stage, h.role, hw⟩

theorem DieOut.dropFill (h : DieOut d s) (e k : Nat) : DieOut d (s.dropFill e k) :=
  ⟨h.fenced, h.stage, h.role, h.waits.fences, h.waits.due, h.waits.swaps, h.waits.policies, h.waits.records⟩

theorem DieOut.appointNext (h : DieOut d s) : DieOut d s.appointNext := by
  have hn := s.appointNext_chosen
  refine ⟨?_, ?_, ?_, hn.waits h.waits⟩
  · rw [Dev.fenced, Dev.flag, hn.fld _ _ (by decide) (by decide) (by decide)]
    exact h.fenced
  · exact (hn.fld Fld.CTL_DBOOT_STAGE d (by decide) (by decide) (by decide)).trans h.stage
  · exact (hn.role d (.inr h.fenced)).trans h.role

end

/-- A die is taken out: its registers, its cores, and its name in the lead's lists. -/
def Dev.takeOut (s : Dev) (d : Nat) : Dev :=
  let s := (s.setFld Fld.CTL_DIECFG_FENCED d 1).setFld Fld.CTL_DBOOT_STAGE d stFailed
  let s := (s.setRole d rlDown).setFld Fld.CTL_CSTAT_MISSED d 0
  { s with
    cores := SMap.clear s.cores (8192 * d) (8192 * (d + 1))
    ctl := { s.ctl with rejoin := s.ctl.rejoin.erase d, verified := s.ctl.verified.erase d, announced := s.ctl.announced.erase d
                        fences := s.ctl.fences.erase d } }

/-- What follows for its NEXT, its fills, ports and partition. -/
def Dev.cutOff (s : Dev) (d : Nat) (wasNext : Bool) : Dev :=
  let s := s.fenceClocks d
  let s := if wasNext then s.appointNext else s
  ((s.fenceSparing d).fencePorts d).fencePartition (s.partOf d)

/-- How a fence ends. -/
def Dev.fenceEnd (s : Dev) (d : Nat) (wasLead : Bool) : Dev :=
  let s := (s.raiseDev Ev.DIE_LOSS).closeRecord 6 d false
  let s := if wasLead then s.noLead else s
  let s := if d = 0 then s.identityLost else s
  s.updateStage

theorem Dev.fence_eq (s : Dev) (d : Nat) (h : s.fenced d = false) : ∃ wasNext wasLead, s.fence d = ((s.takeOut d).cutOff d wasNext).fenceEnd d wasLead := by
  unfold Dev.fence
  rw [if_neg (by simp [h])]
  exact ⟨_, _, rfl⟩

theorem Dev.takeOut_out {s : Dev} {d : Nat} (h : Waits [d] [] [(6, d)] s) : DieOut d (s.takeOut d) := by
  have hrole : (s.takeOut d).role d = rlDown := by
    have e : (s.takeOut d).role d = ((((s.setFld Fld.CTL_DIECFG_FENCED d 1).setFld Fld.CTL_DBOOT_STAGE d stFailed).setRole d rlDown).setFld
      Fld.CTL_CSTAT_MISSED d 0).fld Fld.CTL_CSTAT_ROLE d := rfl
    rw [e, Dev.fld_setFld_apart _ _ _ _ _ _ (by decide) (by decide), Dev.setRole, Dev.fld_setFld_self _ _ _ _ (by decide)]
    rfl
  have hother : ∀ f : Fld, f.reg ≠ .CTL_CSTAT → (s.takeOut d).fld f d = ((s.setFld Fld.CTL_DIECFG_FENCED d 1).setFld Fld.CTL_DBOOT_STAGE d stFailed).fld f d := by
    intro f hf
    have e : (s.takeOut d).fld f d = ((((s.setFld Fld.CTL_DIECFG_FENCED d 1).setFld Fld.CTL_DBOOT_STAGE d stFailed).setRole d rlDown).setFld
      Fld.CTL_CSTAT_MISSED d 0).fld f d := rfl
    rw [e, Dev.fld_setFld_kind _ _ _ _ _ _ hf, Dev.setRole, Dev.fld_setFld_kind _ _ _ _ _ _ hf]
  refine ⟨?_, ?_, hrole, ?_, h.due, h.swaps, h.policies, h.records⟩
  · rw [Dev.fenced, Dev.flag, hother _ (by decide), Dev.fld_setFld_kind _ _ _ _ _ _ (by decide), Dev.fld_setFld_self _ _ _ _ (by decide)]
    rfl
  · rw [Dev.dieStage, hother _ (by decide), Dev.fld_setFld_self _ _ _ _ (by decide)]
    rfl
  · have e : (s.takeOut d).ctl.fences = s.ctl.fences.erase d := rfl
    rw [e, h.fences]
    simp

/-! #### Its fills -/

/-- The fill of a cluster is given up, with its record. -/
def Dev.giveUpFill (s : Dev) (d k : Nat) : Dev :=
  match s.fillOf d k with
  | some f => (s.dropFill d k).closeRecord 2 (slotId d k f.slot) true
  | none => s

/-- FILL and SWAP of a cluster fall as one change. -/
def Dev.clearMarks (s : Dev) (d k : Nat) : Dev :=
  let i := clIdx d k
  if s.flag Fld.SPR_CLSTAT_FILL i || s.flag Fld.SPR_CLSTAT_SWAP i then
    ((s.setFld Fld.SPR_CLSTAT_FILL i 0).setFld Fld.SPR_CLSTAT_SWAP i 0).bumpGen d k
  else s

/-- The end of what was in progress in a cluster of a fenced die. -/
def Dev.endSparing (d k : Nat) (s : Dev) : Dev := ((s.giveUpFill d k).dropSwap d k).clearMarks d k

theorem Dev.fenceSparing_eq (s : Dev) (d : Nat) : s.fenceSparing d =
    s.each ((List.range 272).filter (fun k => (s.fillOf d k).isSome || (s.swapOf d k).isSome)) (fun k s => s.endSparing d k) := rfl

theorem Holds.clearMarks (s : Dev) (d k : Nat) : Holds s (s.clearMarks d k) :=
  Keeps.ite (((Keeps.setFld s _ _ _ (by decide) (by decide)).trans (Keeps.setFld _ _ _ _ (by decide) (by decide))).trans
    (Keeps.setFld _ _ _ _ (by decide) (by decide))) (Keeps.refl s)

theorem Dev.fillOf_none {s : Dev} {d k : Nat} (h : s.fillOf d k = none) : ∀ f ∈ s.spr.fills, f.cluster = k → f.die ≠ d := by
  intro f hf hk hd
  have := List.find?_eq_none.1 h f hf
  simp [hk, hd] at this

theorem Dev.giveUpFill_fills (s : Dev) (d k : Nat) :
    (∀ f ∈ (s.giveUpFill d k).spr.fills, f ∈ s.spr.fills) ∧ ∀ f ∈ (s.giveUpFill d k).spr.fills, f.cluster = k → f.die ≠ d := by
  unfold Dev.giveUpFill
  split
  · rename_i f _
    have hfills : ((s.dropFill d k).closeRecord 2 (slotId d k f.slot) true).spr.fills = s.spr.fills.filter (fun f => !(f.die == d && f.cluster == k)) := by
      obtain ⟨o, e⟩ := (s.dropFill d k).closeRecord_eq 2 (slotId d k f.slot) true
      rw [e]
      rfl
    rw [hfills]
    refine ⟨fun _ hm => (List.mem_filter.1 hm).1, fun x hx hxk hxd => ?_⟩
    have := (List.mem_filter.1 hx).2
    simp [hxk, hxd] at this
  · exact ⟨fun _ hm => hm, Dev.fillOf_none ‹_›⟩

theorem DieOut.giveUpFill {d : Nat} {s : Dev} (h : DieOut d s) (k : Nat) : DieOut d (s.giveUpFill d k) := by
  unfold Dev.giveUpFill
  split
  · exact (h.dropFill d k).closeRecord _ _ _
  · exact h

/-- It ends the cluster's fill, and no die's fill begins. -/
theorem Dev.endSparing_out {d : Nat} {s : Dev} (h : DieOut d s) (k : Nat) : DieOut d (s.endSparing d k) ∧
    (∀ f ∈ (s.endSparing d k).spr.fills, f ∈ s.spr.fills) ∧ ∀ f ∈ (s.endSparing d k).spr.fills, f.cluster = k → f.die ≠ d := by
  have hout := h.giveUpFill k
  have hmarks := Holds.clearMarks (s.giveUpFill d k) d k
  rw [Dev.endSparing, Dev.dropSwap_idle hout.waits.swaps, hmarks.spr]
  exact ⟨hout.holds hmarks, s.giveUpFill_fills d k⟩

theorem Dev.fenceSparing_out {d : Nat} {s : Dev} (h : DieOut d s) :
    DieOut d (s.fenceSparing d) ∧ ∀ f ∈ (s.fenceSparing d).spr.fills, f.cluster < 272 → f.die ≠ d := by
  rw [Dev.fenceSparing_eq]
  have hall : DieOut d (s.each ((List.range 272).filter (fun k => (s.fillOf d k).isSome || (s.swapOf d k).isSome)) (fun k s => s.endSparing d k)) ∧
      ∀ f ∈ (s.each ((List.range 272).filter (fun k => (s.fillOf d k).isSome || (s.swapOf d k).isSome)) (fun k s => s.endSparing d k)).spr.fills, f ∈ s.spr.fills :=
    Dev.each_induction (fun t => DieOut d t ∧ ∀ f ∈ t.spr.fills, f ∈ s.spr.fills) _ _ (fun k _ t ht =>
      have hk := Dev.endSparing_out ht.1 k
      ⟨hk.1, fun f hf => ht.2 f (hk.2.1 f hf)⟩) s ⟨h, fun _ hf => hf⟩
  refine ⟨hall.1, fun f hf hlt => ?_⟩
  by_cases hin : (s.fillOf d f.cluster).isSome = true
  · have hmem : f.cluster ∈ (List.range 272).filter (fun k => (s.fillOf d k).isSome || (s.swapOf d k).isSome) :=
      List.mem_filter.2 ⟨List.mem_range.2 hlt, by simp [hin]⟩
    exact (Dev.each_establishes_under (fun t => DieOut d t) (fun t => ∀ x ∈ t.spr.fills, x.cluster = f.cluster → x.die ≠ d) _ hmem
      (fun k _ t ht => (Dev.endSparing_out ht k).1) (fun t ht => (Dev.endSparing_out ht f.cluster).2.2)
      (fun k _ t ht hp x hx => hp x ((Dev.endSparing_out ht k).2.1 x hx)) s h) f hf rfl
  · exact Dev.fillOf_none (by simpa using hin) f (hall.2 f hf) rfl

/-! #### Its ports -/

/-- A fabric port of a fenced die goes DOWN. -/
def Dev.portOut (q : Nat) (s : Dev) : Dev := if s.fabAwake q then s.fabDown q else (s.dropLink q).setFld Fld.FAB_PORT_STAT_LINK q 3

/-- The host port of a fenced die goes DOWN. -/
def Dev.hostOut (s : Dev) (d : Nat) : Dev := (s.hostDown d).setFld Fld.HLK_PSTAT_LINK d 3

theorem Dev.fencePorts_eq (s : Dev) (d : Nat) : s.fencePorts d = (s.hostOut d).each ((List.range 6).map (fun i => 6 * d + i)) Dev.portOut := rfl

/-- The held fields but the links of fabric ports. -/
def unwiredFields : List Fld := [Fld.CTL_DIECFG_FENCED, Fld.CTL_DBOOT_STAGE, Fld.CTL_CSTAT_ROLE, Fld.SPR_CLSTAT_RETIRED, Fld.HLK_PSTAT_LINK]

theorem unwiredFields_held : ∀ f ∈ unwiredFields, f ∈ heldFields := by decide

theorem Dev.portOut_keeps (q : Nat) (s : Dev) : Keeps unwiredFields s (s.portOut q) := by
  have hlink : ∀ u : Dev, Keeps unwiredFields u (u.setFld Fld.FAB_PORT_STAT_LINK q 3) := fun u => Keeps.setFld u _ _ _ (by decide) (by decide)
  exact Keeps.ite ((hlink s).trans ((Holds.fabDown s q).mono unwiredFields_held)) (((Holds.dropLink s q).mono unwiredFields_held).trans (hlink _))

theorem Dev.portOut_link (q : Nat) (s : Dev) : (s.portOut q).fld Fld.FAB_PORT_STAT_LINK q = 3 := by
  have hset : ∀ u : Dev, (u.setFld Fld.FAB_PORT_STAT_LINK q 3).fld Fld.FAB_PORT_STAT_LINK q = 3 := fun u => Dev.fld_setFld_self u _ _ _ (by decide)
  unfold Dev.portOut
  split
  · rw [(Holds.fabDown s q).fld _ (by decide)]
    exact hset s
  · exact hset _

theorem Dev.portOut_link_keeps (q r : Nat) (s : Dev) (h : s.fld Fld.FAB_PORT_STAT_LINK q = 3) : (s.portOut r).fld Fld.FAB_PORT_STAT_LINK q = 3 := by
  rcases eq_or_ne q r with rfl | hne
  · exact Dev.portOut_link q s
  · unfold Dev.portOut
    split
    · rw [(Holds.fabDown s r).fld _ (by decide), Dev.fld_setFld_inst _ _ _ _ _ _ hne]
      exact h
    · rw [Dev.fld_setFld_inst _ _ _ _ _ _ hne, (Holds.dropLink s r).fld _ (by decide)]
      exact h

theorem Dev.hostOut_keeps (s : Dev) (d : Nat) : Keeps outFields s (s.hostOut d) := by
  have hlink : ∀ u : Dev, Keeps outFields u (u.setFld Fld.HLK_PSTAT_LINK d 3) := fun u => Keeps.setFld u _ _ _ (by decide) (by decide)
  exact ((Holds.hostDown s d).elim (fun h => h.mono outFields_held) (fun h => (hlink s).trans (h.mono outFields_held))).trans (hlink _)

theorem Dev.hostOut_link (s : Dev) (d : Nat) : (s.hostOut d).fld Fld.HLK_PSTAT_LINK d = 3 := Dev.fld_setFld_self _ _ _ _ (by decide)

theorem Dev.fencePorts_keeps (s : Dev) (d : Nat) : Keeps unwiredFields (s.hostOut d) (s.fencePorts d) :=
  Keeps.each _ _ _ fun q _ t => t.portOut_keeps q

/-- A die that is out with its fills and links. -/
structure DieGone (d : Nat) (s : Dev) : Prop where
  out : DieOut d s
  fills : ∀ f ∈ s.spr.fills, f.cluster < 272 → f.die ≠ d
  host : s.fld Fld.HLK_PSTAT_LINK d = 3
  fab : ∀ i < 6, s.fld Fld.FAB_PORT_STAT_LINK (6 * d + i) = 3

theorem DieGone.holds {d : Nat} {s t : Dev} (h : DieGone d s) (k : Holds s t) : DieGone d t :=
  ⟨h.out.holds k, k.spr ▸ h.fills, (k.fld Fld.HLK_PSTAT_LINK (by decide) d).trans h.host,
    fun i hi => (k.fld Fld.FAB_PORT_STAT_LINK (by decide) _).trans (h.fab i hi)⟩

theorem DieGone.closeRecord {d : Nat} {s : Dev} (h : DieGone d s) (ty tg : Nat) (a : Bool) : DieGone d (s.closeRecord ty tg a) := by
  have hout := h.out.closeRecord ty tg a
  obtain ⟨o, e⟩ := s.closeRecord_eq ty tg a
  rw [e] at hout ⊢
  exact ⟨hout, h.fills, h.host, h.fab⟩

theorem Dev.fencePorts_gone {d : Nat} {s : Dev} (h : DieOut d s) (hfills : ∀ f ∈ s.spr.fills, f.cluster < 272 → f.die ≠ d) : DieGone d (s.fencePorts d) := by
  have hports := s.fencePorts_keeps d
  have hspr : (s.fencePorts d).spr = s.spr := hports.spr.trans (s.hostOut_keeps d).spr
  refine ⟨(h.keeps (s.hostOut_keeps d)).keeps (hports.mono (by decide)), hspr ▸ hfills, ?_, fun i hi => ?_⟩
  · exact (hports.fld Fld.HLK_PSTAT_LINK (by decide) d).trans (s.hostOut_link d)
  · rw [Dev.fencePorts_eq]
    exact Dev.each_establishes (fun t => t.fld Fld.FAB_PORT_STAT_LINK (6 * d + i) = 3) _ (List.mem_map.2 ⟨i, List.mem_range.2 hi, rfl⟩)
      (fun t => t.portOut_link _) (fun r _ t ht => t.portOut_link_keeps _ r ht) _

/-! #### The fence -/

theorem Dev.cutOff_gone {d : Nat} {s : Dev} (h : DieOut d s) (wasNext : Bool) : DieGone d (s.cutOff d wasNext) := by
  have hclocks := h.holds (Holds.fenceClocks s d)
  have hnext : DieOut d (if wasNext then (s.fenceClocks d).appointNext else s.fenceClocks d) := by
    split
    · exact hclocks.appointNext
    · exact hclocks
  obtain ⟨hsparing, hfills⟩ := Dev.fenceSparing_out hnext
  have hports := Dev.fencePorts_gone hsparing hfills
  exact hports.holds (Holds.fencePartition hports.out.waits.swaps _)

theorem Dev.fenceEnd_gone {d : Nat} {s : Dev} (h : DieGone d s) (wasLead : Bool) : DieGone d (s.fenceEnd d wasLead) := by
  have hclosed := (h.holds (Holds.raiseDev s Ev.DIE_LOSS)).closeRecord 6 d false
  unfold Dev.fenceEnd
  dsimp only
  generalize ((s.raiseDev Ev.DIE_LOSS).closeRecord 6 d false) = u at hclosed ⊢
  have hlead : Holds u (if wasLead then u.noLead else u) := Keeps.ite (Keeps.setFld u Fld.CTL_ELECT_NONE 0 1 (by decide) (by decide)) (Keeps.refl u)
  have hid : ∀ v : Dev, Holds v (if d = 0 then v.identityLost else v) := fun v => Keeps.ite (Holds.identityLost v) (Keeps.refl v)
  exact hclosed.holds ((hlead.trans (hid _)).trans (Holds.updateStage _))

/-- A die that is fenced is out with its fills and links. -/
theorem Dev.fence_gone {d : Nat} {s : Dev} (hf : s.fenced d = false) (h : Waits [d] [] [(6, d)] s) : DieGone d (s.fence d) := by
  obtain ⟨wasNext, wasLead, e⟩ := s.fence_eq d hf
  rw [e]
  exact Dev.fenceEnd_gone (Dev.cutOff_gone (Dev.takeOut_out h) wasNext) wasLead

/-- What the lead's upkeep after its rounds leaves of it. -/
theorem DieGone.goOn {d : Nat} {s : Dev} (h : DieGone d s) : s.goOn.fenced d = true ∧ s.goOn.dieStage d = 8 ∧ s.goOn.role d = 3 ∧
    s.goOn.fld Fld.HLK_PSTAT_LINK d = 3 ∧ (∀ f ∈ s.goOn.spr.fills, f.cluster < 272 → f.die ≠ d) ∧
    ∀ i, i < 6 → s.goOn.fld Fld.FAB_PORT_STAT_LINK (6 * d + i) = 3 := by
  have hk := s.goOn_keeps
  refine ⟨?_, (Dev.goOn_stage (by rw [h.out.stage]; decide)).trans h.out.stage, (hk.fld Fld.CTL_CSTAT_ROLE (by decide) d).trans h.out.role,
    (hk.fld Fld.HLK_PSTAT_LINK (by decide) d).trans h.host, hk.spr ▸ h.fills, fun i hi => (hk.fld Fld.FAB_PORT_STAT_LINK (by decide) _).trans (h.fab i hi)⟩
  rw [Dev.fenced, Dev.flag, hk.fld _ (by decide)]
  exact h.out.fenced

/-! ### A fault of a die (R501, R502) -/

/-- The lead's first round records the fence of a die that is not its own. -/
theorem Dev.recordFence_eq {s : Dev} {d : Nat} (hlead : s.hasLead = true) (hopen : s.isOpenFor 6 d = false)
    (hne : s.leadDie ≠ d) (f : Flash) : [d].foldl Dev.recordFence (s, f) = (s.journal 6 d s, f) := by
  simp [Dev.recordFence, hlead, hopen, hne]

/-- A fence that has its record is not recorded again. -/
theorem Dev.recordFence_recorded {s : Dev} {d : Nat} (hopen : s.isOpenFor 6 d = true) (hne : s.leadDie ≠ d) (f : Flash) :
    [d].foldl Dev.recordFence (s, f) = (s, f) := by
  simp [Dev.recordFence, hopen, hne]

/-- The journal with the record of a fence, and the flags it depends on. -/
structure FenceRecorded (d : Nat) (s u : Dev) : Prop where
  waits : Waits [d] [] [(6, d)] u
  open_ : u.isOpenFor 6 d = true
  mayAct : u.mayAct 6 d = s.solo
  regs : u.regs = s.regs

theorem Dev.journal_recorded {s : Dev} {d : Nat} (hw : Waits [d] [] [] s) (hlead : s.hasLead = true) : FenceRecorded d s (s.journal 6 d s) := by
  have hwj := (hw.mono (rs' := [(6, d)]) (by simp)).journal 6 d s (.inr (by simp))
  obtain ⟨r, o, e, hfor, hack⟩ := s.journal_eq 6 d s
  rw [e] at hwj ⊢
  have hold : ∀ x ∈ ringRoom s.ctl.journal, x.isFor 6 d = false := fun x hx => hw.not_isFor (mem_of_mem_ringRoom hx) (by decide) (by simp)
  have hany : (ringRoom s.ctl.journal).any (fun x => x.isFor 6 d && x.openAck) = false := List.any_eq_false.2 fun x hx => by simp [hold x hx]
  have hl : (s.putJournal (ringRoom s.ctl.journal ++ [r]) o).hasLead = true := hlead
  refine ⟨hwj, ?_, ?_, rfl⟩
  · simp [Dev.isOpenFor, hfor]
  · simp only [Dev.mayAct, hl, Dev.putJournal_journal, List.any_append, hany, List.any_cons, List.any_nil, hfor, hack, Bool.true_and, Bool.false_or, Bool.or_false]

theorem FenceRecorded.fenced {d : Nat} {s u : Dev} (h : FenceRecorded d s u) (e : Nat) : u.fenced e = s.fenced e := by
  rw [Dev.fenced, Dev.flag, Dev.fld_congr (s := s) _ _ (by unfold Dev.reg; rw [h.regs])]
  rfl

/-- A round in which a fence has its record: carried out where NEXT has acknowledged it. -/
theorem FenceRecorded.carry {d : Nat} {s u : Dev} (h : FenceRecorded d s u) (hf : s.fenced d = false) (f : Flash) :
    (u.ctl.journal.filter (fun x => x.isOpen)).foldl Dev.carryRecord (u, f) = (if s.solo then u.fence d else u, f) := by
  have hkind : ∀ x ∈ u.ctl.journal.filter (fun x => x.isOpen), x.type = 2 ∨ (x.type = 6 ∧ x.target = d) := fun x hx => by
    obtain ⟨hmem, ho⟩ := List.mem_filter.1 hx
    simpa using h.waits.records x hmem ho
  cases hs : s.solo with
  | false =>
    refine foldl_stays fun x hx => ?_
    rcases hkind x hx with hty | ⟨hty, htg⟩
    · exact Dev.carryRecord_fill _ hty
    · exact Dev.carryRecord_waits (by rw [hty, htg]; exact h.mayAct.trans hs)
  | true =>
    rw [if_pos rfl]
    have hcarry : ∀ x : JRec, x.type = 6 → x.target = d → Dev.carryRecord (u, f) x = (u.fence d, f) := fun x hty htg => by
      rw [Dev.carryRecord_fence hty (by rw [htg]; exact h.mayAct.trans hs), htg]
    have hdone : (u.fence d).fenced d = true := (Dev.fence_gone ((h.fenced d).trans hf) h.waits).out.fenced
    refine foldl_reaches (fun x hx => ?_) (fun x hx => ?_) ?_
    · exact (hkind x hx).imp (fun hty => Dev.carryRecord_fill _ hty) (fun hx => hcarry x hx.1 hx.2)
    · rcases hkind x hx with hty | ⟨hty, htg⟩
      · exact Dev.carryRecord_fill _ hty
      · cases hact : (u.fence d).mayAct 6 d
        · exact Dev.carryRecord_waits (by rw [hty, htg]; exact hact)
        · rw [Dev.carryRecord_fence hty (by rw [htg]; exact hact), htg, Dev.fence_fenced hdone]
    · obtain ⟨x, hx, hfor⟩ := List.any_eq_true.1 h.open_
      obtain ⟨ho, hty, htg⟩ := (JRec.isFor_iff x 6 d).1 hfor
      exact ⟨x, List.mem_filter.2 ⟨hx, ho⟩, hcarry x hty htg⟩

/-- The lead's rounds for a fence that waits: recorded, and carried out where the lead acts unmirrored. -/
theorem Dev.leadRounds_fence {s : Dev} {d : Nat} (hw : Waits [d] [] [] s) (hlead : s.hasLead = true) (hne : s.leadDie ≠ d) (hf : s.fenced d = false)
    (f : Flash) : leadRounds 2 (s, f) = (if s.solo then (s.journal 6 d s).fence d else s.journal 6 d s, f) := by
  have hrec := Dev.journal_recorded hw hlead
  have hfirst : Dev.leadRound (s, f) = (if s.solo then (s.journal 6 d s).fence d else s.journal 6 d s, f) := by
    rw [hw.leadRound f (Dev.recordFence_eq hlead (hw.isOpenFor_false (by decide) (by simp)) hne f) hrec.waits (fun _ hpc => absurd hpc (by simp)),
      hrec.carry hf f]
  have hsecond : ∀ b, s.solo = b → Dev.leadRound (if b then (s.journal 6 d s).fence d else s.journal 6 d s, f) =
      (if b then (s.journal 6 d s).fence d else s.journal 6 d s, f) := by
    intro b hb
    cases b with
    | false =>
      have hne' : (s.journal 6 d s).leadDie ≠ d := by
        rw [Dev.leadDie, Dev.fld_congr (s := s) _ _ (by unfold Dev.reg; rw [hrec.regs])]
        exact hne
      simpa [hb] using (hrec.waits.leadRound f (Dev.recordFence_recorded hrec.open_ hne' f) hrec.waits (fun _ hpc => absurd hpc (by simp))).trans (hrec.carry hf f)
    | true =>
      have hgone := (Dev.fence_gone ((hrec.fenced d).trans hf) hrec.waits).out
      exact hgone.waits.leadRound_idle (fun x hx => by
        obtain rfl := List.mem_singleton.1 hx
        exact ⟨rfl, hgone.fenced⟩) f
  rw [leadRounds, leadRounds, leadRounds, hfirst, hsecond _ rfl]

theorem dieHwFault_settled (s : State) (die : DieId) (halive : s.dev.alive = true) (hf : s.dev.fenced die.val = false) (h : s.dev.settled)
    (hne : s.dev.leadDie ≠ die.val) : leadsTo (exec (.dieHwFault die) s) (fun t => FenceTaken s t die.val ∧ (s.dev.solo = true →
      t.dev.dieStage die.val = 8 ∧ t.dev.role die.val = 3 ∧ t.dev.fld Fld.HLK_PSTAT_LINK die.val = 3 ∧
      (∀ f ∈ t.dev.spr.fills, f.cluster < 272 → f.die ≠ die.val) ∧ (∀ i, i < 6 → t.dev.fld Fld.FAB_PORT_STAT_LINK (6 * die.val + i) = 3))) := by
  generalize hd : die.val = d at hf hne ⊢
  have hexec : exec (.dieHwFault die) s = okFlash s (Dev.lead (s.dev.wantFence die.val, s.flash)) := if_pos halive
  obtain ⟨u, hu⟩ : ∃ u : Dev, u = { s.dev with ctl := { s.dev.ctl with fences := [d] } } := ⟨_, rfl⟩
  have hwant : s.dev.wantFence d = u := by
    rw [hu, Dev.wantFence, if_neg (by simp [hf, Leads.fences h]), Leads.fences h]
    rfl
  have hw : Waits [d] [] [] u := by
    subst hu
    exact ⟨rfl, h.due, h.swaps, h.policies, (Leads.waits h (rs := []) (by simp)).records⟩
  have hlead : u.hasLead = true := by subst hu; exact h.lead
  have hsolo : u.solo = s.dev.solo := by subst hu; rfl
  have hfu : u.fenced d = false := by subst hu; exact hf
  have hneu : u.leadDie ≠ d := by subst hu; exact hne
  have hrec := Dev.journal_recorded hw hlead
  have hwaiting : u.waiting = 1 := hw.waiting
  rw [hexec, hd, hwant, Dev.lead_eq]
  simp only [hlead, if_true, hwaiting, Dev.leadRounds_fence hw hlead hneu hfu, hsolo]
  refine ⟨_, rfl, ?_⟩
  cases hs : s.dev.solo with
  | true =>
    obtain ⟨h1, h2, h3, h4, h5, h6⟩ := (Dev.fence_gone ((hrec.fenced d).trans hfu) hrec.waits).goOn
    exact ⟨⟨rfl, rfl, fun _ => h1, fun hn => absurd (hs.symm.trans hn) (by decide)⟩, fun _ => ⟨h2, h3, h4, h5, h6⟩⟩
  | false =>
    have hk := (u.journal 6 d u).goOn_keeps
    refine ⟨⟨rfl, rfl, fun ht => absurd (hs.symm.trans ht) (by decide), fun _ => ⟨?_, ?_⟩⟩, fun ht => by cases ht⟩
    · exact (congrArg (fun x => x) (show (u.journal 6 d u).goOn.fenced d = (u.journal 6 d u).fenced d by
        rw [Dev.fenced, Dev.flag, hk.fld _ (by decide)]; rfl)).trans ((hrec.fenced d).trans hfu)
    · have hj : (u.journal 6 d u).goOn.ctl.journal = (u.journal 6 d u).ctl.journal := by rw [hk.ctl]
      have hopen := hrec.open_
      rw [Dev.isOpenFor, ← hj] at hopen
      exact hopen

end Sys2Proof.Machine
end

section
/-!
PROOF. Retirements that are acknowledged, the bridges, and fences, journal and bridges together (O30).
-/
namespace Sys2Proof.Machine

/-! ### A retirement that flash holds (R481, R482) -/

/-- A slot is retired, and nothing but fills, or its retirement's records, is open. -/
structure SlotRetired (pc : Nat) (due : List Nat) (rs : List (Nat × Nat)) (s : Dev) : Prop where
  bit : s.retired pc = true
  waits : Waits [] due rs s

section
variable {pc : Nat} {due : List Nat} {rs : List (Nat × Nat)} {s t : Dev}

theorem Dev.retired_keeps (k : Keeps laterFields s t) (pc : Nat) : t.retired pc = s.retired pc := by
  unfold Dev.retired
  rw [k.fld _ (by decide)]

theorem SlotRetired.keeps (h : SlotRetired pc due rs s) (k : Keeps laterFields s t) : SlotRetired pc due rs t :=
  ⟨(Dev.retired_keeps k pc).trans h.bit, h.waits.keeps k⟩

theorem SlotRetired.holds (h : SlotRetired pc due rs s) (k : Holds s t) : SlotRetired pc due rs t := h.keeps (k.mono laterFields_held)

theorem SlotRetired.dropFill (h : SlotRetired pc due rs s) (d k : Nat) : SlotRetired pc due rs (s.dropFill d k) :=
  ⟨h.bit, h.waits.fences, h.waits.due, h.waits.swaps, h.waits.policies, h.waits.records⟩

theorem SlotRetired.dropSwap (h : SlotRetired pc due rs s) (d k : Nat) : SlotRetired pc due rs (s.dropSwap d k) := by
  rw [Dev.dropSwap_idle h.waits.swaps]
  exact h

theorem SlotRetired.loseCore (h : SlotRetired pc due rs s) (c : Nat) : SlotRetired pc due rs (s.loseCore c) :=
  ⟨h.bit, h.waits.fences, h.waits.due, by
    have e : (s.loseCore c).spr.swaps = s.spr.swaps.map (fun t => t.wrote c 0 strideSize) := rfl
    rw [e, h.waits.swaps]
    rfl, h.waits.policies, h.waits.records⟩

theorem SlotRetired.stopIdle (h : SlotRetired pc due rs s) (p : Nat) : SlotRetired pc due rs (s.stopIdle p) := by
  unfold Dev.stopIdle
  split
  · exact h.holds (Holds.toLoaded h.waits.swaps p)
  · exact h

/-- The registers of a short cluster (R16). -/
def Dev.shortRegs (s : Dev) (d k : Nat) : Dev :=
  let i := clIdx d k
  let s := (s.setReg .SPR_REMAP_LO i 0x1F1F1F1F1F1F1F1F).setReg .SPR_REMAP_HI i 0x1F1F1F1F1F1F1F1F
  let s := ((s.setFld Fld.SPR_CLSTAT_SPARE i 0x1F).setFld Fld.SPR_CLSTAT_FILL i 0).setFld Fld.SPR_CLSTAT_SWAP i 0
  s.setFld Fld.SPR_CLSTAT_SHORT i 1

theorem Holds.shortRegs (s : Dev) (d k : Nat) : Holds s (s.shortRegs d k) :=
  (((((Keeps.setReg s _ _ _ (by decide)).trans (Keeps.setReg _ _ _ _ (by decide))).trans (Keeps.setFld _ Fld.SPR_CLSTAT_SPARE _ _ (by decide) (by decide))).trans
    (Keeps.setFld _ Fld.SPR_CLSTAT_FILL _ _ (by decide) (by decide))).trans (Keeps.setFld _ Fld.SPR_CLSTAT_SWAP _ _ (by decide) (by decide))).trans
    (Keeps.setFld _ Fld.SPR_CLSTAT_SHORT _ _ (by decide) (by decide))

/-- The partition that a shortfall stops. -/
def Dev.shortStop (s : Dev) (p : Nat) : Dev :=
  let s := s.unclean p Ev.LOGICAL_SHORTFALL
  (s.setPart p { s.part p with noRun := true }).stopIdle p

theorem Dev.becomeShort_eq (s : Dev) (d k : Nat) : s.becomeShort d k =
    if !s.binds (s.partOf d) d k then (((s.shortRegs d k).dropFill d k).dropSwap d k).raise d Ev.LOGICAL_SHORTFALL
    else ((((s.shortRegs d k).dropFill d k).dropSwap d k).raise d Ev.LOGICAL_SHORTFALL).shortStop (s.partOf d) := rfl

theorem SlotRetired.becomeShort (h : SlotRetired pc due rs s) (d k : Nat) : SlotRetired pc due rs (s.becomeShort d k) := by
  have hshort : SlotRetired pc due rs ((((s.shortRegs d k).dropFill d k).dropSwap d k).raise d Ev.LOGICAL_SHORTFALL) :=
    (((h.holds (Holds.shortRegs s d k)).dropFill d k).dropSwap d k).holds (Holds.raise _ _ _)
  rw [Dev.becomeShort_eq]
  generalize Dev.raise _ d Ev.LOGICAL_SHORTFALL = u at hshort ⊢
  split
  · exact hshort
  · exact ((hshort.holds (Holds.unclean u _ _)).holds (Keeps.setPart _ _ _)).stopIdle _

theorem SlotRetired.mapSlot (h : SlotRetired pc due rs s) (c n : Nat) : SlotRetired pc due rs (s.mapSlot c n) :=
  h.holds (Keeps.ite (Keeps.setReg s _ _ _ (by decide)) (Keeps.setReg s _ _ _ (by decide)))

/-- RETIRED written, and the cluster's GEN one higher. -/
def Dev.markRetired (s : Dev) (pc : Nat) : Dev :=
  let i := clIdx (slotDie pc) (slotCluster pc)
  ((s.setFld Fld.SPR_CLSTAT_RETIRED i (s.fld Fld.SPR_CLSTAT_RETIRED i ||| 2 ^ slotNum pc)).raise (slotDie pc) Ev.SPR_RETIRE).bumpGen (slotDie pc) (slotCluster pc)

theorem Holds.tellRetired (s : Dev) (pc : Nat) : Holds s ((s.raise (slotDie pc) Ev.SPR_RETIRE).bumpGen (slotDie pc) (slotCluster pc)) :=
  (Holds.raise s _ _).trans (Keeps.setFld _ _ _ _ (by decide) (by decide))

theorem Dev.markRetired_retired (s : Dev) {pc : Nat} (hpc : isSlot pc = true) : (s.markRetired pc).retired pc = true := by
  have hlt : slotNum pc < 17 := by
    simp only [isSlot, Bool.and_eq_true, decide_eq_true_eq] at hpc
    exact hpc.2
  have hset : ∀ u : Dev, (u.setFld Fld.SPR_CLSTAT_RETIRED (clIdx (slotDie pc) (slotCluster pc))
      (s.fld Fld.SPR_CLSTAT_RETIRED (clIdx (slotDie pc) (slotCluster pc)) ||| 2 ^ slotNum pc)).retired pc = true := fun u => by
    rw [Dev.retired, Dev.fld_setFld_self _ _ _ _ (by decide), Nat.testBit_mod_two_pow]
    simp [Fld.SPR_CLSTAT_RETIRED, hlt, Nat.testBit_or, Nat.testBit_two_pow_self]
  exact (Dev.retired_keeps ((Holds.tellRetired _ pc).mono laterFields_held) pc).trans (hset s)

theorem Waits.markRetired (h : Waits [] due rs s) (hpc : isSlot pc = true) : SlotRetired pc due rs (s.markRetired pc) := by
  have hset : ∀ v, Waits [] due rs (s.setFld Fld.SPR_CLSTAT_RETIRED (clIdx (slotDie pc) (slotCluster pc)) v) := fun v =>
    ⟨h.fences, h.due, h.swaps, h.policies, h.records⟩
  exact ⟨s.markRetired_retired hpc, (hset _).keeps (Holds.tellRetired _ pc)⟩

/-- What a retirement does to the remap of its cluster after RETIRED is written. -/
def Dev.remapRetired (s : Dev) (pc : Nat) (next : Option (Nat × Nat)) : Dev :=
  let d := slotDie pc
  let k := slotCluster pc
  let i := clIdx d k
  match s.servedBy pc, next with
  | some _, some (c, sp) =>
    let s := (s.mapSlot c sp).setFld Fld.SPR_CLSTAT_SPARE i 0x1F
    (((s.setFld Fld.SPR_CLSTAT_SWAP i 0).setFld Fld.SPR_CLSTAT_FILL i (b2n !s.fenced d)).dropSwap d k).loseCore c
  | some _, none =>
    let s := if (s.fillOf d k).isSome then s.raise d Ev.SPR_FILL_ABORT else s
    s.becomeShort d k
  | none, _ =>
    if s.isShort d k then s
    else ((s.setFld Fld.SPR_CLSTAT_SPARE i 0x1F).setFld Fld.SPR_CLSTAT_SWAP i 0).dropSwap d k

theorem Dev.retire_eq (s : Dev) (pc : Nat) : s.retire pc = if s.retired pc then s else (s.markRetired pc).remapRetired pc (s.retireSpare pc) := rfl

theorem SlotRetired.remapRetired (h : SlotRetired pc due rs s) (next : Option (Nat × Nat)) : SlotRetired pc due rs (s.remapRetired pc next) := by
  unfold Dev.remapRetired
  dsimp only
  split
  · exact (((((h.mapSlot _ _).holds (Keeps.setFld _ _ _ _ (by decide) (by decide))).holds (Keeps.setFld _ _ _ _ (by decide) (by decide))).holds
      (Keeps.setFld _ _ _ _ (by decide) (by decide))).dropSwap _ _).loseCore _
  · have habort : SlotRetired pc due rs (if (s.fillOf (slotDie pc) (slotCluster pc)).isSome then s.raise (slotDie pc) Ev.SPR_FILL_ABORT else s) := by
      split
      · exact h.holds (Holds.raise s _ _)
      · exact h
    exact habort.becomeShort _ _
  · split
    · exact h
    · exact ((h.holds (Keeps.setFld _ _ _ _ (by decide) (by decide))).holds (Keeps.setFld _ _ _ _ (by decide) (by decide))).dropSwap _ _

theorem Waits.retire (h : Waits [] due rs s) (hpc : isSlot pc = true) : SlotRetired pc due rs (s.retire pc) := by
  rw [Dev.retire_eq]
  split
  · exact ⟨‹_›, h⟩
  · exact (h.markRetired hpc).remapRetired _

theorem SlotRetired.closeRecord (h : SlotRetired pc due rs s) (ty tg : Nat) (a : Bool) :
    SlotRetired pc due (rs.filter (fun x => decide (x ≠ (ty, tg)))) (s.closeRecord ty tg a) := by
  have hw := h.waits.closeRecord ty tg a
  obtain ⟨o, e⟩ := s.closeRecord_eq ty tg a
  rw [e] at hw ⊢
  exact ⟨h.bit, hw⟩

theorem SlotRetired.startFill (h : SlotRetired pc due rs s) (c slot : Nat) : SlotRetired pc due rs (s.startFill c slot) := by
  have hfill : ∀ fs : List Fill, SlotRetired pc due rs { s with spr := { s.spr with fills := fs } } := fun _ =>
    ⟨h.bit, h.waits.fences, h.waits.due, h.waits.swaps, h.waits.policies, h.waits.records⟩
  have hj : ∀ u after : Dev, SlotRetired pc due rs u → ∀ tg, SlotRetired pc due rs (u.journal 2 tg after) := fun u after hu tg => by
    have hw := hu.waits.journal 2 tg after (.inl rfl)
    obtain ⟨r, o, e, -, -⟩ := u.journal_eq 2 tg after
    rw [e] at hw ⊢
    exact ⟨hu.bit, hw⟩
  exact hj _ _ (hfill _) _

end

/-- The records of a slot's retirement. -/
def retireRecords (pc : Nat) : List (Nat × Nat) := [(1, pc), (3, pc)]

/-- A due retirement carried out in the remap is over, and no record of it is open. -/
theorem Dev.retireNow_retired {s : Dev} {pc : Nat} (h : Waits [] [pc] (retireRecords pc) s) (hpc : isSlot pc = true) :
    SlotRetired pc [] [] (s.retireNow pc) := by
  have hdue : ∀ rq : List (Nat × Nat), Waits [] [] (retireRecords pc) { s with spr := { s.spr with due := s.spr.due.erase pc, requests := rq } } := fun rq =>
    ⟨h.fences, by change s.spr.due.erase pc = []; rw [h.due]; simp, h.swaps, h.policies, h.records⟩
  have hclosed : ∀ u : Dev, SlotRetired pc [] (retireRecords pc) u → SlotRetired pc [] [] ((u.closeRecord 1 pc false).closeRecord 3 pc false) := fun u hu => by
    have hc := (hu.closeRecord 1 pc false).closeRecord 3 pc false
    simpa [retireRecords] using hc
  unfold Dev.retireNow
  dsimp only
  split
  · exact (hclosed _ ((hdue _).retire hpc)).startFill _ _
  · exact hclosed _ ((hdue _).retire hpc)

/-- A retirement waits in flash's queue, once. -/
theorem Dev.queueRetireWrite_eq (s : Dev) (pc : Nat) :
    ∃ q, s.queueRetireWrite pc = { s with sec := { s.sec with flashQ := q } } ∧ FlashWrite.retire pc ∈ q := by
  unfold Dev.queueRetireWrite
  split
  · rename_i h
    exact ⟨s.sec.flashQ, rfl, by simpa using h⟩
  · split
    · exact ⟨_, rfl, by simp⟩
    · exact ⟨_, rfl, by simp⟩

theorem Dev.queueRetireWrite_again (s : Dev) (pc : Nat) : (s.queueRetireWrite pc).queueRetireWrite pc = s.queueRetireWrite pc := by
  obtain ⟨q, e, hq⟩ := s.queueRetireWrite_eq pc
  rw [e]
  exact if_pos (by simpa using hq)

section
variable {s u : Dev} {pc : Nat} {f : Flash}

/-- A round in which a due retirement has its acknowledged record carries it on. -/
theorem Waits.leadRound_retire (h : Waits [] [pc] (retireRecords pc) s) (hact : s.mayAct 1 pc = true ∨ s.mayAct 3 pc = true)
    (hcarry : s.carryRetire f pc = u) (hstay : ∀ x : JRec, x.type = 1 ∨ x.type = 3 → x.target = pc → Dev.carryRecord (u, f) x = (u, f)) :
    Dev.leadRound (s, f) = (u, f) := by
  have hmember : ∃ ty x, (ty = 1 ∨ ty = 3) ∧ x ∈ s.ctl.journal ∧ x.isFor ty pc = true ∧ s.mayAct ty pc = true := by
    rcases hact with hact | hact
    all_goals
      have hany := hact
      simp only [Dev.mayAct, Bool.and_eq_true, List.any_eq_true] at hany
      obtain ⟨-, x, hx, hfor, -⟩ := hany
      exact ⟨_, x, by simp, hx, hfor, hact⟩
  obtain ⟨ty, x, hty, hx, hfor, hact⟩ := hmember
  have hopen : s.isOpenFor ty pc = true := List.any_eq_true.2 ⟨x, hx, hfor⟩
  have hrecorded : s.recordRetire pc = s := by
    rcases hty with rfl | rfl
    · simp [Dev.recordRetire, hopen]
    · simp [Dev.recordRetire, hopen]
  have hkind : ∀ y ∈ s.ctl.journal.filter (fun y => y.isOpen), y.type = 2 ∨ ((y.type = 1 ∨ y.type = 3) ∧ y.target = pc) := fun y hy => by
    obtain ⟨hmem, ho⟩ := List.mem_filter.1 hy
    refine (h.records y hmem ho).imp_right fun hin => ?_
    simp only [retireRecords, List.mem_cons, List.not_mem_nil, or_false, Prod.mk.injEq] at hin
    exact ⟨hin.imp And.left And.left, hin.elim And.right And.right⟩
  rw [h.leadRound f rfl h (fun q hq => by rw [List.mem_singleton.1 hq]; exact hrecorded)]
  refine foldl_reaches (fun y hy => ?_) (fun y hy => ?_) ?_
  · rcases hkind y hy with hy2 | ⟨hyt, hyp⟩
    · exact .inl (Dev.carryRecord_fill _ hy2)
    · cases ha : s.mayAct y.type y.target
      · exact .inl (Dev.carryRecord_waits ha)
      · rw [Dev.carryRecord_retire hyt ha, hyp]
        exact .inr (congrArg (·, f) hcarry)
  · rcases hkind y hy with hy2 | ⟨hyt, hyp⟩
    · exact Dev.carryRecord_fill _ hy2
    · exact hstay y hyt hyp
  · obtain ⟨ho, hxt, hxp⟩ := (JRec.isFor_iff x ty pc).1 hfor
    refine ⟨x, List.mem_filter.2 ⟨hx, ho⟩, ?_⟩
    rw [Dev.carryRecord_retire (hxt ▸ hty) (by rw [hxt, hxp]; exact hact), hxp]
    exact congrArg (·, f) hcarry

/-- One that flash does not hold goes to flash, and waits there. -/
theorem Waits.leadRounds_toFlash (h : Waits [] [pc] (retireRecords pc) s) (hact : s.mayAct 1 pc = true ∨ s.mayAct 3 pc = true)
    (hold : f.holdsRetired pc = false) : leadRounds 2 (s, f) = (s.queueRetireWrite pc, f) := by
  obtain ⟨q, e, -⟩ := s.queueRetireWrite_eq pc
  have hcarry : ∀ v : Dev, v.carryRetire f pc = v.queueRetireWrite pc := fun v => if_pos (by simp [hold])
  have hstay : ∀ x : JRec, x.type = 1 ∨ x.type = 3 → x.target = pc →
      Dev.carryRecord (s.queueRetireWrite pc, f) x = (s.queueRetireWrite pc, f) := fun x hty htg => by
    cases ha : (s.queueRetireWrite pc).mayAct x.type x.target
    · exact Dev.carryRecord_waits ha
    · rw [Dev.carryRecord_retire hty ha, htg]
      exact congrArg (·, f) ((hcarry _).trans (s.queueRetireWrite_again pc))
  have hsecond : Waits [] [pc] (retireRecords pc) (s.queueRetireWrite pc) := by
    rw [e]
    exact ⟨h.fences, h.due, h.swaps, h.policies, h.records⟩
  have hact2 : (s.queueRetireWrite pc).mayAct 1 pc = true ∨ (s.queueRetireWrite pc).mayAct 3 pc = true := by
    rw [e]
    exact hact
  rw [leadRounds, leadRounds, leadRounds, h.leadRound_retire hact (hcarry s) hstay,
    hsecond.leadRound_retire hact2 ((hcarry _).trans (s.queueRetireWrite_again pc)) hstay]

/-- One that flash holds goes to the remap. -/
theorem Waits.leadRounds_toRemap (h : Waits [] [pc] (retireRecords pc) s) (hact : s.mayAct 1 pc = true ∨ s.mayAct 3 pc = true)
    (hold : f.holdsRetired pc = true) (hready : s.retireReady pc = true) (hpc : isSlot pc = true) : leadRounds 2 (s, f) = (s.retireNow pc, f) := by
  have hdone := Dev.retireNow_retired h hpc
  have hcarry : s.carryRetire f pc = s.retireNow pc := by
    rw [Dev.carryRetire, if_neg (by simp [hold]), if_pos hready]
  have hstay : ∀ x : JRec, x.type = 1 ∨ x.type = 3 → x.target = pc → Dev.carryRecord (s.retireNow pc, f) x = (s.retireNow pc, f) := fun x hty _ =>
    Dev.carryRecord_waits (hdone.waits.mayAct_false (by rcases hty with e | e <;> rw [e] <;> decide) (by simp))
  rw [leadRounds, leadRounds, leadRounds, h.leadRound_retire hact hcarry hstay, hdone.waits.leadRound_idle (by simp)]

end

/-- The acknowledgement of an open record of a retirement lets it be carried out. -/
theorem Dev.acked_mayAct {s : Dev} {r : JRec} (hr : r ∈ s.ctl.journal) (hlead : s.hasLead = true) (ho : r.isOpen = true) (o : List Out) :
    (s.putJournal (s.acked r.seq false) o).mayAct r.type r.target = true := by
  have hl : (s.putJournal (s.acked r.seq false) o).hasLead = true := hlead
  have hany : (s.acked r.seq false).any (fun x => x.isFor r.type r.target && x.openAck) = true := by
    rw [Dev.acked_open]
    refine List.any_eq_true.2 ⟨{ r with openAck := true }, List.mem_map.2 ⟨r, hr, if_pos rfl⟩, ?_⟩
    have ho' : ({ r with openAck := true } : JRec).isOpen = true := ho
    simp [JRec.isFor, ho']
  rw [Dev.mayAct, hl, Dev.putJournal_journal, hany]
  rfl

theorem journalMirrorAck_retirement (s : State) (r : JRec) (hr : r ∈ s.dev.ctl.journal) (h : Leads s.dev [] [r.target] [] [r]) (ho : r.isOpen = true)
    (hty : r.type = 1 ∨ r.type = 3) (hseq : r.seq < 2 ^ 64) (hready : s.dev.retireReady r.target = true) (hpc : isSlot r.target = true) :
    leadsTo (exec (.journalMirrorAck (BitVec.ofNat 64 r.seq) false) s) (fun t =>
      t.flash = s.flash ∧ (s.flash.holdsRetired r.target = true → t.dev.spr.due = [] ∧ t.dev.retired r.target = true) ∧
      (s.flash.holdsRetired r.target = false → t.dev.spr.due = [r.target] ∧ t.dev.retired r.target = s.dev.retired r.target ∧
        FlashWrite.retire r.target ∈ t.dev.sec.flashQ)) := by
  obtain ⟨o, e, -⟩ := s.dev.mirrorAck_eq r.seq false
  have hexec : exec (.journalMirrorAck (BitVec.ofNat 64 r.seq) false) s =
      if s.dev.hasLead then okFlash s (Dev.lead (s.dev.mirrorAck (BitVec.ofNat 64 r.seq).toNat false, s.flash)) else ok s s.dev := rfl
  have hrecords : (r.type, r.target) ∈ retireRecords r.target := by rcases hty with e | e <;> simp [retireRecords, e]
  have hw : Waits [] [r.target] (retireRecords r.target) (s.dev.putJournal (s.dev.acked r.seq false) o) :=
    (Leads.waits h (fun x hx => List.mem_singleton.1 hx ▸ hrecords)).acked _ _ o
  have hmay := Dev.acked_mayAct hr h.lead ho o
  have hact : (s.dev.putJournal (s.dev.acked r.seq false) o).mayAct 1 r.target = true ∨ (s.dev.putJournal (s.dev.acked r.seq false) o).mayAct 3 r.target = true :=
    hty.imp (fun e => by rw [← e]; exact hmay) (fun e => by rw [← e]; exact hmay)
  have hwaiting : (s.dev.putJournal (s.dev.acked r.seq false) o).waiting = 1 := hw.waiting
  have hlead : (s.dev.putJournal (s.dev.acked r.seq false) o).hasLead = true := h.lead
  have hready' : (s.dev.putJournal (s.dev.acked r.seq false) o).retireReady r.target = true := hready
  rw [hexec, if_pos h.lead, BitVec.toNat_ofNat, Nat.mod_eq_of_lt hseq, e, Dev.lead_eq]
  simp only [hlead, if_true, hwaiting]
  cases hold : s.flash.holdsRetired r.target with
  | true =>
    rw [hw.leadRounds_toRemap hact hold hready' hpc]
    have hdone := (Dev.retireNow_retired hw hpc).keeps (Dev.goOn_keeps _)
    exact ⟨_, rfl, rfl, fun _ => ⟨hdone.waits.due, hdone.bit⟩, fun hn => by cases hn⟩
  | false =>
    rw [hw.leadRounds_toFlash hact hold]
    obtain ⟨q, eq, hq⟩ := (s.dev.putJournal (s.dev.acked r.seq false) o).queueRetireWrite_eq r.target
    have hidle : ((s.dev.putJournal (s.dev.acked r.seq false) o).queueRetireWrite r.target).goOn =
        (s.dev.putJournal (s.dev.acked r.seq false) o).queueRetireWrite r.target := by
      rw [eq]
      exact Dev.goOn_idle h.loads (fun d hd => h.not_leaves hd)
    refine ⟨_, rfl, rfl, fun hn => (by cases hn), fun _ => ?_⟩
    rw [hidle, eq]
    exact ⟨h.due, rfl, hq⟩

/-! ### Bridges (R23, R24) -/

/-- A bridge is known to be down. -/
structure BridgeIsDown (j : Nat) (s : Dev) : Prop where
  up : s.flag Fld.CTL_BRG_UP j = false
  known : j ∈ s.ctl.bridgesDown

section
variable {j : Nat} {s t : Dev}

theorem BridgeIsDown.of_reg (h : BridgeIsDown j s) (hreg : t.reg .CTL_BRG j = s.reg .CTL_BRG j) (hctl : t.ctl.bridgesDown = s.ctl.bridgesDown) :
    BridgeIsDown j t := ⟨by rw [Dev.flag_of_reg Fld.CTL_BRG_UP j hreg]; exact h.up, hctl ▸ h.known⟩

theorem BridgeIsDown.setFld (h : BridgeIsDown j s) (f : Fld) (i v : Nat) (hf : f.reg ≠ .CTL_BRG) : BridgeIsDown j (s.setFld f i v) :=
  h.of_reg (Dev.reg_setFld_kind _ _ _ _ _ _ (fun e => hf e.symm)) rfl

theorem BridgeIsDown.closeRecord (h : BridgeIsDown j s) (ty tg : Nat) (a : Bool) : BridgeIsDown j (s.closeRecord ty tg a) := by
  obtain ⟨o, e⟩ := s.closeRecord_eq ty tg a
  rw [e]
  exact ⟨h.up, h.known⟩

theorem BridgeIsDown.setSpr (h : BridgeIsDown j s) (x : Sparing) : BridgeIsDown j { s with spr := x } := ⟨h.up, h.known⟩

theorem BridgeIsDown.dropSwap (h : BridgeIsDown j s) (d k : Nat) : BridgeIsDown j (s.dropSwap d k) := by
  unfold Dev.dropSwap
  split
  · exact h
  · exact ((h.setSpr _).closeRecord _ _ _).closeRecord _ _ _

theorem BridgeIsDown.backMap (h : BridgeIsDown j s) (t : SwapTest) : BridgeIsDown j (s.backMap t) := by
  have hmap : BridgeIsDown j (s.mapSlot t.core t.tested) := by
    unfold Dev.mapSlot
    dsimp only
    split
    · exact h.of_reg (Dev.reg_setReg_kind _ _ _ _ _ _ (by decide)) rfl
    · exact h.of_reg (Dev.reg_setReg_kind _ _ _ _ _ _ (by decide)) rfl
  exact ((hmap.setFld Fld.SPR_CLSTAT_SPARE _ _ (by decide)).setFld Fld.SPR_CLSTAT_SWAP _ _ (by decide)).setFld Fld.SPR_CLSTAT_GEN _ _ (by decide)

theorem BridgeIsDown.swapBack (h : BridgeIsDown j s) (t : SwapTest) : BridgeIsDown j (s.swapBack t) := by
  have hback := h.backMap t
  have hserve : ∀ m c x, BridgeIsDown j (((s.backMap t).setMem m).setCore c x) := fun _ _ _ => ⟨hback.up, hback.known⟩
  exact (((hserve _ _ _).setFld Fld.GILL_STAT_FILL _ _ (by decide)).closeRecord _ _ _).dropSwap _ _

theorem BridgeIsDown.toLoaded (h : BridgeIsDown j s) (p : Nat) : BridgeIsDown j (s.toLoaded p) := by
  have hset := h.setFld Fld.PLAN_STAT_STATE p 2 (by decide)
  refine Dev.each_induction (BridgeIsDown j) _ _ (fun t _ u hu => ?_) _ ⟨hset.up, hset.known⟩
  split
  · exact hu.swapBack t
  · exact hu

end

/-- The bridge's own registers and the list of those that are down. -/
def Dev.cutBridge (s : Dev) (j : Nat) : Dev :=
  let s := (s.raiseDev Ev.BRIDGE_DOWN).setFld Fld.CTL_BRG_UP j 0
  { s with ctl := { s.ctl with bridgesDown := s.ctl.bridgesDown ++ [j] } }

theorem Dev.cutBridge_down (s : Dev) (j : Nat) : BridgeIsDown j (s.cutBridge j) := by
  refine ⟨?_, List.mem_append_right _ (List.mem_singleton.2 rfl)⟩
  have e : (s.cutBridge j).flag Fld.CTL_BRG_UP j = ((s.raiseDev Ev.BRIDGE_DOWN).setFld Fld.CTL_BRG_UP j 0).flag Fld.CTL_BRG_UP j := rfl
  rw [e, Dev.flag, Dev.fld_setFld_self _ _ _ _ (by decide)]
  rfl

/-- What a partition that holds both dies of a bridge does when it is down. -/
def Dev.bridgeStop (s : Dev) (p : Nat) : Dev :=
  let s := s.unclean p Ev.BRIDGE_DOWN
  if s.planState p = 3 ∧ !(s.part p).stepping then s.toLoaded p else s

theorem Dev.bridgeDown_eq (s : Dev) (j : Nat) : s.bridgeDown j =
    if (s.cutBridge j).partOf (bridgeDies j).2 ≠ (s.cutBridge j).partOf (bridgeDies j).1 then s.cutBridge j
    else (s.cutBridge j).bridgeStop ((s.cutBridge j).partOf (bridgeDies j).1) := rfl

theorem Dev.bridgeDown_down (s : Dev) (j : Nat) : BridgeIsDown j (s.bridgeDown j) := by
  have hcut := s.cutBridge_down j
  rw [Dev.bridgeDown_eq]
  generalize s.cutBridge j = u at hcut ⊢
  have hw := Wired.unclean_step u (u.partOf (bridgeDies j).1) Ev.BRIDGE_DOWN
  have hun : BridgeIsDown j (u.unclean (u.partOf (bridgeDies j).1) Ev.BRIDGE_DOWN) :=
    hcut.of_reg (hw.frame.reg .CTL_BRG j rfl (by simp [wires])) (congrArg Control.bridgesDown (hw.frame.ctl not_false))
  split
  · exact hcut
  · unfold Dev.bridgeStop
    dsimp only
    split
    · exact hun.toLoaded _
    · exact hun

/-- A count of failures in a row. -/
def Dev.putFails (s : Dev) (j n : Nat) : Dev := { s with ctl := { s.ctl with bridgeFails := SMap.write 0 s.ctl.bridgeFails j n } }

theorem Dev.putFails_self (s : Dev) (j n : Nat) : SMap.read 0 (s.putFails j n).ctl.bridgeFails j = n := SMap.read_write_self _ _ _ _

theorem Frame.putFails (m : Touches) (s : Dev) (j n : Nat) (h : m.ctl) : Frame m s (s.putFails j n) :=
  ⟨fun _ _ _ _ => rfl, fun _ _ => rfl, fun _ _ => rfl, fun _ _ => rfl, fun _ _ => rfl, fun _ => rfl, fun _ => rfl, fun hn => absurd h hn, fun _ => rfl,
    fun _ => rfl, rfl⟩

theorem Dev.bridgeFlit_ok {s : Dev} {j : Nat} (hj : j < 7) (hup : s.flag Fld.CTL_BRG_UP j = true) : s.bridgeFlit j true = s.putFails j 0 := by
  rw [Dev.bridgeFlit, if_neg (by simp [hup]; omega)]
  rfl

theorem Dev.bridgeFlit_fail {s : Dev} {j : Nat} (hj : j < 7) (hup : s.flag Fld.CTL_BRG_UP j = true) : s.bridgeFlit j false =
    if 8 ≤ SMap.read 0 s.ctl.bridgeFails j + 1 then (s.putFails j (SMap.read 0 s.ctl.bridgeFails j + 1)).bridgeDown j
    else (s.putFails j (SMap.read 0 s.ctl.bridgeFails j + 1)).countLink Fld.CTL_BRG_RETRY Fld.CTL_BRG_RETRY_OVF j 1 := by
  rw [Dev.bridgeFlit, if_neg (by simp [hup]; omega)]
  rfl

/-- A retry is counted, and the bridge stays as it is. -/
theorem Dev.bridgeRetry_counted (s : Dev) (j : Nat) :
    (s.countLink Fld.CTL_BRG_RETRY Fld.CTL_BRG_RETRY_OVF j 1).flag Fld.CTL_BRG_UP j = s.flag Fld.CTL_BRG_UP j ∧
    (s.fld Fld.CTL_BRG_RETRY j < 0xFFFF → (s.countLink Fld.CTL_BRG_RETRY Fld.CTL_BRG_RETRY_OVF j 1).fld Fld.CTL_BRG_RETRY j = s.fld Fld.CTL_BRG_RETRY j + 1) ∧
    (s.countLink Fld.CTL_BRG_RETRY Fld.CTL_BRG_RETRY_OVF j 1).ctl = s.ctl ∧
    Frame { ctl := True, reg := fun k i => k = .CTL_BRG ∧ i = j } s (s.countLink Fld.CTL_BRG_RETRY Fld.CTL_BRG_RETRY_OVF j 1) := by
  have hup : ∀ (u : Dev) (f : Fld) (v : Nat), f.lo + f.width ≤ 64 → Fld.CTL_BRG_UP.apart f = true → (u.setFld f j v).flag Fld.CTL_BRG_UP j = u.flag Fld.CTL_BRG_UP j :=
    fun u f v hw ha => by rw [Dev.flag, Dev.fld_setFld_of_apart u j j v hw ha]; rfl
  have hframe : ∀ (u : Dev) (f : Fld) (v : Nat), f.reg = .CTL_BRG → Frame { ctl := True, reg := fun k i => k = .CTL_BRG ∧ i = j } u (u.setFld f j v) :=
    fun u f v hf => Frame.setFld _ u f j v ⟨hf, rfl⟩
  unfold Dev.countLink
  dsimp only
  split
  · rename_i hle
    refine ⟨hup s _ _ (by decide) (by decide), fun hlt => ?_, rfl, hframe s _ _ rfl⟩
    rw [Dev.fld_setFld_self _ _ _ _ (by decide)]
    exact Nat.mod_eq_of_lt (by simp only [Fld.CTL_BRG_RETRY] at hlt ⊢; omega)
  · rename_i hgt
    exact ⟨(hup _ _ _ (by decide) (by decide)).trans (hup s _ _ (by decide) (by decide)), fun hlt => absurd (Nat.succ_le_of_lt hlt) hgt, rfl,
      (hframe s _ _ rfl).trans (hframe _ _ _ rfl)⟩

theorem bridgeControlFlit_up (s : State) (b : BitVec 3) (hb : b.toNat < 7) (hup : s.dev.flag Fld.CTL_BRG_UP b.toNat = true) :
    leadsTo (exec (.bridgeControlFlit b true) s) (fun t => SMap.read 0 t.dev.ctl.bridgeFails b.toNat = 0 ∧
      Frame { ctl := True } s.dev t.dev ∧ t.flash = s.flash) ∧
    (SMap.read 0 s.dev.ctl.bridgeFails b.toNat < 7 → leadsTo (exec (.bridgeControlFlit b false) s) (fun t =>
      SMap.read 0 t.dev.ctl.bridgeFails b.toNat = SMap.read 0 s.dev.ctl.bridgeFails b.toNat + 1 ∧ t.dev.flag Fld.CTL_BRG_UP b.toNat = true ∧
      (s.dev.fld Fld.CTL_BRG_RETRY b.toNat < 0xFFFF → t.dev.fld Fld.CTL_BRG_RETRY b.toNat = s.dev.fld Fld.CTL_BRG_RETRY b.toNat + 1) ∧
      Frame { ctl := True, reg := fun k i => k = .CTL_BRG ∧ i = b.toNat } s.dev t.dev ∧ t.flash = s.flash)) ∧
    (7 ≤ SMap.read 0 s.dev.ctl.bridgeFails b.toNat → leadsTo (exec (.bridgeControlFlit b false) s) (fun t =>
      t.dev.flag Fld.CTL_BRG_UP b.toNat = false ∧ b.toNat ∈ t.dev.ctl.bridgesDown ∧ t.flash = s.flash)) := by
  have hexec : ∀ c, exec (.bridgeControlFlit b c) s = ok s (s.dev.bridgeFlit b.toNat c) := fun _ => rfl
  rw [hexec, hexec, Dev.bridgeFlit_ok hb hup, Dev.bridgeFlit_fail hb hup]
  refine ⟨⟨_, rfl, Dev.putFails_self _ _ _, Frame.putFails _ _ _ _ trivial, rfl⟩, fun hn => ?_, fun hn => ?_⟩
  · rw [if_neg (by omega)]
    obtain ⟨hflag, hretry, hctl, hframe⟩ := (s.dev.putFails b.toNat (SMap.read 0 s.dev.ctl.bridgeFails b.toNat + 1)).bridgeRetry_counted b.toNat
    refine ⟨_, rfl, ?_, hflag.trans hup, hretry, ?_, rfl⟩
    · exact (congrArg (fun c => SMap.read 0 c.bridgeFails b.toNat) hctl).trans (Dev.putFails_self _ _ _)
    · exact (Frame.putFails _ _ _ _ trivial).trans hframe
  · rw [if_pos (by omega)]
    have hdown := (s.dev.putFails b.toNat (SMap.read 0 s.dev.ctl.bridgeFails b.toNat + 1)).bridgeDown_down b.toNat
    exact ⟨_, rfl, hdown.up, hdown.known, rfl⟩

/-! ### The obligation -/

/-- Settles O30: what the lead does is a number of rounds; each clause finds the round that carries its record on, and shows that the rounds after it
change nothing. -/
theorem fencesJournalAndBridges : Obligations.FencesJournalAndBridges := by
  unfold Obligations.FencesJournalAndBridges
  intro s die
  refine ⟨fun halive hf h hne => dieHwFault_settled s die halive hf h hne, fun seq h => ?_, fun seq h => ?_,
    fun r hr h ho hty hseq hready hpc => journalMirrorAck_retirement s r hr h ho hty hseq hready hpc,
    fun r n h hr hack hn hf hrole => journalAckTimeout_settled s r n h hr hack hn hf hrole, fun b hb hup => bridgeControlFlit_up s b hb hup⟩
  · obtain ⟨o, e, hout⟩ := journalMirrorAck_settled s seq false h
    rw [e]
    refine ⟨_, rfl, ?_, fun n hn hctl => hout (fun hjs => hctl ?_) n hn, Frame.putJournal _ _ _, rfl⟩
    · rw [← Dev.acked_open]
      rfl
    · rw [hjs]
      rfl
  · obtain ⟨o, e, -⟩ := journalMirrorAck_settled s seq true h
    rw [e]
    refine ⟨_, rfl, ?_, Frame.putJournal _ _ _, rfl⟩
    rw [← Dev.acked_closed]
    rfl

end Sys2Proof.Machine
end

section
/-!
PROOF. What vector instructions share: stops without an address, flags taken in, and the results of the active lanes.
-/
namespace Sys2Proof.Machine

/-- A stop with a code other than EV_CORE_ADDR records no address (R272). -/
theorem leadsTo.stopOther {s : State} {c w code addr : Nat} {legal : Bool} {uses : List Nat} {act : Nat → Act}
    (h : Issues s.dev c w legal uses) (ha : act ((s.dev.core c).guard w) = .stop code addr) (hc : code < 65536) (hw : code ∉ wireCodes)
    (hne : code ≠ Ev.CORE_ADDR) :
    leadsTo (ok s (s.dev.issue c w legal uses act)) (fun t => Stopped s t c code (s.dev.pcOf c) 0) := by
  have hstop := leadsTo.stop h ha hc hw
  rwa [if_neg hne] at hstop

/-! ### Flags (R249) -/

theorem FpFlags.bits_lt (f : FpFlags) : f.bits < 32 := by
  have hbit : ∀ b, b2n b ≤ 1 := by decide
  have hnv := hbit f.nv
  have hdz := hbit f.dz
  have hof := hbit f.of
  have huf := hbit f.uf
  have hnx := hbit f.nx
  unfold FpFlags.bits
  omega

theorem Dev.orFlags_reg (s : Dev) (c : Nat) (f : FpFlags) : (s.orFlags c f).reg .CORE_VFP c = s.reg .CORE_VFP c ||| f.bits * 16 := by
  have hbits := f.bits_lt
  unfold Dev.orFlags
  rw [Dev.reg_setReg_self]
  exact Nat.mod_eq_of_lt (Nat.or_lt_two_pow (s.reg_lt _ _) (by omega))

/-- An instruction that issues counts itself and changes no other register. -/
theorem Dev.issued_reg (s : Dev) (c n : Nat) {k : RegKind} (i : Nat) (hcount : k.counting = false) (hk : k ≠ .CORE_PC_ISSUE) :
    (s.issued c n).reg k i = s.reg k i := by
  unfold Dev.issued Dev.fetch
  rw [Dev.perfCore_reg _ _ _ _ _ _ hcount hk]
  rfl

/-- An instruction that writes its core's registers and takes flags in, and moves on by one word. -/
theorem Carried.putFlags (s : State) (c : Nat) (x : Core) (f : FpFlags) (hx : x.pc = (s.dev.core c).pc) :
    Carried s { s with dev := ((s.dev.setCore c x).orFlags c f).issued c (s.dev.pcOf c + 8) } c x.moved
      { reg := fun k j => k = .CORE_VFP ∧ j = c } := by
  refine Carried.issued s _ c _ _ _ ?_ ?_ ?_
  · rw [Dev.orFlags, Dev.setReg_core, Dev.setCore_self, Dev.pcOf, pc_next, ← hx]
    rfl
  · exact (Frame.setCore _ _ _ _ (Or.inr rfl)).trans (Frame.setReg _ _ _ _ _ ⟨rfl, rfl⟩)
  · exact Dev.reg_setReg_kind _ _ _ _ _ _ (by decide)

theorem Dev.putFlags_issued_reg (s : Dev) (c n : Nat) (x : Core) (f : FpFlags) :
    (((s.setCore c x).orFlags c f).issued c n).reg .CORE_VFP c = s.reg .CORE_VFP c ||| f.bits * 16 := by
  rw [Dev.issued_reg _ _ _ _ rfl (by decide), Dev.orFlags_reg]
  rfl

/-! ### Lanes -/

@[simp] theorem Core.v_length (x : Core) (r : Nat) : (x.v r).length = 32 := by simp [Core.v]

theorem Core.operand_length (x : Core) (wide : Bool) (r : Nat) : (x.operand wide r).length = 32 := by
  unfold Core.operand Core.vPair
  split <;> simp

theorem Core.setOperand_pc (x : Core) (wide : Bool) (r mask : Nat) (vs : List Nat) : (x.setOperand wide r mask vs).pc = x.pc := by
  cases wide <;> rfl

theorem active_lt {g l : Nat} (h : l ∈ active g) : l < 32 := List.mem_range.1 (List.mem_filter.1 h).1

/-- A function of the results of the active lanes, read off the list of all lanes' results. -/
theorem active_map_getD {α β : Type} (g : Nat) (f : Nat → α) (d : α) (h : α → β) :
    (active g).map (fun l => h (((List.range 32).map f).getD l d)) = (active g).map (fun l => h (f l)) := by
  refine List.map_congr_left fun l hl => ?_
  rw [List.getD_eq_getElem _ _ (by simpa using active_lt hl)]
  simp

/-- A map over the lanes of a list with their numbers, as a map over the numbers. -/
theorem map_zipIdx_eq_map_range {β : Type} (xs : List Nat) (f : Nat × Nat → β) :
    xs.zipIdx.map f = (List.range xs.length).map (fun l => f (xs.getD l 0, l)) := by
  refine List.ext_getElem (by simp) fun n h1 h2 => ?_
  have hn : n < xs.length := by simpa using h1
  simp [hn]

end Sys2Proof.Machine
end

section
/-!
PROOF. Conversions, random draws and the optimiser instruction (O13).
-/
namespace Sys2Proof.Machine

/-! ### Draws ahead of an instruction's effect (R210, R211) -/

/-- What an instruction that draws checks ahead of its effect `a`: the index its draws would reach, then the draws of earlier conversions. -/
def Dev.drawAct (s : Dev) (c : Nat) (keyed : Bool) (j nd : Nat) (a : Act) : Act :=
  if drawsReach keyed j nd then .stop Ev.RNG_INDEX 0 else if s.drawHeld c keyed then .hold .CORE_PC_STALL_DRAW else a

section
variable {s : Dev} {c j nd : Nat} {keyed : Bool} (a : Act)

theorem Dev.drawAct_reach (hreach : drawsReach keyed j nd = true) : s.drawAct c keyed j nd a = .stop Ev.RNG_INDEX 0 := if_pos hreach

theorem Dev.drawAct_held (hreach : drawsReach keyed j nd = false) (hheld : s.drawHeld c keyed = true) :
    s.drawAct c keyed j nd a = .hold .CORE_PC_STALL_DRAW := by
  simp only [Dev.drawAct, hreach, hheld, Bool.false_eq_true, if_false, if_true]

theorem Dev.drawAct_free (hreach : drawsReach keyed j nd = false) (hheld : s.drawHeld c keyed = false) : s.drawAct c keyed j nd a = a := by
  simp only [Dev.drawAct, hreach, hheld, Bool.false_eq_true, if_false]

end

/-! ### VCVT (R60, R253) -/

/-- The results of VCVT without random bits, or of a copy, lane by lane: the random bits do not matter (R60). -/
theorem vcvtAll_undrawn {src dst : Fmt} {k : Nat} (h : k = 0 ∨ src = dst) (rm : Rm) (g : Nat) {xs : List Nat} (hlen : xs.length = 32)
    (us : List (List Nat)) : vcvtAll src dst rm k g xs us =
      ((List.range 32).map (fun l => (vcvtLane src dst rm (xs.getD l 0)).code),
        unionFlags ((active g).map (fun l => (vcvtLane src dst rm (xs.getD l 0)).flags))) := by
  have hlane : ∀ rm' a, (k = 0 → rm' = rm) → vcvtLane src dst rm' a = vcvtLane src dst rm a := by
    intro rm' a hrm
    rcases h with hk | hcopy
    · rw [hrm hk]
    · simp only [vcvtLane, hcopy, if_true]
  have hall : xs.zipIdx.map (fun t => vcvtLane src dst (if k = 0 then rm else .stoch k ((us.getD t.2 []).getD 0 0 % 2 ^ k)) t.1) =
      (List.range 32).map (fun l => vcvtLane src dst rm (xs.getD l 0)) := by
    rw [map_zipIdx_eq_map_range, hlen]
    exact List.map_congr_left fun l _ => hlane _ _ (fun hk => if_pos hk)
  simp only [vcvtAll, hall, List.map_map, active_map_getD _ _ _ FpRes.flags]
  rfl

/-- A core with the results of a VCVT in its destination, and its flags taken in. -/
def Dev.vcvtPut (s : Dev) (c i g : Nat) (src dst : Fmt) (rm : Rm) (k : Nat) (us : List (List Nat)) : Dev :=
  let y := s.core c
  let r := vcvtAll src dst rm k g (y.operand (decide (src = .fp64)) (fA i)) us
  (s.setCore c (y.setOperand (decide (dst = .fp64)) (fD i) g r.1)).orFlags c r.2

theorem Dev.vcvtPut_undrawn (s : Dev) (c i g : Nat) {src dst : Fmt} {k : Nat} (h : k = 0 ∨ src = dst) (rm : Rm) (us : List (List Nat)) :
    s.vcvtPut c i g src dst rm k us =
      (let res (l : Nat) : FpRes := vcvtLane src dst rm (((s.core c).operand (decide (src = .fp64)) (fA i)).getD l 0)
      (s.setCore c ((s.core c).setOperand (decide (dst = .fp64)) (fD i) g ((List.range 32).map (fun l => (res l).code)))).orFlags c
        (unionFlags ((active g).map (fun l => (res l).flags)))) := by
  simp only [Dev.vcvtPut, vcvtAll_undrawn h rm g ((s.core c).operand_length _ _) us]

/-- The rule of R253 on the rounding of a VCVT word. -/
def vcvtRule (i : Nat) : Bool :=
  let sr := bits (imm16 i) 4 3
  decide (sr ≠ 3) && (decide (sr = 0) || ((decide (fF i = 5) || decide (fF i = 6)) && decide (imm16 i % 8 = 0)))

/-- How a VCVT of two wide formats ends at issue. -/
def Dev.vcvtAct (s : Dev) (c i : Nat) (src dst : Fmt) (rm : Rm) (g : Nat) : Act :=
  let x := s.core c
  let sr := bits (imm16 i) 4 3
  let keyed := (imm16 i).testBit 5
  let j := bits (x.s (fC i)) 31 16
  let d := s.vecDraws c keyed g (x.s (fB i)) (x.s (fC i) % 65536) j 1
  if sr = 0 ∨ src = dst then .done (s.vcvtPut c i g src dst rm (if sr = 0 then 0 else sr + 2) [])
  else s.drawAct c keyed j 1 (.done (d.2.vcvtPut c i g src dst rm (sr + 2) d.1))

theorem Dev.iVcvt_eq {s : Dev} {c : Nat} {w : BitVec 56} {rm : Rm} {src dst : Fmt} (hrm : s.rmOf c (imm16 (insn 0xA2 w) % 8) = some rm)
    (hsrc : vcvtFmt (imm16 (insn 0xA2 w) / 4096) = some src) (hdst : vcvtFmt (fF (insn 0xA2 w)) = some dst) :
    s.iVcvt c w = s.issueS c (insn 0xA2 w) (formVcvt (insn 0xA2 w)) (vcvtRule (insn 0xA2 w)) (s.vcvtAct c (insn 0xA2 w) src dst rm) := by
  refine congrArg (s.issueS c _ _ _) (funext fun g => ?_)
  simp only [hrm, hsrc, hdst, Dev.vcvtAct, Dev.drawAct, Bool.or_eq_true, decide_eq_true_eq]
  by_cases hsr : bits (imm16 (insn 0xA2 w)) 4 3 = 0
  · simp only [hsr, true_or, if_true]
    rfl
  · simp only [hsr, if_false]
    rfl

/-! ### VRAND and VGUMBEL (R257, R258) -/

/-- How a VRAND ends at issue. -/
def Dev.vrandAct (s : Dev) (c i g : Nat) : Act :=
  let x := s.core c
  let k := fF i % 8
  let keyed := (fF i).testBit 3
  let j := bits (x.s (fB i)) 31 16
  let d := s.vecDraws c keyed g (x.s (fA i)) (x.s (fB i) % 65536) j (distDraws k)
  s.drawAct c keyed j (distDraws k)
    (.done (d.2.setCore c ((d.2.core c).setV (fD i) g (d.1.map (distValue k (s.cdfTable c) (x.s (fC i) % 65536))))))

/-- How a VGUMBEL ends at issue. -/
def Dev.vgumbelAct (s : Dev) (c i g : Nat) : Act :=
  let x := s.core c
  let keyed := (fF i).testBit 3
  let j := bits (x.s (fB i)) 31 16
  let d := s.vecDraws c keyed g (x.s (fX i)) (x.s (fB i) % 65536) j 2
  let y := d.2.core c
  let noise := d.1.map (distValue 6 (fun _ => 0) 0)
  let r := laneMap g (fun a b _ => shapeFP32.fma .rne false false (x.s (fC i) % 2 ^ 32) b a) (y.v (fA i)) noise noise
  s.drawAct c keyed j 2 (.done ((d.2.setCore c (y.setV (fD i) g r.1)).orFlags c r.2))

/-! ### VOPT (R259, R260) -/

/-- The result of one lane of a VOPT with the lanes' draws `us`. -/
def Core.voptRes (x : Core) (i : Nat) (us : List (List Nat)) (l : Nat) : OptRes :=
  let k := fF i % 4 + 2
  voptLane (fun n => (x.v (fX i)).getD n 0) (if fF i % 4 = 0 then .rne else .stoch k ((us.getD l []).getD 0 0 % 2 ^ k))
    ((x.v (fD i)).getD l 0) ((x.v (fA i)).getD l 0) ((x.v (fB i)).getD l 0) ((x.v (fC i)).getD l 0)

/-- To nearest, the draws do not matter. -/
theorem Core.voptRes_nearest (x : Core) {i : Nat} (h : fF i % 4 = 0) (us us' : List (List Nat)) : x.voptRes i us = x.voptRes i us' := by
  funext l
  simp only [Core.voptRes, if_pos h]

/-- A core with the weights and moments of a VOPT in D, B and C. -/
def Core.putOpt (y : Core) (i g : Nat) (res : Nat → OptRes) : Core :=
  let all (f : OptRes → Nat) : List Nat := (List.range 32).map (fun l => f (res l))
  ((y.setV (fD i) g (all (fun r => r.w))).setV (fB i) g (all (fun r => r.m))).setV (fC i) g (all (fun r => r.v))

/-- The module with those results in core `c`, and the flags of the active lanes taken in. -/
def Dev.voptPut (s : Dev) (c i g : Nat) (res : Nat → OptRes) : Dev :=
  (s.setCore c ((s.core c).putOpt i g res)).orFlags c (unionFlags ((active g).map (fun l => (res l).flags)))

/-- How a VOPT ends at issue: to nearest it draws nothing (R259). -/
def Dev.voptAct (s : Dev) (c i g : Nat) : Act :=
  let x := s.core c
  let keyed := (fF i).testBit 2
  let j := (x.v (fX i)).getD 9 0 % 65536
  let d := s.vecDraws c keyed g (x.s (imm16 i)) ((x.v (fX i)).getD 8 0 % 65536) j 1
  if fF i % 4 = 0 then .done (s.voptPut c i g (x.voptRes i []))
  else s.drawAct c keyed j 1 (.done (d.2.voptPut c i g (x.voptRes i d.1)))

theorem Dev.iVopt_eq (s : Dev) (c : Nat) (w : BitVec 56) : s.iVopt c w =
    s.issue c (insn 0xA7 w) ((formVopt (insn 0xA7 w)).ok (insn 0xA7 w) && decide (fF (insn 0xA7 w) % 4 ≠ 3) && decide (imm16 (insn 0xA7 w) < 32))
      [imm16 (insn 0xA7 w)] (s.voptAct c (insn 0xA7 w)) := by
  unfold Dev.iVopt
  refine congrArg (s.issue c (insn 0xA7 w) _ _) (funext fun g => ?_)
  simp only [Dev.voptAct, Dev.drawAct, Dev.voptPut, Core.putOpt, List.map_map, active_map_getD _ _ _ OptRes.flags]
  by_cases hrnd : fF (insn 0xA7 w) % 4 = 0
  · simp only [Core.voptRes, hrnd, ne_eq, not_true_eq_false, decide_false, Bool.false_and, Bool.false_eq_true, if_false, if_true]
    rfl
  · simp only [Core.voptRes, hrnd, ne_eq, not_false_eq_true, decide_true, Bool.true_and, if_false]
    rfl

/-! ### The obligation -/

/-- Settles O13: VRAND, VGUMBEL, a stochastic VCVT and a stochastic VOPT end in the same way, so their checks are met once; the other two draw
nothing. -/
theorem conversionsDrawsAndOptimiser : Obligations.ConversionsDrawsAndOptimiser := by
  unfold Obligations.ConversionsDrawsAndOptimiser
  intro core w s c x waits
  have hdraws : ∀ {i legal uses act keyed j nd t}, Issues s.dev c i legal uses → act (x.guard i) = s.dev.drawAct c keyed j nd (.done t) →
      waits keyed j nd (ok s (s.dev.issue c i legal uses act)) ∧ (drawsReach keyed j nd = false → s.dev.drawHeld c keyed = false →
        ok s (s.dev.issue c i legal uses act) = after s c t) := by
    intro i legal uses act keyed j nd t h hact
    refine ⟨⟨fun hreach => ?_, fun hreach hheld => ?_⟩, fun hreach hheld => ?_⟩
    · exact leadsTo.stopOther h (hact.trans (Dev.drawAct_reach _ hreach)) (by decide) (by decide) (by decide)
    · refine leadsTo.hold h (hact.trans (Dev.drawAct_held _ hreach hheld)) ⟨rfl, ?_, Frame.perfCore _ s.dev _ c 1 ⟨rfl, rfl⟩⟩
      exact Dev.perf_self s.dev _ c _ 1 rfl
    · exact after_done h (hact.trans (Dev.drawAct_free _ hreach hheld))
  refine ⟨?_, ?_, ?_, ?_⟩
  · intro i sr keyed j rule rm src dst h hrm hsrc hdst
    have hexec : exec (.vcvt core w) s = ok s (s.dev.issueS c i (formVcvt i) rule (s.dev.vcvtAct c i src dst rm)) :=
      congrArg (ok s) (Dev.iVcvt_eq hrm hsrc hdst)
    rw [hexec]
    refine ⟨fun hcopy => ?_, fun hsr hne => ?_⟩
    · have hput := s.dev.vcvtPut_undrawn c i (x.guard i) (k := if sr = 0 then 0 else sr + 2) (hcopy.imp_left fun hsr => if_pos hsr) rm []
      have hact : s.dev.vcvtAct c i src dst rm (x.guard i) = .done _ := (if_pos hcopy).trans (congrArg Act.done hput)
      exact leadsTo.done h hact ⟨Carried.putFlags s c _ _ (x.setOperand_pc _ _ _ _), Dev.putFlags_issued_reg _ _ _ _ _⟩
    · exact hdraws h (if_neg (not_or.2 ⟨hsr, hne⟩))
  · intro i k keyed j d h
    have hexec : exec (.vrand core w) s = ok s (s.dev.issueS c i { d := .v, a := .s, b := .s, c := if k = 3 then .s else .unused, f := 0xF }
        (decide (k ≠ 7)) (s.dev.vrandAct c i)) := rfl
    rw [hexec]
    exact hdraws h rfl
  · intro i keyed j d noise r h
    have hexec : exec (.vgumbel core w) s =
        ok s (s.dev.issueS c i { d := .v, a := .v, b := .s, c := .s, x := .s, f := 8 } true (s.dev.vgumbelAct c i)) := rfl
    rw [hexec]
    exact hdraws h rfl
  · intro i p rnd keyed j d rm res all new h
    have hexec : exec (.vopt core w) s = ok s (s.dev.issue c i _ [imm16 i] (s.dev.voptAct c i)) := congrArg (ok s) (s.dev.iVopt_eq c w)
    rw [hexec]
    refine ⟨fun hrnd => ?_, fun hrnd => ?_⟩
    · have hact : s.dev.voptAct c i (x.guard i) = .done (s.dev.voptPut c i (x.guard i) (x.voptRes i [])) := if_pos hrnd
      rw [x.voptRes_nearest hrnd [] d.1] at hact
      exact leadsTo.done h hact (Carried.putFlags s c _ _ rfl)
    · exact hdraws h (if_neg hrnd)

end Sys2Proof.Machine
end

section
/-!
PROOF. WLOAD and AMUL handed to the array queue (O15).
-/
namespace Sys2Proof.Machine

/-! ### A core that hands an instruction to its array queue -/

@[simp] theorem Core.fetchFrom_arrayQ (x : Core) (m : Memory) (c : Nat) : (x.fetchFrom m c).arrayQ = x.arrayQ := by
  obtain ⟨g, hg⟩ := x.fetchFrom_eq m c
  rw [hg]

/-- Entries of the span logs change nothing else of a core. -/
theorem Core.logSpans_eq (e : SpanEntry) (ns : List Nat) (x : Core) :
    ∃ m, ns.foldl (fun y n => y.logSpan n e) x = { x with spans := m } := by
  induction ns generalizing x with
  | nil => exact ⟨x.spans, rfl⟩
  | cons n ns ih => exact ih (x.logSpan n e)

/-- The hand-over appends to the queue, takes an order number and notes its reads in the span logs; nothing else of the core changes. -/
theorem Core.queueArray_eq (x : Core) (w a b : Nat) (f : Fmt) :
    ∃ m, x.queueArray w a b f =
      { x with order := x.order + 1, arrayQ := x.arrayQ ++ [⟨x.order, x.pc.toNat % 2 ^ 20, w, a, b⟩], spans := m } := by
  unfold Core.queueArray
  dsimp only
  split
  · split <;> exact ⟨_, rfl⟩
  · exact Core.logSpans_eq _ _ _

theorem Core.queueArray_pc (x : Core) (w a b : Nat) (f : Fmt) : (x.queueArray w a b f).pc = x.pc := by
  obtain ⟨m, hm⟩ := x.queueArray_eq w a b f
  rw [hm]

theorem Core.queueArray_arrayQ (x : Core) (w a b : Nat) (f : Fmt) :
    (x.queueArray w a b f).arrayQ = x.arrayQ ++ [⟨x.order, x.pc.toNat % 2 ^ 20, w, a, b⟩] := by
  obtain ⟨m, hm⟩ := x.queueArray_eq w a b f
  rw [hm]

/-! ### How a WLOAD or AMUL ends at issue, in the order of R273 -/

section
variable {s : Dev} {c i : Nat} {f : Fmt}

theorem Dev.queueArrayAct_badFormat (hfmt : arrayFmt (arrFmt i) = none) : s.queueArrayAct c i = .stop Ev.FMT_ILLEGAL 0 := by
  simp only [Dev.queueArrayAct, hfmt]

theorem Dev.queueArrayAct_badBank {code : Nat} (hfmt : arrayFmt (arrFmt i) = some f)
    (hbank : (if isAmul i then s.bankFault c i f else none) = some code) : s.queueArrayAct c i = .stop code 0 := by
  simp only [Dev.queueArrayAct, hfmt, hbank]

theorem Dev.queueArrayAct_badStage {off : Nat} (hfmt : arrayFmt (arrFmt i) = some f)
    (hbank : (if isAmul i then s.bankFault c i f else none) = none)
    (hstage : stageFault f (arrBs16 i) ((s.core c).s (fA i)) ((s.core c).s (fB i)) (arrVectors i) = some off) :
    s.queueArrayAct c i = .stop Ev.CORE_ADDR (strideAddr c (0x100000 + off)) := by
  simp only [Dev.queueArrayAct, hfmt, hbank, hstage]

theorem Dev.queueArrayAct_good (hfmt : arrayFmt (arrFmt i) = some f)
    (hbank : (if isAmul i then s.bankFault c i f else none) = none)
    (hstage : stageFault f (arrBs16 i) ((s.core c).s (fA i)) ((s.core c).s (fB i)) (arrVectors i) = none) :
    s.queueArrayAct c i = if 4 ≤ (s.core c).arrayQ.length then .hold .CORE_PC_STALL_UNIT
      else .done (s.setCore c ((s.core c).queueArray i ((s.core c).s (fA i)) ((s.core c).s (fB i)) f)) := by
  simp only [Dev.queueArrayAct, hfmt, hbank, hstage]

end

/-- Settles O15: WLOAD and AMUL end at issue in the same way, so one case analysis over the checks, in their order, serves both. -/
theorem arrayInstructionsQueued : Obligations.ArrayInstructionsQueued := by
  unfold Obligations.ArrayInstructionsQueued
  intro core w s c x queued
  have hqueued : ∀ i legal uses, Issues s.dev c i legal uses →
      queued i (ok s (s.dev.issue c i legal uses (fun _ => s.dev.queueArrayAct c i))) := by
    intro i legal uses h
    refine ⟨fun hfmt => ?_, fun f hfmt => ⟨fun hbank => ?_, fun hbank => ?_, fun hbank => ⟨fun off hstage => ?_,
      fun hstage hroom => ?_, fun hstage hfull => ?_⟩⟩⟩
    · exact leadsTo.stopOther h (Dev.queueArrayAct_badFormat hfmt) (by decide) (by decide) (by decide)
    · exact leadsTo.stopOther h (Dev.queueArrayAct_badBank hfmt hbank) (by decide) (by decide) (by decide)
    · exact leadsTo.stopOther h (Dev.queueArrayAct_badBank hfmt hbank) (by decide) (by decide) (by decide)
    · exact leadsTo.stopAddr h (Dev.queueArrayAct_badStage hfmt hbank hstage)
    · have hact := (Dev.queueArrayAct_good hfmt hbank hstage).trans (if_neg (Nat.not_le.2 hroom))
      have hcarried := Carried.put s c _ (x.queueArray_pc i (x.s (fA i)) (x.s (fB i)) f)
      refine leadsTo.done h hact ⟨hcarried, ?_⟩
      rw [hcarried.core, Core.fetchFrom_arrayQ]
      exact x.queueArray_arrayQ _ _ _ f
    · have hact := (Dev.queueArrayAct_good hfmt hbank hstage).trans (if_pos hfull)
      exact leadsTo.hold h hact (Frame.perfCore _ s.dev _ c 1 ⟨rfl, rfl⟩)
  exact ⟨hqueued _ _ _, hqueued _ _ _⟩

end Sys2Proof.Machine
end

section
/-!
PROOF. Dispatch and bank loads of the array queue (O16).
-/
namespace Sys2Proof.Machine

/-! ### Counters, settling and masks -/

theorem Dev.perfCore_self (s : Dev) (k : RegKind) (c n : Nat) (h : k.counting = false) :
    (s.perfCore k c n).reg k c % 2 ^ 48 = (s.reg k c + n) % 2 ^ 48 := by
  unfold Dev.perfCore
  split
  case isTrue hn => rw [hn, Nat.add_zero]
  case isFalse => exact Dev.perf_self s k c _ n h

/-- While no loss of a partition has been non-finite, none of its cores is made DONE (R328). -/
theorem Dev.settle_eq_self {s : Dev} {p : Nat} (h : (s.part p).nanStop = false) : s.settle p = s := by
  simp [Dev.settle, h]

theorem mem_maskArrays {m a : Nat} : a ∈ maskArrays m ↔ a < 4 ∧ m.testBit a = true := by
  simp [maskArrays, setBits]

/-! ### The head of the array queue dispatches (R268) -/

section
variable {s : Dev} {c : Nat} {q : ArrayOp} {qs : List ArrayOp} {f : Fmt}

/-- A WLOAD whose bank is neither in use by an AMUL in flight nor being loaded begins its bank load. -/
theorem Dev.arrayDispatch_wload (hq : (s.core c).arrayQ = q :: qs) (hf : arrayFmt (arrFmt q.word) = some f) (hw : isAmul q.word = false)
    (hflights : ∀ g ∈ (s.core c).flights, g.usesBank (bits (imm16 q.word) 13 12) (arrBank q.word) = false)
    (hloads : ∀ l ∈ (s.core c).loads, ¬(l.array = s.ownArray c (bits (imm16 q.word) 13 12) ∧ l.bank = arrBank q.word)) :
    s.arrayDispatch c = s.setCore c { s.core c with
      arrayQ := qs
      loads := (s.core c).loads ++ [⟨s.ownArray c (bits (imm16 q.word) 13 12), arrBank q.word, f, arrBs16 q.word, q.a, q.b⟩] } := by
  have hunused : (s.core c).flights.any (fun g => g.usesBank (bits (imm16 q.word) 13 12) (arrBank q.word)) = false :=
    List.any_eq_false.2 fun g hg => by simp [hflights g hg]
  have hunloaded : (s.core c).loads.any
      (fun l => decide (l.array = s.ownArray c (bits (imm16 q.word) 13 12)) && decide (l.bank = arrBank q.word)) = false :=
    List.any_eq_false.2 fun l hl => by simpa using hloads l hl
  simp [Dev.arrayDispatch, hq, hf, hw, hunused, hunloaded]

/-- An AMUL goes on the bus when no bank it names is being loaded, no earlier edge operation is at work on its panel, and its banks hold
its format. -/
theorem Dev.arrayDispatch_amul (hq : (s.core c).arrayQ = q :: qs) (hf : arrayFmt (arrFmt q.word) = some f) (hw : isAmul q.word = true)
    (hloads : ∀ l ∈ (s.core c).loads, ¬(l.bank = arrBank q.word ∧ ∃ a, (arrMask q.word).testBit a = true ∧ l.array = s.ownArray c a))
    (hedge : (s.core c).edgeBefore (panelOf q.word) q.order = false)
    (hbank : (s.setCore c { s.core c with arrayQ := [] }).bankFault c q.word f = none) :
    s.arrayDispatch c = s.startAmul c q f := by
  have hunloaded : (maskArrays (arrMask q.word)).any
      (fun a => (s.core c).loads.any (fun l => decide (l.array = s.ownArray c a) && decide (l.bank = arrBank q.word))) = false := by
    refine List.any_eq_false.2 fun a ha => ?_
    rw [Bool.not_eq_true]
    refine List.any_eq_false.2 fun l hl hmatch => ?_
    obtain ⟨harray, hsame⟩ : l.array = s.ownArray c a ∧ l.bank = arrBank q.word := by simpa using hmatch
    exact hloads l hl ⟨hsame, a, (mem_maskArrays.1 ha).2, harray⟩
  simp [Dev.arrayDispatch, hq, hf, hw, hunloaded, hedge, hbank]

end

/-- What an AMUL takes with it when it goes on the bus: its panel, bank and place in program order, its vectors as staging holds them, and
the banks of the arrays of its mask, in the core's own arrays (R90, R455). -/
structure AmulFlight.StartsFrom (g : AmulFlight) (s : Dev) (c : Nat) (q : ArrayOp) (f : Fmt) : Prop where
  panel : g.panel = panelOf q.word
  bank : g.bank = arrBank q.word
  order : g.order = q.order
  next : g.next = 0
  acts : g.data.acts = s.stage c f (arrBs16 q.word) q.a q.b (arrVectors q.word)
  banks : ∀ a, a < 4 → (arrMask q.word).testBit a = true →
    g.data.banks.getD a {} = (s.core c).bank (2 * s.ownArray c a + arrBank q.word)

/-- An AMUL put on the bus leaves the queue and joins the flights, its panel perhaps emptied, and its bus cycles are counted. -/
theorem Dev.startAmul_eq (s : Dev) (c : Nat) (q : ArrayOp) (f : Fmt) :
    ∃ g ps, g.StartsFrom s c q f ∧
      s.startAmul c q f = (s.setCore c { s.core c with
        arrayQ := (s.core c).arrayQ.drop 1, flights := (s.core c).flights ++ [g], panels := ps }).perfCore .ARR_PC_ISSUE c
          (arrVectors q.word * f.busCycles) := by
  have hbanks : ∀ a, a < 4 → (arrMask q.word).testBit a = true →
      ((List.range 4).map (fun a => if (arrMask q.word).testBit a then (s.core c).bank (2 * s.ownArray c a + arrBank q.word) else {})).getD a {} =
        (s.core c).bank (2 * s.ownArray c a + arrBank q.word) := fun a ha hmask => by simp [ha, hmask]
  unfold Dev.startAmul
  dsimp only
  split <;> exact ⟨_, _, ⟨rfl, rfl, rfl, rfl, rfl, hbanks⟩, rfl⟩

/-! ### A bank load completes (R83) -/

/-- The core after bank `n` has taken what a load brings, the load no longer in progress. -/
def Core.bankTaken (x : Core) (l : BankLoad) (n : Nat) (b : Bank) : Core :=
  { x with loads := x.loads.erase l, banks := SMap.write {} x.banks n b }

theorem Core.bankTaken_bank_self (x : Core) (l : BankLoad) (n : Nat) (b : Bank) : (x.bankTaken l n b).bank n = b := SMap.read_write_self _ _ _ _

theorem Core.bankTaken_bank_ne (x : Core) (l : BankLoad) {n m : Nat} (b : Bank) (h : m ≠ n) : (x.bankTaken l n b).bank m = x.bank m :=
  SMap.read_write_ne _ _ _ _ _ _ h

theorem Core.bankTaken_keeps (x : Core) (l : BankLoad) (n : Nat) (b : Bank) : CoreKeepsRegisters x (x.bankTaken l n b) :=
  ⟨rfl, rfl, rfl, rfl, rfl, rfl, rfl, rfl, rfl, rfl, rfl, rfl⟩

/-- A load that completes puts what staging holds then into its bank. -/
theorem Dev.bankLoaded_eq {s : Dev} {c a b : Nat} {l : BankLoad}
    (hl : (s.core c).loads.find? (fun l => decide (l.array = a) && decide (l.bank = b)) = some l)
    (hrun : (s.part (s.corePart c)).nanStop = false) :
    s.bankLoaded c a b = s.setCore c ((s.core c).bankTaken l (2 * a + b)
      { fmt := some l.fmt, bs16 := l.bs16, rows := s.stage c l.fmt l.bs16 l.srcA l.srcB 32 }) := by
  simp only [Dev.bankLoaded, hl]
  exact Dev.settle_eq_self hrun

/-- Settles O16: the dispatch of a WLOAD, the dispatch of an AMUL, and the completion of a bank load, each by what it makes of the core. -/
theorem arrayQueueDispatchAndBankLoads : Obligations.ArrayQueueDispatchAndBankLoads := by
  unfold Obligations.ArrayQueueDispatchAndBankLoads
  intro core s c x
  refine ⟨fun q qs f hq hf hw hflights hloads => ?_, fun q qs f hq hf hw hloads hedge hbank => ?_, fun array bank l hl hrun => ?_⟩
  · exact ⟨_, congrArg (ok s) (Dev.arrayDispatch_wload hq hf hw hflights hloads), Dev.setCore_self _ _ _, Frame.setCore _ _ _ _ rfl, rfl⟩
  · obtain ⟨g, ps, hg, hstart⟩ := s.dev.startAmul_eq c q f
    have hdispatch := (Dev.arrayDispatch_amul hq hf hw hloads hedge hbank).trans hstart
    refine ⟨_, congrArg (ok s) hdispatch, ?_, ⟨g, ?_, hg.panel, hg.bank, hg.order, hg.next, hg.acts, hg.banks⟩, ?_, ?_, rfl⟩
    · simp [x, hq]
    · simp [x]
    · exact Dev.perfCore_self _ _ _ _ rfl
    · exact (Frame.setCore _ s.dev c _ rfl).trans (Frame.perfCore _ _ _ c _ ⟨rfl, rfl⟩)
  · refine ⟨_, congrArg (ok s) (Dev.bankLoaded_eq hl hrun), ?_⟩
    dsimp only
    rw [Dev.setCore_self]
    exact ⟨x.bankTaken_bank_self _ _ _, fun n hn => x.bankTaken_bank_ne _ _ hn, rfl, x.bankTaken_keeps _ _ _, Frame.setCore _ _ _ _ rfl, rfl⟩

end Sys2Proof.Machine
end

section
/-!
PROOF. A vector reaches the accumulator row (O17).
-/
namespace Sys2Proof.Machine

/-! ### Cells written one after another -/

theorem Panel.cell_setCell_self (p : Panel) (key : Nat) (v : Cell) : (p.setCell key v).cell key = v := SMap.read_write_self _ _ _ _

theorem Panel.cell_setCell_ne (p : Panel) {key key' : Nat} (v : Cell) (h : key' ≠ key) : (p.setCell key v).cell key' = p.cell key' :=
  SMap.read_write_ne _ _ _ _ _ _ h

theorem Panel.cell_congr {p q : Panel} (h : q.cells = p.cells) (key : Nat) : q.cell key = p.cell key := by
  unfold Panel.cell
  rw [h]

/-- A panel after a list of cells is written to it, in order. -/
def Panel.putCells (p : Panel) (cells : List (Nat × Cell × AccCounts)) : Panel := cells.foldl (fun p t => p.setCell t.1 t.2.1) p

/-- A key that is not among those written keeps its cell. -/
theorem Panel.putCells_cell_of_not_mem {cells : List (Nat × Cell × AccCounts)} {key : Nat} (h : ∀ t ∈ cells, key ≠ t.1) (p : Panel) :
    (p.putCells cells).cell key = p.cell key := by
  induction cells generalizing p with
  | nil => rfl
  | cons t ts ih =>
    calc ((p.setCell t.1 t.2.1).putCells ts).cell key
      _ = (p.setCell t.1 t.2.1).cell key := ih (fun u hu => h u (List.mem_cons_of_mem t hu)) _
      _ = p.cell key := p.cell_setCell_ne _ (h t List.mem_cons_self)

/-- A key takes the cell written to it when every write to it is of the same cell. -/
theorem Panel.putCells_cell_of_mem {cells : List (Nat × Cell × AccCounts)} {t : Nat × Cell × AccCounts} (ht : t ∈ cells)
    (hsame : ∀ u ∈ cells, u.1 = t.1 → u = t) (p : Panel) : (p.putCells cells).cell t.1 = t.2.1 := by
  induction cells generalizing p with
  | nil => cases ht
  | cons u us ih =>
    have hsame' : ∀ v ∈ us, v.1 = t.1 → v = t := fun v hv => hsame v (List.mem_cons_of_mem u hv)
    by_cases hmem : t ∈ us
    · exact ih hmem hsame' _
    · obtain rfl : t = u := (List.mem_cons.1 ht).resolve_right hmem
      have hrest : ∀ v ∈ us, t.1 ≠ v.1 := fun v hv he => hmem (hsame' v hv he.symm ▸ hv)
      exact (Panel.putCells_cell_of_not_mem hrest _).trans (p.cell_setCell_self _ _)

/-! ### The cells of a row (R92, R108, R113) -/

/-- What vector `k` of an AMUL makes of cell (k, j) of array `a`: its block sums aligned into the run, and any promotion due. -/
def AmulRec.laneAt (d : AmulRec) (p : Panel) (k a j : Nat) : Cell × AccCounts :=
  Cell.vector (effPromote p.promote.toNat d.bs16) p.pair
    ((laneBlocks d.bs16 ((d.acts.getD k ⟨0, 0, 0⟩).vals d.fmt) ((d.banks.getD a {}).weights d.fmt d.col j)).map (fun b => b.out))
    (p.cell (cellKey a k j))

theorem Panel.rowAt_cells (p : Panel) (d : AmulRec) (k a : Nat) :
    (p.rowAt d k a).cells = (List.range 32).map (fun j => (cellKey a k j, d.laneAt p k a j)) := by
  refine List.ext_getElem (by simp [Panel.rowAt]) fun n _ _ => ?_
  simp [Panel.rowAt, AmulRec.laneAt]

/-- The cells that vector `k` of an AMUL writes: those of row `k`, in every array of its mask. -/
def Panel.rowCells (p : Panel) (d : AmulRec) (k : Nat) : List (Nat × Cell × AccCounts) :=
  ((maskArrays d.mask.toNat).map (p.rowAt d k)).flatMap (fun r => r.cells)

theorem Panel.mem_rowCells {p : Panel} {d : AmulRec} {k : Nat} {t : Nat × Cell × AccCounts} :
    t ∈ p.rowCells d k ↔ ∃ a j, a < 4 ∧ d.mask.getLsbD a = true ∧ j < 32 ∧ t = (cellKey a k j, d.laneAt p k a j) := by
  simp only [Panel.rowCells, List.flatMap_map, List.mem_flatMap, mem_maskArrays, Panel.rowAt_cells, List.mem_map, List.mem_range,
    BitVec.testBit_toNat]
  constructor
  · rintro ⟨a, ⟨ha, hmask⟩, j, hj, rfl⟩
    exact ⟨a, j, ha, hmask, hj, rfl⟩
  · rintro ⟨a, j, ha, hmask, hj, rfl⟩
    exact ⟨a, ⟨ha, hmask⟩, j, hj, rfl⟩

/-- The keys of one row name their array and lane. -/
theorem cellKey_inj {a a' k j j' : Nat} (hj : j < 32) (hj' : j' < 32) (h : cellKey a k j = cellKey a' k j') : a = a' ∧ j = j' := by
  unfold cellKey at h
  omega

section
variable (p : Panel) (d : AmulRec) (k : Nat)

theorem Panel.putCells_rowCells_at {a j : Nat} (ha : a < 4) (hmask : d.mask.getLsbD a = true) (hj : j < 32) :
    (p.putCells (p.rowCells d k)).cell (cellKey a k j) = (d.laneAt p k a j).1 := by
  refine Panel.putCells_cell_of_mem (t := (cellKey a k j, d.laneAt p k a j)) (Panel.mem_rowCells.2 ⟨a, j, ha, hmask, hj, rfl⟩) (fun u hu he => ?_) p
  obtain ⟨a', j', -, -, hj', rfl⟩ := Panel.mem_rowCells.1 hu
  obtain ⟨rfl, rfl⟩ := cellKey_inj hj' hj he
  rfl

theorem Panel.putCells_rowCells_off {key : Nat} (h : ∀ a j, a < 4 → j < 32 → d.mask.getLsbD a = true → key ≠ cellKey a k j) :
    (p.putCells (p.rowCells d k)).cell key = p.cell key := by
  refine Panel.putCells_cell_of_not_mem (fun t ht => ?_) p
  obtain ⟨a, j, ha, hmask, hj, rfl⟩ := Panel.mem_rowCells.1 ht
  exact h a j ha hj hmask

end

/-! ### The counts of a row, and the core after it -/

theorem Frame.blockCount (m : Touches) (s : Dev) (c : Nat) (col gate : Bool) (bs : List BlockRes) (h : ∀ k, m.reg k c) :
    Frame m s (s.blockCount c col gate bs) := by
  have hsums := (Frame.perfCore m s .ARR_PC_BLOCKS c bs.length (h _)).trans
    (Frame.perfCore m _ (if col then .ARR_PC_TRUNC_COL else .ARR_PC_TRUNC_ROW) c (bs.filter (fun b => b.trunc)).length (h _))
  exact hsums.trans (Frame.ite m _ (fun _ => Frame.perfCore m _ _ c _ (h _)) (fun _ => Frame.refl m _))

theorem Frame.accCount (m : Touches) (s : Dev) (c : Nat) (n : AccCounts) (h : ∀ k, m.reg k c) : Frame m s (s.accCount c n) :=
  (((Frame.perfCore m s _ c _ (h _)).trans (Frame.perfCore m _ _ c _ (h _))).trans (Frame.perfCore m _ _ c _ (h _))).trans
    (Frame.raiseN m _ _ _ _)

/-- Beside counters of the core, the counts of a row change nothing, and while no loss has been non-finite no core settles after it. -/
theorem Frame.rowCounts {s : Dev} {c p : Nat} (hrun : (s.part p).nanStop = false) (col gate : Bool) (bs : List BlockRes) (n : AccCounts) :
    Frame { reg := fun _ i => i = c } s (((s.blockCount c col gate bs).accCount c n).settle p) := by
  have hframe := (Frame.blockCount { reg := fun _ i => i = c } s c col gate bs fun _ => rfl).trans (Frame.accCount _ _ c n fun _ => rfl)
  rwa [Dev.settle_eq_self ((congrArg Part.nanStop (hframe.part p id)).trans hrun)]

/-- The core after a vector of its oldest AMUL in flight has reached the accumulator row and made panel `q` of the AMUL's panel: the AMUL is at
its next vector, or has ended. -/
def Core.rowTaken (x : Core) (f : AmulFlight) (fs : List AmulFlight) (q : Panel) : Core :=
  { x.setPanel f.panel q with flights := if f.next + 1 < f.data.acts.length then { f with next := f.next + 1, start := false } :: fs else fs }

theorem Core.rowTaken_panel_self (x : Core) (f : AmulFlight) (fs : List AmulFlight) (q : Panel) : (x.rowTaken f fs q).panel f.panel = q :=
  SMap.read_write_self _ _ _ _

theorem Core.rowTaken_panel_ne (x : Core) (f : AmulFlight) (fs : List AmulFlight) (q : Panel) {n : Nat} (h : n ≠ f.panel) :
    (x.rowTaken f fs q).panel n = x.panel n := SMap.read_write_ne _ _ _ _ _ _ h

/-- A vector at the accumulator row writes the cells of its row into the panel; beside the core only counters of the core change. The
check datapath leaves the cells as they are. -/
theorem Dev.rowWriteback_eq {s : Dev} {c : Nat} {f : AmulFlight} {fs : List AmulFlight} (hf : (s.core c).flights = f :: fs)
    (hrun : (s.part (s.corePart c)).nanStop = false) :
    let p := f.enter ((s.core c).panel f.panel)
    ∃ q, q.cells = (p.putCells (p.rowCells f.data f.next)).cells ∧
      Frame { reg := fun _ i => i = c } (s.setCore c ((s.core c).rowTaken f fs q)) (s.rowWriteback c none) := by
  intro p
  unfold Dev.rowWriteback
  simp only [hf]
  refine ⟨_, ?_, Frame.rowCounts (s := s.setCore c ((s.core c).rowTaken f fs _)) hrun f.data.col f.gate _ _⟩
  split <;> rfl

/-- Settles O17: the cells written are those of the vector's row, one for each array of the mask and lane, and their keys are distinct. -/
theorem accumulatorRowTakesVector : Obligations.AccumulatorRowTakesVector := by
  unfold Obligations.AccumulatorRowTakesVector
  intro core f fs s c x p d lane hf hrun
  obtain ⟨q, hcells, hframe⟩ := Dev.rowWriteback_eq hf hrun
  have hcore : (s.dev.rowWriteback c none).core c = x.rowTaken f fs q := (hframe.core c id).trans (Dev.setCore_self _ _ _)
  have hcell : ∀ key, q.cell key = (p.putCells (p.rowCells d f.next)).cell key := Panel.cell_congr hcells
  refine ⟨{ s with dev := s.dev.rowWriteback c none }, rfl, ?_⟩
  dsimp only
  rw [hcore, Core.rowTaken_panel_self]
  refine ⟨fun a j ha hj hmask _ => ?_, fun key hkey => ?_, fun n hn => x.rowTaken_panel_ne f fs q hn, rfl, fun j hj => ?_, fun a => hframe.byte a id, rfl⟩
  · exact (hcell _).trans (p.putCells_rowCells_at d f.next ha hmask hj)
  · exact (hcell key).trans (p.putCells_rowCells_off d f.next hkey)
  · exact (hframe.core j id).trans (Dev.setCore_ne _ _ _ _ hj)

end Sys2Proof.Machine
end

section
/-!
PROOF. Instructions handed to the edge queue (O19).
-/
namespace Sys2Proof.Machine

/-- The opcode of a whole word is the one it was made with (R233). -/
theorem opOf_insn {op : Nat} (h : op < 256) (w : BitVec 56) : opOf (insn op w) = op := by
  have hw := w.isLt
  unfold opOf insn bits
  rw [Nat.shiftRight_eq_div_pow, show op * 2 ^ 56 + w.toNat = w.toNat + 2 ^ 56 * op by omega, Nat.add_mul_div_left _ _ (by decide),
    Nat.div_eq_of_lt hw, Nat.zero_add]
  exact Nat.mod_eq_of_lt h

/-- How an instruction of the edge queue that writes register `dest` at its completion ends at issue (R267, R268). -/
def Dev.edgeAct (s : Dev) (c i : Nat) (dest : Option Nat) : Act :=
  if 2 ≤ (s.core c).edgeQ.length then .hold .CORE_PC_STALL_UNIT else .done (s.queueEdge c i dest)

/-- The registers that a core awaits after it has handed over an instruction that writes `dest`. -/
def Core.awaits (x : Core) (dest : Option Nat) : List Nat :=
  match dest with
  | some d => if d = 0 then x.pend else x.pend ++ [d]
  | none => x.pend

theorem Core.awaits_narrow (x : Core) {i : Nat} (h : opOf i = 0x80) :
    x.awaits (some (fD i)) = if opOf i = 0x80 ∧ fD i ≠ 0 then x.pend ++ [fD i] else x.pend := by
  by_cases hd : fD i = 0 <;> simp [Core.awaits, h, hd]

theorem Core.awaits_none (x : Core) {i : Nat} (h : opOf i ≠ 0x80) :
    x.awaits none = if opOf i = 0x80 ∧ fD i ≠ 0 then x.pend ++ [fD i] else x.pend := (if_neg fun hn => h hn.1).symm

/-- Settles O19: the five instructions end at issue in the same way, and of them NARROW alone awaits a register. -/
theorem edgeInstructionsQueued : Obligations.EdgeInstructionsQueued := by
  unfold Obligations.EdgeInstructionsQueued
  intro core w s c x queued
  have hqueued : ∀ i legal uses dest, x.awaits dest = (if opOf i = 0x80 ∧ fD i ≠ 0 then x.pend ++ [fD i] else x.pend) →
      Issues s.dev c i legal uses → queued i (ok s (s.dev.issue c i legal uses (fun _ => s.dev.edgeAct c i dest))) := by
    intro i legal uses dest hpend h
    refine ⟨fun hroom => ?_, fun hfull => ?_⟩
    · have hact : s.dev.edgeAct c i dest = .done (s.dev.queueEdge c i dest) := if_neg (Nat.not_le.2 hroom)
      rw [← hpend]
      exact leadsTo.done h hact (Carried.put s c _ rfl)
    · exact leadsTo.hold h (if_pos hfull) ⟨Dev.perfCore_self s.dev _ c 1 rfl, Frame.perfCore _ s.dev _ c 1 ⟨rfl, rfl⟩, rfl⟩
  have hother : ∀ op, op < 256 → op ≠ 0x80 → x.awaits none = _ := fun op hop hne =>
    x.awaits_none (i := insn op w) (by rwa [opOf_insn hop])
  exact ⟨hqueued _ _ _ none (hother 0x62 (by decide) (by decide)), hqueued _ _ _ none (hother 0x63 (by decide) (by decide)),
    hqueued _ _ _ none (hother 0x64 (by decide) (by decide)), hqueued _ _ _ _ (x.awaits_narrow (opOf_insn (by decide) w)),
    hqueued _ _ _ none (hother 0x81 (by decide) (by decide))⟩

end Sys2Proof.Machine
end

section
/-!
PROOF. The bytes of a spill record give its panel back (O18).
-/
namespace Sys2Proof.Machine

/-! ### Lists of pieces of one length -/

theorem length_flatMap_of_length {α β : Type} {g : α → List β} {k : Nat} {xs : List α} (hk : ∀ x ∈ xs, (g x).length = k) :
    (xs.flatMap g).length = k * xs.length := by
  rw [List.length_flatMap, List.map_congr_left hk, List.map_const', List.sum_replicate, smul_eq_mul, Nat.mul_comm]

/-- Of pieces of length `k` in a row, the one at place `i`. -/
theorem take_drop_flatMap {α β : Type} {g : α → List β} {k : Nat} {xs : List α} (hk : ∀ x ∈ xs, (g x).length = k) {i : Nat} (hi : i < xs.length)
    (rest : List β) : ((xs.flatMap g ++ rest).drop (k * i)).take k = g xs[i] := by
  induction xs generalizing i with
  | nil => cases hi
  | cons x xs ih =>
    have hx : (g x).length = k := hk x List.mem_cons_self
    rw [List.flatMap_cons, List.append_assoc]
    cases i with
    | zero => simp [← hx]
    | succ i =>
      rw [Nat.mul_succ, Nat.add_comm, ← List.drop_drop, List.drop_left' hx]
      exact ih (fun y hy => hk y (List.mem_cons_of_mem x hy)) (Nat.lt_of_succ_lt_succ hi)

/-- A list over `m` rows of `k` columns, row by row, is the list over their places. -/
theorem flatMap_rows {β : Type} (g : Nat → List β) (m k : Nat) :
    (List.range m).flatMap (fun a => (List.range k).flatMap (fun i => g (k * a + i))) = (List.range (k * m)).flatMap g := by
  induction m with
  | zero => rfl
  | succ m ih => rw [List.range_succ, List.flatMap_append, ih, Nat.mul_succ, List.range_add, List.flatMap_append, List.flatMap_map]; simp

/-! ### Little-endian numbers -/

theorem leNat_append (xs ys : List Byte) : leNat (xs ++ ys) = leNat xs + 256 ^ xs.length * leNat ys := by
  induction xs with
  | nil => simp [leNat]
  | cons x xs ih =>
    rw [List.cons_append, leNat, leNat, ih, List.length_cons, Nat.pow_succ]
    ring

theorem leNat_zeros (n : Nat) : leNat (List.replicate n 0) = 0 := by
  induction n with
  | zero => rfl
  | succ n ih => rw [List.replicate_succ, leNat, ih]; rfl

theorem leNat_lt_two_pow (bs : List Byte) : leNat bs < 2 ^ (8 * bs.length) := by
  rw [Nat.pow_mul]
  exact leNat_lt bs

theorem ofBits_lt {xs : List Nat} {n : Nat} (h : ∀ i ∈ xs, i < n) : ofBits xs < 2 ^ n := by
  refine Nat.lt_pow_two_of_testBit _ fun i hi => ?_
  rw [testBit_ofBits]
  exact decide_eq_false fun hm => Nat.not_lt.2 hi (h i hm)

/-! ### The header (R124, R127) -/

/-- The EMPTY bits of a panel as a number. -/
def Panel.emptyBits (p : Panel) : Nat := ofBits ((List.range 4096).filter (fun i => (p.cell i).empty))

theorem Panel.testBit_emptyBits (p : Panel) {key : Nat} (h : key < 4096) : p.emptyBits.testBit key = (p.cell key).empty := by
  simp [Panel.emptyBits, testBit_ofBits, h]

theorem Panel.emptyBits_lt (p : Panel) : p.emptyBits < 256 ^ 512 := by
  rw [show 256 ^ 512 = 2 ^ 4096 by decide +kernel]
  exact ofBits_lt fun i hi => List.mem_range.1 (List.mem_filter.1 hi).1

/-- The bytes of a header that are not always zero. -/
def Panel.headerBytes (p : Panel) : List Byte :=
  leBytes 4 spillMagic ++ leBytes 1 (b2n p.pair) ++ leBytes 1 p.promote.toNat ++ List.replicate 10 0 ++ leBytes 512 p.emptyBits

theorem Panel.header_eq (p : Panel) : p.header = p.headerBytes ++ List.replicate 3568 0 := rfl

theorem Panel.headerBytes_length (p : Panel) : p.headerBytes.length = 528 := by
  simp only [Panel.headerBytes, List.length_append, leBytes_length, List.length_replicate]

theorem Panel.header_length (p : Panel) : p.header.length = 4096 := by
  rw [p.header_eq, List.length_append, p.headerBytes_length, List.length_replicate]

/-- A header as a number. -/
theorem Panel.leNat_headerBytes (p : Panel) :
    leNat p.headerBytes = spillMagic + 2 ^ 32 * (b2n p.pair + 2 ^ 8 * (p.promote.toNat + 2 ^ 88 * p.emptyBits)) := by
  have hpair : b2n p.pair < 256 ^ 1 := by cases p.pair <;> decide
  have hpromote : p.promote.toNat < 256 ^ 1 := Nat.lt_trans p.promote.isLt (by decide)
  simp only [Panel.headerBytes, leNat_append, leNat_zeros, List.length_append, leBytes_length, List.length_replicate,
    leNat_leBytes _ _ hpair, leNat_leBytes _ _ hpromote, leNat_leBytes _ _ p.emptyBits_lt, leNat_leBytes 4 spillMagic (by decide)]
  omega

theorem Panel.leNat_header (p : Panel) : leNat p.header = leNat p.headerBytes := by rw [p.header_eq, leNat_append, leNat_zeros, Nat.mul_zero, Nat.add_zero]

section
variable (p : Panel)

theorem Panel.header_pair : (leNat p.headerBytes).testBit 32 = p.pair := by
  rw [p.leNat_headerBytes, Nat.testBit_eq_decide_div_mod_eq]
  cases p.pair <;> simp [spillMagic, b2n] <;> omega

theorem Panel.header_promote : bits (leNat p.headerBytes) 46 40 = p.promote.toNat := by
  have hpair : b2n p.pair < 2 := by cases p.pair <;> decide
  have hpromote := p.promote.isLt
  rw [p.leNat_headerBytes, bits, Nat.shiftRight_eq_div_pow, spillMagic]
  omega

theorem Panel.header_empty {key : Nat} (h : key < 4096) : (leNat p.headerBytes).testBit (128 + key) = (p.cell key).empty := by
  have hpair : b2n p.pair < 2 := by cases p.pair <;> decide
  have hpromote := p.promote.isLt
  have hhigh : leNat p.headerBytes >>> 128 = p.emptyBits := by
    rw [p.leNat_headerBytes, Nat.shiftRight_eq_div_pow, spillMagic]
    omega
  rw [← Nat.testBit_shiftRight, hhigh, p.testBit_emptyBits h]

/-- The header of a panel whose interval is 1 to 64 is not bad. -/
theorem Panel.headerBad_header (hlo : 1 ≤ p.promote.toNat) (hhi : p.promote.toNat ≤ 64) : headerBad p.header = false := by
  have hpair : b2n p.pair < 2 := by cases p.pair <;> decide
  have hhigh : leNat p.headerBytes >>> (8 * 528) = 0 := by
    rw [← p.headerBytes_length]
    exact Nat.shiftRight_eq_zero _ _ (leNat_lt_two_pow _)
  unfold headerBad
  dsimp only
  rw [p.leNat_header, p.header_promote, hhigh, p.leNat_headerBytes]
  simp only [bits, Nat.shiftRight_eq_div_pow, Nat.testBit_eq_decide_div_mod_eq, spillMagic, Bool.or_eq_false_iff, decide_eq_false_iff_not]
  refine ⟨⟨⟨⟨⟨⟨?_, ?_⟩, ?_⟩, ?_⟩, ?_⟩, ?_⟩, ?_⟩ <;> omega

end

/-! ### The tiles of F and of C (R123) -/

/-- F of the cell at a key, or C of it (`comp`). -/
def Panel.wordAt (p : Panel) (comp : Bool) (key : Nat) : Nat := if comp then (p.cell key).c.toNat else (p.cell key).f.toNat

/-- The bytes of all the F tiles of a record, or of all its C tiles. -/
def Panel.words (p : Panel) (comp : Bool) : List Byte := (List.range 4096).flatMap (fun key => leBytes 4 (p.wordAt comp key))

theorem Panel.tiles_eq (p : Panel) (comp : Bool) : (List.range 4).flatMap (p.tileBytes comp) = p.words comp :=
  flatMap_rows (fun key => leBytes 4 (p.wordAt comp key)) 4 1024

theorem Panel.words_length (p : Panel) (comp : Bool) : (p.words comp).length = 16384 := by
  rw [Panel.words, length_flatMap_of_length fun _ _ => leBytes_length 4 _, List.length_range]

theorem Panel.wordAt_lt (p : Panel) (comp : Bool) (key : Nat) : p.wordAt comp key < 256 ^ 4 := by
  unfold Panel.wordAt
  split
  · exact (p.cell key).c.isLt
  · exact (p.cell key).f.isLt

/-- The word of a cell, read from its place. -/
theorem Panel.leNat_words (p : Panel) (comp : Bool) {key : Nat} (h : key < 4096) (rest : List Byte) :
    leNat (((p.words comp ++ rest).drop (4 * key)).take 4) = p.wordAt comp key := by
  rw [Panel.words, take_drop_flatMap (fun _ _ => leBytes_length 4 _) (by simpa using h), List.getElem_range, leNat_leBytes 4 _ (p.wordAt_lt _ _)]

/-! ### The record -/

theorem Panel.record_eq (p : Panel) : p.record = p.header ++ (p.words false ++ if p.pair then p.words true else []) := by
  rw [Panel.record, p.tiles_eq, p.tiles_eq, List.append_assoc]

theorem Panel.record_length (p : Panel) : p.record.length = tileSize * recordTiles p.pair := by
  rw [p.record_eq, List.length_append, List.length_append, p.header_length, p.words_length]
  cases p.pair
  · rfl
  · simp only [if_true, p.words_length]
    rfl

theorem Panel.take_record_header (p : Panel) : p.record.take tileSize = p.header := by
  rw [p.record_eq]
  exact List.take_left' p.header_length

theorem Panel.take_record_headerBytes (p : Panel) : p.record.take 528 = p.headerBytes := by
  rw [p.record_eq, p.header_eq, List.append_assoc, List.take_left' p.headerBytes_length]

theorem Panel.record_f (p : Panel) {key : Nat} (h : key < 4096) : leNat ((p.record.drop (4096 + 4 * key)).take 4) = (p.cell key).f.toNat := by
  rw [p.record_eq, ← List.drop_drop, List.drop_left' p.header_length]
  exact p.leNat_words false h _

theorem Panel.record_c (p : Panel) (hp : p.pair = true) {key : Nat} (h : key < 4096) :
    leNat ((p.record.drop (20480 + 4 * key)).take 4) = (p.cell key).c.toNat := by
  rw [p.record_eq, if_pos hp, show 20480 + 4 * key = 4096 + (16384 + 4 * key) by omega, ← List.drop_drop, List.drop_left' p.header_length,
    ← List.drop_drop, List.drop_left' (p.words_length false), ← List.append_nil (p.words true)]
  exact p.leNat_words true h []

/-- The cell that a record gives back at a key. -/
theorem Panel.cell_ofRecord (bs : List Byte) {key : Nat} (h : key < 4096) : (Panel.ofRecord bs).cell key =
    { f := BitVec.ofNat 32 (leNat ((bs.drop (4096 + 4 * key)).take 4))
      c := BitVec.ofNat 32 (if (leNat (bs.take 528)).testBit 32 then leNat ((bs.drop (20480 + 4 * key)).take 4) else 0)
      empty := (leNat (bs.take 528)).testBit (128 + key), run := {} } := by
  simp only [Panel.ofRecord, Panel.cell, SMap.read_ofList, List.length_map, List.length_range, Nat.zero_le, Nat.zero_add, true_and, h, if_true, Nat.sub_zero]
  rw [List.getD_eq_getElem _ _ (by simpa using h)]
  simp

/-- Settles O18: each part of the panel is read back from the bytes its record keeps it in. -/
theorem spillRecordGivesPanelBack : Obligations.SpillRecordGivesPanelBack := by
  unfold Obligations.SpillRecordGivesPanelBack
  intro p hlo hhi q
  have hpair : (leNat (p.record.take 528)).testBit 32 = p.pair := by rw [p.take_record_headerBytes, p.header_pair]
  refine ⟨?_, p.record_length, ?_, hpair, fun key hkey => ?_⟩
  · rw [p.take_record_header, p.headerBad_header hlo hhi]
  · change BitVec.ofNat 7 (bits (leNat (p.record.take 528)) 46 40) = p.promote
    rw [p.take_record_headerBytes, p.header_promote, BitVec.ofNat_toNat, BitVec.setWidth_eq]
  · rw [Panel.cell_ofRecord _ hkey, hpair, p.record_f hkey, p.take_record_headerBytes, p.header_empty hkey]
    refine ⟨by simp, rfl, ?_, rfl⟩
    cases hp : p.pair
    · rfl
    · simp [p.record_c hp hkey]

end Sys2Proof.Machine
end

section
/-!
PROOF. What the use of tiles leaves alone (R396, R446 to R448).
-/
namespace Sys2Proof.Machine

/-- What the use of tiles may change: registers, partitions, fabric ports and the state of the fault logs; no core and no byte of memory. -/
def tileUse : Touches where
  reg := fun _ _ => True
  part := fun _ => True
  fab := fun _ => True
  ctl := True

theorem Wired.tileUse {s t : Dev} (h : Wired s t) : Frame tileUse s t :=
  h.frame.weaken (fun _ _ _ => trivial) (fun _ => id) (fun _ _ => trivial) (fun _ _ => trivial) (fun _ => id) id id (fun _ => trivial) id id

theorem Frame.setCtl {m : Touches} (s : Dev) (x : Control) (h : m.ctl) : Frame m s { s with ctl := x } :=
  ⟨fun _ _ _ _ => rfl, fun _ _ => rfl, fun _ _ => rfl, fun _ _ => rfl, fun _ _ => rfl, fun _ => rfl, fun _ => rfl, fun hn => absurd h hn,
    fun _ => rfl, fun _ => rfl, rfl⟩

theorem Frame.logRecord (s : Dev) (d : Nat) (r : LogRec) : Frame tileUse s (s.logRecord d r) := by
  unfold Dev.logRecord
  dsimp only
  split
  · exact Frame.raise _ s d _
  · exact ((Frame.each _ s _ _ fun _ _ t => Frame.setReg _ t _ _ _ trivial).trans (Frame.setCtl _ _ trivial)).trans (Frame.setFld _ _ _ _ _ trivial)

theorem Frame.hbmErrors (s : Dev) (tiles : List Nat) : Frame tileUse s (s.hbmErrors tiles) :=
  Frame.each _ s _ _ fun _ _ t => (Frame.raise _ t _ _).trans (Frame.logRecord _ _ _)

theorem Frame.useFailed (s : Dev) (p die code : Nat) (core : Option Nat) (fpc a : Nat) : Frame tileUse s (s.useFailed p die code core fpc a) :=
  (Frame.hbmErrors s _).trans (((Frame.raise _ _ _ _).trans (Frame.logRecord _ _ _)).trans (Wired.unclean_step _ p code).tileUse)

theorem Frame.useRecord (s : Dev) (p a : Nat) : Frame tileUse s (s.useRecord p a) := by
  unfold Dev.useRecord
  dsimp only
  split
  · exact Frame.refl _ s
  · refine (Frame.setPart _ s p _ trivial).trans (Frame.ite _ _ (fun _ => ?_) (fun _ => Frame.refl _ _))
    exact ((Wired.poison _ p).trans (Wired.sendMessages 8 _ _)).tileUse

theorem Frame.useTile (s : Dev) (p die : Nat) (core : Option Nat) (fpc a : Nat) : Frame tileUse s (s.useTile p die core fpc a) := by
  unfold Dev.useTile
  dsimp only
  split
  · exact Frame.useRecord s p a
  · exact (Frame.useRecord s p a).trans (Frame.useFailed _ p die _ core fpc a)

theorem Frame.useRange (s : Dev) (p die : Nat) (core : Option Nat) (fpc a n : Nat) : Frame tileUse s (s.useRange p die core fpc a n) := by
  unfold Dev.useRange
  split
  · exact Frame.refl _ s
  · exact Frame.each _ s _ _ fun _ _ t => Frame.useTile t p die core fpc _

end Sys2Proof.Machine
end

section
/-!
PROOF. Dispatch of the edge queue (R268).
-/
namespace Sys2Proof.Machine

/-! ### The head of the edge queue dispatches (R268) -/

/-- The flight of an edge operation that writes `dest` at its completion. -/
def EdgeOp.flight (q : EdgeOp) (dest : Option (Nat × Word)) : EdgeFlight where
  order := q.order
  panel := if edgeUsesPanel q.word then some (panelOf q.word) else none
  conv := edgeConverts q.word
  dest := dest
  resume := decide (opOf q.word = 0x63)

/-- A core with one more edge operation in flight. -/
def Core.flown (x : Core) (f : EdgeFlight) : Core := { x with edgeFlights := x.edgeFlights ++ [f] }

/-- The module while a command is carried out in which the reads of the tiles at `ue` report an uncorrectable error (R448). -/
def Dev.reading (s : Dev) (ue : List (BitVec 52)) : Dev := { s with ue := ue.map (fun a => a.toNat) }

/-- The module whose edge queue of core `c` has lost its head and holds `qs`. -/
def Dev.dequeued (s : Dev) (c : Nat) (qs : List EdgeOp) : Dev := s.setCore c { s.core c with edgeQ := qs }

@[simp] theorem Dev.dequeued_mem (s : Dev) (c : Nat) (qs : List EdgeOp) : (s.dequeued c qs).mem = s.mem := rfl

@[simp] theorem Dev.dequeued_recordLen (s : Dev) (c : Nat) (qs : List EdgeOp) (j : Nat) (q : EdgeOp) :
    (s.dequeued c qs).recordLen j q = s.recordLen j q := rfl

@[simp] theorem Dev.dequeued_core (s : Dev) (c : Nat) (qs : List EdgeOp) :
    (s.dequeued c qs).core c = { s.core c with edgeQ := qs } := Dev.setCore_self _ _ _

theorem Dev.dequeued_core_ne (s : Dev) {c j : Nat} (h : j ≠ c) (qs : List EdgeOp) :
    (s.dequeued c qs).core j = s.core j := Dev.setCore_ne _ _ _ _ h

/-- The module with one more edge operation of core `c` in flight. -/
def Dev.dispatched (s : Dev) (c : Nat) (f : EdgeFlight) : Dev := s.setCore c ((s.core c).flown f)

@[simp] theorem Dev.dispatched_core (s : Dev) (c : Nat) (f : EdgeFlight) : (s.dispatched c f).core c = (s.core c).flown f := Dev.setCore_self _ _ _

/-- What lets the head `q` of an edge queue dispatch: neither the converter nor its panel nor a bridge that is down keeps it. -/
structure DispatchFree (s : Dev) (c : Nat) (q : EdgeOp) (qs : List EdgeOp) : Prop where
  queue : (s.core c).edgeQ = q :: qs
  converter : (s.core c).edgeBusy q = false
  panel : (s.core c).edgeHeld q = false
  bridges : s.ctl.bridgesDown = []

/-- Carries an edge operation out whole at its dispatch, in the module that its queue has left. -/
def Dev.edgeRunWhole (s : Dev) (c : Nat) (q : EdgeOp) : Dev := (s.edgeRun c q).1.dispatched c (q.flight (s.edgeRun c q).2)

theorem Dev.edgeDispatch_free {s : Dev} {c : Nat} {q : EdgeOp} {qs : List EdgeOp} (h : DispatchFree s c q qs) : s.edgeDispatch c = s.edgeStart c q := by
  have hcut : s.edgeCut c q = false := by simp [Dev.edgeCut, h.bridges]
  simp [Dev.edgeDispatch, h.queue, h.converter, h.panel, hcut]

/-- The head of the edge queue that meets no stopping condition is carried out and is in flight. -/
theorem edgeQueueDispatch_eq {core : CoreId} {q : EdgeOp} {qs : List EdgeOp} {s : State} (h : DispatchFree s.dev core.toNat q qs)
    (ue : List (BitVec 52)) (hfault : ((s.dev.reading ue).dequeued core.toNat qs).edgeFault core.toNat q = none) :
    exec (.edgeQueueDispatch core ue) s =
      ok s { ((s.dev.reading ue).dequeued core.toNat qs).edgeRunWhole core.toNat q with ue := [] } := by
  have hfree : DispatchFree (s.dev.reading ue) core.toNat q qs := ⟨h.queue, h.converter, h.panel, h.bridges⟩
  have hqueue : (s.dev.reading ue).setCore core.toNat { (s.dev.reading ue).core core.toNat with edgeQ := ((s.dev.reading ue).core core.toNat).edgeQ.drop 1 } =
      (s.dev.reading ue).dequeued core.toNat qs := by rw [hfree.queue]; rfl
  refine congrArg (fun d : Dev => ok s { d with ue := [] }) ((Dev.edgeDispatch_free hfree).trans ?_)
  unfold Dev.edgeStart
  dsimp only
  rw [hqueue, hfault]
  rfl

end Sys2Proof.Machine
end

section
/-!
PROOF. A resume at its dispatch (R125, R128).
-/
namespace Sys2Proof.Machine

/-! ### Panels of a core -/

theorem Core.setPanel_panel_self (x : Core) (n : Nat) (p : Panel) : (x.setPanel n p).panel n = p := SMap.read_write_self _ _ _ _

theorem Core.setPanel_panel_ne (x : Core) {n m : Nat} (p : Panel) (h : m ≠ n) : (x.setPanel n p).panel m = x.panel m :=
  SMap.read_write_ne _ _ _ _ _ _ h

/-! ### Records in a core's store (R123) -/

theorem recordFits_iff {off n : Nat} : recordFits off n = true ↔ off % tileSize = 0 ∧ off + tileSize * n ≤ payloadEnd := by simp [recordFits]

/-- Where a whole record fits, its header does. -/
theorem recordFits_header {off : Nat} {pair : Bool} (h : recordFits off (recordTiles pair) = true) : recordFits off 1 = true := by
  obtain ⟨halign, hend⟩ := recordFits_iff.1 h
  refine recordFits_iff.2 ⟨halign, Nat.le_trans (Nat.add_le_add_left (Nat.mul_le_mul_left _ ?_) _) hend⟩
  cases pair <;> decide

/-! ### A resume (R126, R127) -/

section
variable {s : Dev} {c : Nat} {q : EdgeOp}

theorem Dev.resumeFault_none (hfits : recordFits q.a (s.recordLen c q) = true) (hgood : headerBad (s.tile (strideAddr c q.a)) = false) :
    s.resumeFault c q = none := by
  simp [Dev.resumeFault, recordFits_header hfits, hfits, hgood]

/-- The panel that a resume gives its core: that of the record at its offset. -/
def Dev.resumePanel (s : Dev) (c : Nat) (q : EdgeOp) : Panel :=
  s.resumed (strideAddr c q.a) (Memory.bytes s.mem (strideAddr c q.a) (tileSize * s.recordLen c q))

/-- A resume replaces its panel; beside its core, it only uses the tiles of its record. -/
theorem Dev.edgeRunWhole_resume (hop : opOf q.word = 0x63) :
    Frame { tileUse with core := fun j => j = c } s (s.edgeRunWhole c q) ∧
      ∃ f, (s.edgeRunWhole c q).core c = ((s.core c).setPanel (panelOf q.word) (s.resumePanel c q)).flown f := by
  have hrun : s.edgeRun c q = (s.resume c q, none) := by simp only [Dev.edgeRun, hop]
  have huse : Frame tileUse s (s.useTiles c q (s.recordLen c q)) := Frame.useRange s _ _ _ _ _ _
  unfold Dev.edgeRunWhole
  rw [hrun, Dev.dispatched_core]
  constructor
  · have huse' : Frame { tileUse with core := fun j => j = c } s (s.useTiles c q (s.recordLen c q)) :=
      huse.weaken (fun _ _ => id) (fun _ => False.elim) (fun _ => id) (fun _ => id) (fun _ => id) id id id id id
    exact (huse'.trans (Frame.setCore _ _ c _ rfl)).trans (Frame.setCore _ _ c _ rfl)
  · refine ⟨_, congrArg (fun y : Core => y.flown _) ?_⟩
    rw [← huse.core c id]
    exact Dev.setCore_self _ _ _

end

/-- A resume that fits and whose header is not bad gives its panel what the record holds, and changes no other panel, core or byte. -/
theorem edgeQueueDispatch_resume {core : CoreId} {q : EdgeOp} {qs : List EdgeOp} {s : State} (h : DispatchFree s.dev core.toNat q qs)
    (ue : List (BitVec 52)) (hop : opOf q.word = 0x63) (hfits : recordFits q.a (s.dev.recordLen core.toNat q) = true)
    (hgood : headerBad (Memory.bytes s.dev.mem (strideAddr core.toNat q.a) tileSize) = false) :
    leadsTo (exec (.edgeQueueDispatch core ue) s) (fun t =>
      (t.dev.core core.toNat).panel (panelOf q.word) = (s.dev.dequeued core.toNat qs).resumePanel core.toNat q ∧
      (∀ m, m ≠ panelOf q.word → (t.dev.core core.toNat).panel m = (s.dev.core core.toNat).panel m) ∧ (t.dev.core core.toNat).edgeQ = qs ∧
      (∀ b, Memory.byte t.dev.mem b = Memory.byte s.dev.mem b) ∧ (∀ j, j ≠ core.toNat → t.dev.core j = s.dev.core j) ∧ t.flash = s.flash) := by
  have hfault : ((s.dev.reading ue).dequeued core.toNat qs).edgeFault core.toNat q = none := by
    simp only [Dev.edgeFault, hop]
    exact Dev.resumeFault_none hfits hgood
  obtain ⟨hframe, f, hcore⟩ := ((s.dev.reading ue).dequeued core.toNat qs).edgeRunWhole_resume (c := core.toNat) hop
  rw [Dev.dequeued_core] at hcore
  rw [edgeQueueDispatch_eq h ue hfault]
  refine ⟨_, rfl, ?_, fun m hm => ?_, congrArg Core.edgeQ hcore, fun b => hframe.byte b id, fun j hj => ?_, rfl⟩
  · exact (congrArg (fun y : Core => y.panel _) hcore).trans (Core.setPanel_panel_self _ _ _)
  · exact (congrArg (fun y : Core => y.panel m) hcore).trans (Core.setPanel_panel_ne _ _ hm)
  · exact (hframe.core j hj).trans (Dev.dequeued_core_ne _ hj qs)

end Sys2Proof.Machine
end

section
/-!
PROOF. The state that refutes O20.
-/
namespace Sys2Proof.Machine

/-! ### What a record in memory reads as -/

/-- Bytes inside a range that has been read. -/
theorem Memory.bytes_sub (m : Memory) (a : Nat) {n i k : Nat} (h : i + k ≤ n) : Memory.bytes m (a + i) k = ((Memory.bytes m a n).drop i).take k := by
  obtain ⟨r, rfl⟩ := Nat.exists_eq_add_of_le h
  rw [Nat.add_assoc, Memory.bytes_append, List.drop_left' (Memory.bytes_length m a i), Memory.bytes_append, List.take_left' (Memory.bytes_length _ _ _)]

section
variable {m : Memory} {a : Nat} {p : Panel} (h : Memory.bytes m a (tileSize * recordTiles p.pair) = p.record)
include h

/-- The pair bit of a record's header is the mode of its panel (R124). -/
theorem Panel.pair_of_bytes : (Memory.num m (a + 4) 1).testBit 0 = p.pair := by
  have hbyte : (p.record.drop 4).take 1 = leBytes 1 (b2n p.pair) := by
    simp only [Panel.record, Panel.header, List.append_assoc]
    rw [List.drop_left' (leBytes_length 4 _), List.take_left' (leBytes_length 1 _)]
  have hlen : 4 + 1 ≤ tileSize * recordTiles p.pair := by cases p.pair <;> decide
  rw [Memory.num, Memory.bytes_sub m a hlen, h, hbyte]
  cases p.pair <;> rfl

/-- The first tile of a record is its header (R123). -/
theorem Panel.header_of_bytes : Memory.bytes m a tileSize = p.header := by
  have hlen : 0 + tileSize ≤ tileSize * recordTiles p.pair := by cases p.pair <;> decide
  have hsub := Memory.bytes_sub m a hlen
  rw [h] at hsub
  exact hsub.trans p.take_record_header

end

/-- Which panel a record at an address was spilled from, where a core's spill of it there is the first in the core table. -/
theorem Dev.spilledAs_head {s : Dev} {k : Nat} {x : Core} {xs : SMap Core} {a : Nat} {p : Panel} {ps : List (Nat × Panel)}
    (hcores : s.cores = (k, x) :: xs) (hspilled : x.spilled = (a, p) :: ps) : s.spilledAs a p.record = some p := by
  simp [Dev.spilledAs, hcores, hspilled]

/-! ### The counterexample -/

/-- A resume of the record at offset 0 into panel 0. -/
def strayResume : EdgeOp := { order := 0, pc := 0, word := insn 0x63 0, d := 0, a := 0, b := 0, c := 0, x := 0 }

/-- A module whose core table is out of order: core 1 precedes core 0, whose edge queue holds a resume of the record of an empty panel. Both cores have
spilled that record at its address, and the two panels differ only in whether the AMULs before a resume are known. -/
def strayDev : Dev := { Dev.reset with
  mem := Memory.put [] (strideAddr 0 0) ({} : Panel).record
  cores := [(1, { spilled := [(strideAddr 0 0, {})] }), (0, { edgeQ := [strayResume], spilled := [(strideAddr 0 0, { foreign := true })] })] }

theorem strayDev_record : Memory.bytes strayDev.mem (strideAddr 0 0) (tileSize * recordTiles false) = ({} : Panel).record :=
  ({} : Panel).record_length ▸ Memory.bytes_put [] (strideAddr 0 0) ({} : Panel).record

theorem strayDev_recordLen : strayDev.recordLen 0 strayResume = recordTiles false :=
  congrArg recordTiles (Panel.pair_of_bytes (p := {}) strayDev_record)

theorem strayDev_free : DispatchFree strayDev 0 strayResume [] := ⟨rfl, by decide, by decide, rfl⟩

theorem strayDev_spilledAs : strayDev.spilledAs (strideAddr 0 0) ({} : Panel).record = some {} := Dev.spilledAs_head rfl rfl

/-- The update of core 0 at the dispatch puts its entry in its place in the table, ahead of core 1. -/
theorem strayDev_dequeued_spilledAs :
    (strayDev.dequeued 0 []).spilledAs (strideAddr 0 0) ({} : Panel).record = some { foreign := true } :=
  Dev.spilledAs_head (p := { foreign := true }) rfl rfl

theorem strayDev_read : Memory.bytes strayDev.mem (strideAddr 0 0) (tileSize * strayDev.recordLen 0 strayResume) = ({} : Panel).record := by
  rw [strayDev_recordLen, strayDev_record]

theorem strayDev_resumePanel : ((strayDev.dequeued 0 []).resumePanel 0 strayResume).foreign = true := by
  rw [Dev.resumePanel, Dev.dequeued_mem, Dev.dequeued_recordLen, show strayResume.a = 0 from rfl, strayDev_read, Dev.resumed,
    strayDev_dequeued_spilledAs]

/-- Refutes O20: the statement looks the record up in the core table as it is before the dispatch, the resume in the table after its queue has been
written, which moves the core's entry where the table is not in canonical form (keys rising); the two lookups find different panels. -/
theorem not_spillsResumesAndOutputs : ¬ Obligations.SpillsResumesAndOutputs := by
  unfold Obligations.SpillsResumesAndOutputs
  intro h
  let s : State := { State.reset with dev := strayDev }
  have hop : opOf strayResume.word = 0x63 := by decide
  have hfits : recordFits strayResume.a (strayDev.recordLen 0 strayResume) = true := by
    rw [strayDev_recordLen]
    decide
  have hgood : headerBad (Memory.bytes strayDev.mem (strideAddr 0 0) tileSize) = false := by
    rw [Panel.header_of_bytes (p := {}) strayDev_record]
    exact Panel.headerBad_header {} (by decide) (by decide)
  obtain ⟨-, hresume, -⟩ := h 0 strayResume [] [] s strayDev_free.queue strayDev_free.converter strayDev_free.panel strayDev_free.bridges
  obtain ⟨t, ht, ⟨-, -, -, -, hstated, -⟩, -⟩ := hresume hop hfits hgood
  obtain ⟨u, hu, hpanel, -⟩ := edgeQueueDispatch_resume (s := s) (core := 0) strayDev_free [] hop hfits hgood
  obtain rfl : t = u := by
    injection ht.symm.trans hu
  have hfound := (congrArg Panel.foreign hpanel).trans strayDev_resumePanel
  have hspilled := (congrArg (strayDev.spilledAs (strideAddr 0 0)) strayDev_read).trans strayDev_spilledAs
  split at hstated
  · rename_i p0 hp0
    cases hspilled.symm.trans hp0
    cases hfound.symm.trans hstated
  · rename_i hp0
    cases hspilled.symm.trans hp0

end Sys2Proof.Machine
end

section
/-!
PROOF. Completion of an edge operation, and the reset of the gill buffer (O21).
-/
namespace Sys2Proof.Machine

/-! ### A scalar register after a write (R229) -/

section
variable (x : Core)

theorem Core.setS_s_self {i : Nat} (h : i ≠ 0) (v : Nat) : (x.setS i v).s i = v % 2 ^ 64 := by
  simp [Core.setS, Core.s, h, SMap.read_write_self, BitVec.toNat_ofNat]

theorem Core.setS_s_ne {i j : Nat} (h : j ≠ i) (v : Nat) : (x.setS i v).s j = x.s j := by
  unfold Core.setS
  split
  · rfl
  · simp [Core.s, SMap.read_write_ne _ _ _ _ _ _ h]

@[simp] theorem Core.setS_pend (i v : Nat) : (x.setS i v).pend = x.pend := by
  unfold Core.setS
  split <;> rfl

@[simp] theorem Core.setS_edgeFlights (i v : Nat) : (x.setS i v).edgeFlights = x.edgeFlights := by
  unfold Core.setS
  split <;> rfl

end

/-! ### An edge operation leaves the flight (R164, R248) -/

/-- The core after edge operation `f` has left the flight and written the register it returns a segment in. -/
def Core.edgeLanded (x : Core) (f : EdgeFlight) : Core :=
  match f.dest with
  | some (d, v) => ({ x with edgeFlights := x.edgeFlights.erase f, pend := x.pend.erase d } : Core).setS d v.toNat
  | none => { x with edgeFlights := x.edgeFlights.erase f }

section
variable (x : Core) (f : EdgeFlight)

@[simp] theorem Core.edgeLanded_edgeFlights : (x.edgeLanded f).edgeFlights = x.edgeFlights.erase f := by
  unfold Core.edgeLanded
  split
  · exact Core.setS_edgeFlights _ _ _
  · rfl

theorem Core.edgeLanded_dest {f : EdgeFlight} {r : Nat} {v : Word} (hdest : f.dest = some (r, v)) (hr : r ≠ 0) :
    (x.edgeLanded f).s r = v.toNat ∧ (x.edgeLanded f).pend = x.pend.erase r := by
  simp only [Core.edgeLanded, hdest]
  exact ⟨(Core.setS_s_self _ hr _).trans (Nat.mod_eq_of_lt v.isLt), Core.setS_pend _ _ _⟩

theorem Core.edgeLanded_s_ne {f : EdgeFlight} {r : Nat} (hr : f.dest.map (fun d => d.1) ≠ some r) : (x.edgeLanded f).s r = x.s r := by
  unfold Core.edgeLanded
  split
  case h_1 d v hdest =>
    have hne : r ≠ d := fun e => hr (by rw [hdest, e]; rfl)
    exact Core.setS_s_ne _ hne _
  case h_2 => rfl

end

/-- The module after edge operation `f` of core `c` has left the flight, a resume counted. -/
def Dev.edgeLanded (s : Dev) (c : Nat) (f : EdgeFlight) : Dev := (s.setCore c ((s.core c).edgeLanded f)).perfCore .ACC_PC_RESUME c (b2n f.resume)

section
variable (s : Dev) (c : Nat) (f : EdgeFlight)

@[simp] theorem Dev.edgeLanded_core : (s.edgeLanded c f).core c = (s.core c).edgeLanded f :=
  (Dev.perfCore_core _ _ _ _ c).trans (Dev.setCore_self _ _ _)

theorem Dev.edgeLanded_resumes : (s.edgeLanded c f).reg .ACC_PC_RESUME c % 2 ^ 48 = (s.reg .ACC_PC_RESUME c + b2n f.resume) % 2 ^ 48 :=
  Dev.perfCore_self _ _ _ _ rfl

theorem Frame.edgeLanded (m : Touches) (hcore : m.core c) (hreg : m.reg .ACC_PC_RESUME c) : Frame m s (s.edgeLanded c f) :=
  (Frame.setCore m s c _ hcore).trans (Frame.perfCore m _ _ c _ hreg)

theorem Dev.edgeLanded_fld {g : Fld} (i : Nat) (hcount : g.reg.counting = false) (hreg : g.reg ≠ .ACC_PC_RESUME) :
    (s.edgeLanded c f).fld g i = s.fld g i :=
  Dev.fld_congr g i (Dev.perfCore_reg _ _ _ _ _ _ hcount hreg)

theorem Dev.edgeLanded_rstpend : (s.edgeLanded c f).flag Fld.EDGE_STAT_RSTPEND c = s.flag Fld.EDGE_STAT_RSTPEND c :=
  congrArg (fun n => decide (n = 1)) (s.edgeLanded_fld c f c rfl (by decide))

theorem Dev.edgeLanded_corePart (j : Nat) : (s.edgeLanded c f).corePart j = s.corePart j :=
  congrArg (fun n => layoutPart n (coreDie j)) (s.edgeLanded_fld c f 0 rfl (by decide))

@[simp] theorem Dev.edgeLanded_part (p : Nat) : (s.edgeLanded c f).part p = s.part p := Dev.perfCore_part _ _ _ _ p

end

/-! ### The reset of the gill buffer (R151, R165) -/

section
variable {s : Dev} {c : Nat}

/-- The module after a pending reset of the gill buffer of core `c` has taken effect. -/
def Dev.gillCleared (s : Dev) (c : Nat) : Dev := (s.setFld Fld.EDGE_STAT_RSTPEND c 0).setFld Fld.GILL_STAT_FILL c 0

theorem Dev.gillCleared_fill (s : Dev) (c : Nat) : (s.gillCleared c).fld Fld.GILL_STAT_FILL c = 0 := Dev.fld_setFld_self _ _ _ _ (by decide)

theorem Dev.gillCleared_rstpend (s : Dev) (c : Nat) : (s.gillCleared c).flag Fld.EDGE_STAT_RSTPEND c = false := by
  rw [Dev.flag, Dev.gillCleared, Dev.fld_setFld_kind _ _ _ _ _ _ (by decide), Dev.fld_setFld_self _ _ _ _ (by decide)]
  rfl

theorem Frame.gillCleared (m : Touches) (s : Dev) (c : Nat) (hedge : m.reg .EDGE_STAT c) (hgill : m.reg .GILL_STAT c) : Frame m s (s.gillCleared c) :=
  (Frame.setFld m s _ c _ hedge).trans (Frame.setFld m _ _ c _ hgill)

theorem Dev.applyGillReset_idle (h : s.flag Fld.EDGE_STAT_RSTPEND c = false) : s.applyGillReset c = s := by
  simp [Dev.applyGillReset, h]

theorem Dev.applyGillReset_pending (h : s.flag Fld.EDGE_STAT_RSTPEND c = true) (hconv : (s.core c).converting = false) :
    s.applyGillReset c = s.gillCleared c := by
  simp [Dev.applyGillReset, h, hconv, Dev.gillCleared]

@[simp] theorem Dev.applyGillReset_part (s : Dev) (c p : Nat) : (s.applyGillReset c).part p = s.part p := by
  unfold Dev.applyGillReset
  split <;> rfl

theorem Dev.gillReset_converting (h : (s.core c).converting = true) : s.gillReset c = s.setFld Fld.EDGE_STAT_RSTPEND c 1 := if_pos h

theorem Dev.gillReset_idle (h : (s.core c).converting = false) : s.gillReset c = s.setFld Fld.GILL_STAT_FILL c 0 := if_neg (by simp [h])

theorem Frame.gillReset (m : Touches) (s : Dev) (c : Nat) (hedge : m.reg .EDGE_STAT c) (hgill : m.reg .GILL_STAT c) : Frame m s (s.gillReset c) :=
  Frame.ite m _ (fun _ => Frame.setFld m s _ c _ hedge) (fun _ => Frame.setFld m s _ c _ hgill)

/-! ### Commands that finish an edge operation, and a host's access to a core -/

/-- An edge operation that finishes leaves the flight, and then a pending reset may take effect; while no loss of its partition has been
non-finite nothing else happens. -/
theorem Dev.finishEdge_eq (f : EdgeFlight) (hrun : (s.part (s.corePart c)).nanStop = false) :
    s.finishEdge c f = (s.edgeLanded c f).applyGillReset c := by
  have hsettle : s.finishEdge c f = ((s.edgeLanded c f).applyGillReset c).settle ((s.edgeLanded c f).corePart c) := by
    cases hdest : f.dest <;> simp only [Dev.finishEdge, Dev.edgeLanded, Core.edgeLanded, hdest]
  rw [hsettle]
  exact Dev.settle_eq_self (by simpa [Dev.edgeLanded_corePart] using hrun)

/-- The oldest edge operation in flight is the one that finishes (R164). -/
theorem Dev.edgeComplete_head {f : EdgeFlight} {fs : List EdgeFlight} (h : (s.core c).edgeFlights = f :: fs) :
    s.edgeComplete c = s.finishEdge c f := by
  simp only [Dev.edgeComplete, h]

theorem Dev.gillApply_pending {f : EdgeFlight} (hpend : s.flag Fld.EDGE_STAT_RSTPEND c = true)
    (hf : (s.core c).edgeFlights.find? (fun f => f.conv) = some f) : s.gillApply c = s.finishEdge c f := by
  simp only [Dev.gillApply, hpend, if_true, hf]

theorem Dev.coreGate_eq {port : Nat} (h : s.servesCore port c) (g : Dev → Dev) : s.coreGate port c g = g s := by
  obtain ⟨⟨hlink, hrole, hstage⟩, hserved, hreach⟩ := h
  simp [Dev.coreGate, Dev.hostGate, Dev.hostGateIn, hlink, hrole, hstage, hserved, hreach]

end

/-! ### The commands of completion and of the reset -/

section
variable {core : CoreId} {s : State} {f : EdgeFlight}

/-- The oldest edge operation in flight lands, and with no reset pending nothing more. -/
theorem edgeOperationComplete_head {fs : List EdgeFlight} (hf : (s.dev.core core.toNat).edgeFlights = f :: fs)
    (hrun : (s.dev.part (s.dev.corePart core.toNat)).nanStop = false) (hpend : s.dev.flag Fld.EDGE_STAT_RSTPEND core.toNat = false) :
    exec (.edgeOperationComplete core) s = ok s (s.dev.edgeLanded core.toNat f) := by
  refine congrArg (ok s) ?_
  rw [Dev.edgeComplete_head hf, Dev.finishEdge_eq f hrun, Dev.applyGillReset_idle ((Dev.edgeLanded_rstpend _ _ _).trans hpend)]

/-- The last conversion in flight finishes, and the pending reset takes effect. -/
theorem gillResetApply_last (hpend : s.dev.flag Fld.EDGE_STAT_RSTPEND core.toNat = true)
    (hf : (s.dev.core core.toNat).edgeFlights.find? (fun f => f.conv) = some f)
    (hlast : ∀ g ∈ (s.dev.core core.toNat).edgeFlights.erase f, g.conv = false)
    (hrun : (s.dev.part (s.dev.corePart core.toNat)).nanStop = false) :
    exec (.gillResetApply core) s = ok s ((s.dev.edgeLanded core.toNat f).gillCleared core.toNat) := by
  have hidle : ((s.dev.edgeLanded core.toNat f).core core.toNat).converting = false := by
    rw [Dev.edgeLanded_core, Core.converting, Core.edgeLanded_edgeFlights]
    exact List.any_eq_false.2 fun g hg => by simp [hlast g hg]
  refine congrArg (ok s) ?_
  rw [Dev.gillApply_pending hpend hf, Dev.finishEdge_eq f hrun, Dev.applyGillReset_pending ((Dev.edgeLanded_rstpend _ _ _).trans hpend) hidle]

theorem gillResetWrite_served {port : HostPort} (h : s.dev.servesCore port.val core.toNat) :
    exec (.gillResetWrite port core) s = ok s (s.dev.gillReset core.toNat) := congrArg (ok s) (Dev.coreGate_eq h _)

end

/-- Settles O21: the dispatch is the run of the operation in the module its queue has left, a completion lands the operation, and the reset of the
gill buffer goes by whether a conversion is in flight. -/
theorem edgeQueueCompletions : Obligations.EdgeQueueCompletions := by
  unfold Obligations.EdgeQueueCompletions
  intro core s c x
  refine ⟨?_, fun f fs hf hrun hpend => ?_, fun f hpend hf hlast hrun => ?_, fun port hserves => ?_⟩
  · intro q qs ue hq hconv hheld hbridges d0 hfault
    have hd0 : d0 = (s.dev.reading ue).dequeued c qs := by
      simp only [d0, hq]
      rfl
    rw [hd0] at hfault ⊢
    exact ⟨_, edgeQueueDispatch_eq ⟨hq, hconv, hheld, hbridges⟩ ue hfault, rfl, rfl⟩
  · refine ⟨_, edgeOperationComplete_head hf hrun hpend, ?_⟩
    dsimp only
    rw [Dev.edgeLanded_core]
    refine ⟨?_, fun r v => Core.edgeLanded_dest _, fun r => Core.edgeLanded_s_ne _, Dev.edgeLanded_resumes _ _ _,
      Frame.edgeLanded _ _ _ _ rfl ⟨rfl, rfl⟩, rfl⟩
    rw [Core.edgeLanded_edgeFlights, hf, List.erase_cons_head]
  · have hcore : ((s.dev.edgeLanded c f).gillCleared c).core c = x.edgeLanded f := Dev.edgeLanded_core _ _ _
    refine ⟨_, gillResetApply_last hpend hf hlast hrun, Dev.gillCleared_fill _ _, Dev.gillCleared_rstpend _ _, ?_, ?_, rfl⟩
    · exact (congrArg Core.edgeFlights hcore).trans (x.edgeLanded_edgeFlights f)
    · exact Frame.trans (Frame.edgeLanded _ c f _ rfl ⟨rfl, .inr (.inr rfl)⟩) (Frame.gillCleared _ _ c ⟨rfl, .inr (.inl rfl)⟩ ⟨rfl, .inl rfl⟩)
  · refine ⟨_, gillResetWrite_served hserves, ?_, Frame.gillReset _ _ c ⟨rfl, .inr rfl⟩ ⟨rfl, .inl rfl⟩, rfl⟩
    dsimp only
    split
    case isTrue hconv =>
      rw [Dev.gillReset_converting hconv]
      refine ⟨?_, Dev.fld_setFld_kind _ _ _ _ _ _ (by decide)⟩
      rw [Dev.flag, Dev.fld_setFld_self _ _ _ _ (by decide)]
      rfl
    case isFalse hconv =>
      rw [Dev.gillReset_idle (Bool.eq_false_iff.2 hconv)]
      exact Dev.fld_setFld_self _ _ _ _ (by decide)

end Sys2Proof.Machine
end

section
/-!
PROOF. The writes of the step registers, of a reversal and of a backstep, where they are accepted (O35).
-/
namespace Sys2Proof.Machine

/-! ### Requests that a gate lets through (R20, R24, R423) -/

theorem Dev.partGate_eq {s : Dev} {port : Nat} (h : s.servesPart port) (f : Dev → Dev) : s.partGate port f = f s := by
  obtain ⟨⟨hlink, hrole, hstage⟩, hreach⟩ := h
  simp [Dev.partGate, Dev.hostGate, Dev.hostGateIn, hlink, hrole, hstage, hreach]

/-- The partition of a core that is served to a port is the port's. -/
theorem Dev.servesCore_corePart {s : Dev} {port c : Nat} (h : s.servesCore port c) : s.corePart c = s.partOf port := by
  have hserved := h.2.1
  simp only [Dev.coreServed, Bool.and_eq_true, decide_eq_true_eq] at hserved
  obtain ⟨⟨-, hpart⟩, -⟩ := hserved
  exact hpart

section
variable {s : State} {port : HostPort} (h : s.dev.servesPart port.val) (value : Word)
include h

theorem stepCtabWrite_served :
    exec (.stepCtabWrite port value) s = ok s (s.dev.writeCtab (s.dev.partOf port.val) (value.toNat % 2 ^ 52)) :=
  congrArg (ok s) (Dev.partGate_eq h _)

theorem stepStreamWrite_served :
    exec (.stepStreamWrite port value) s = ok s (s.dev.writeStream (s.dev.partOf port.val) (value.toNat % 2 ^ 16)) :=
  congrArg (ok s) (Dev.partGate_eq h _)

theorem stepCtrWrite_served :
    exec (.stepCtrWrite port value) s = ok s (s.dev.writeCtr (s.dev.partOf port.val) (value.toNat % 2 ^ 40)) :=
  congrArg (ok s) (Dev.partGate_eq h _)

theorem fmtRevertWrite_served : exec (.fmtRevertWrite port value) s = ok s (s.dev.revert (s.dev.partOf port.val) value.toNat) :=
  congrArg (ok s) (Dev.partGate_eq h _)

end

theorem rngBackstepWrite_served {s : State} {port : HostPort} {core : CoreId} (h : s.dev.servesCore port.val core.toNat) (value : Word) :
    exec (.rngBackstepWrite port core value) s = ok s (s.dev.backstep core.toNat value.toNat) :=
  congrArg (ok s) (Dev.coreGate_eq h _)

/-! ### Flags -/

/-- A flag reads as whether a one was written to it. -/
theorem Dev.flag_setFld_self (s : Dev) (f : Fld) (i v : Nat) (h : f.lo + f.width ≤ 64) :
    (s.setFld f i v).flag f i = decide (v % 2 ^ f.width = 1) := by
  rw [Dev.flag, Dev.fld_setFld_self s f i v h]

/-! ### STEP_CTAB (R319, R320) -/

section
variable {s : Dev} {p a : Nat} (hp : s.planState p = 2)
include hp

/-- A table in order comes into force, as does none. -/
theorem Dev.writeCtab_inForce (h : a = 0 ∨ s.ctabOk p a = true) : s.writeCtab p a = s.setReg .STEP_CTAB p a := by
  by_cases ha : a = 0
  · subst ha
    simp [Dev.writeCtab, hp]
  · simp [Dev.writeCtab, hp, ha, h.resolve_left ha]

theorem Dev.writeCtab_disordered (ha : a ≠ 0) (h : s.ctabOk p a = false) :
    s.writeCtab p a = (s.setReg .STEP_CTAB p 0).raise p Ev.CTX_CTAB := by
  simp [Dev.writeCtab, hp, ha, h]

theorem Dev.writeCtab_reg (hlt : a < 2 ^ 64) : (s.writeCtab p a).reg .STEP_CTAB p = if s.ctabOk p a = true then a else 0 := by
  by_cases h : a = 0 ∨ s.ctabOk p a = true
  · rw [Dev.writeCtab_inForce hp h, Dev.reg_setReg_self, Nat.mod_eq_of_lt hlt]
    split
    case isTrue => rfl
    case isFalse hbad => exact h.resolve_right hbad
  · obtain ⟨ha, hbad⟩ := not_or.1 h
    rw [Dev.writeCtab_disordered hp ha (Bool.eq_false_iff.2 hbad), (Quiet.raise _ _ _).reg _ _ rfl, Dev.reg_setReg_self, if_neg hbad]
    exact Nat.zero_mod _

theorem Frame.writeCtab (m : Touches) (h : m.reg .STEP_CTAB p) : Frame m s (s.writeCtab p a) := by
  by_cases hforce : a = 0 ∨ s.ctabOk p a = true
  · rw [Dev.writeCtab_inForce hp hforce]
    exact Frame.setReg m s _ p a h
  · obtain ⟨ha, hbad⟩ := not_or.1 hforce
    rw [Dev.writeCtab_disordered hp ha (Bool.eq_false_iff.2 hbad)]
    exact (Frame.setReg m s _ p 0 h).trans (Frame.raise m _ p _)

theorem Dev.writeCtab_events (ha : a ≠ 0) (h : s.ctabOk p a = false) :
    (s.writeCtab p a).events p Ev.CTX_CTAB = min 0xFFFFFFFF (s.events p Ev.CTX_CTAB + 1) := by
  rw [Dev.writeCtab_disordered hp ha h, Dev.raise_events, Dev.events_setReg _ _ _ _ _ _ (by decide)]

/-! ### STEP_STREAM and STEP_CTR (R331) -/

theorem Dev.writeStream_unlimited {v : Nat} (hv : v < 0xFFFE) (h : s.flag Fld.STEP_STAT_LIMIT p = false) :
    s.writeStream p v = s.setFld Fld.STEP_STREAM_STREAM p v := by
  simp [Dev.writeStream, hp, h, Nat.not_le.2 hv]

/-- At the limit of its step number a partition takes another stream, at whose start it is. -/
theorem Dev.writeStream_limited {v : Nat} (hv : v < 0xFFFE) (h : s.flag Fld.STEP_STAT_LIMIT p = true)
    (hother : v ≠ s.fld Fld.STEP_STREAM_STREAM p) : s.writeStream p v =
      ((s.setFld Fld.STEP_STREAM_STREAM p v).setFld Fld.STEP_CTR_STEP p 0).setFld Fld.STEP_STAT_LIMIT p 0 := by
  simp [Dev.writeStream, hp, h, Nat.not_le.2 hv, hother]

theorem Dev.writeCtr_loaded (v : Nat) : s.writeCtr p v = s.setFld Fld.STEP_CTR_STEP p v := by
  simp [Dev.writeCtr, hp]

end

/-- A stream reads back, in its 16 bits. -/
theorem Dev.stream_setFld (s : Dev) (p n : Nat) :
    (s.setFld Fld.STEP_STREAM_STREAM p (n % 2 ^ 16)).fld Fld.STEP_STREAM_STREAM p = n % 2 ^ 16 :=
  (Dev.fld_setFld_self s _ p _ (by decide)).trans (Nat.mod_mod n (2 ^ 16))

/-! ### FMT_REVERT (R184, R194) -/

/-- Monitor `m` is to be reversed at a step. -/
def Dev.reversed (s : Dev) (m step : Nat) : Dev := (s.setFld Fld.FMT_MON_STATE_RVPEND m 1).setFld Fld.FMT_MON_RVSTEP_RVSTEP m step

theorem Dev.reversed_pending (s : Dev) (m step : Nat) : (s.reversed m step).flag Fld.FMT_MON_STATE_RVPEND m = true :=
  (Dev.flag_of_reg _ m (Dev.reg_setFld_kind _ _ _ m m _ (by decide))).trans (Dev.flag_setFld_self s _ m 1 (by decide))

theorem Dev.reversed_step (s : Dev) (m : Nat) {step : Nat} (h : step < 2 ^ 40) : (s.reversed m step).fld Fld.FMT_MON_RVSTEP_RVSTEP m = step :=
  (Dev.fld_setFld_self _ _ m _ (by decide)).trans (Nat.mod_eq_of_lt h)

theorem Frame.reversed (t : Touches) (s : Dev) (m step : Nat) (hstate : t.reg .FMT_MON_STATE m) (hstep : t.reg .FMT_MON_RVSTEP m) :
    Frame t s (s.reversed m step) := (Frame.setFld t s _ m _ hstate).trans (Frame.setFld t _ _ m _ hstep)

/-- The step that a write of FMT_REVERT names. -/
theorem bits_revertStep (v : Nat) : bits v 50 11 = v / 2 ^ 11 % 2 ^ 40 := by rw [bits, Nat.shiftRight_eq_div_pow]

/-- A reversal of one monitored layer from a step that is still to come. -/
theorem Dev.revert_layer {s : Dev} {p v : Nat} (hp : 2 ≤ s.planState p) (hone : v.testBit 10 = false) (hmon : s.monitored p (v % 1024) = true)
    (hstep : if (s.part p).stepping then s.step p < v / 2 ^ 11 % 2 ^ 40 else s.step p ≤ v / 2 ^ 11 % 2 ^ 40) :
    s.revert p v = s.reversed (monIdx p (v % 1024)) (v / 2 ^ 11 % 2 ^ 40) := by
  have hlate : (if (s.part p).stepping then decide (v / 2 ^ 11 % 2 ^ 40 ≤ s.fld Fld.STEP_CTR_STEP p)
      else decide (v / 2 ^ 11 % 2 ^ 40 < s.fld Fld.STEP_CTR_STEP p)) = false := by
    split at hstep
    case isTrue hs => simpa [hs, Dev.step] using hstep
    case isFalse hs => simpa [hs, Dev.step] using hstep
  unfold Dev.revert
  simp only [bits_revertStep, hlate, hone, hmon, Nat.not_lt.2 hp, decide_false, Bool.not_true, Bool.and_false, Bool.or_false, Bool.false_eq_true,
    if_false]
  rfl

/-! ### A backstep (R206) -/

/-- What writes of `g` at a list of keys leave at a key. -/
theorem SMap.read_foldl_write {β : Type} [DecidableEq β] (d : β) (g : Nat → β) (ks : List Nat) (m : SMap β) (k : Nat) :
    SMap.read d (ks.foldl (fun m l => SMap.write d m l (g l)) m) k = if k ∈ ks then g k else SMap.read d m k := by
  induction ks generalizing m with
  | nil => rfl
  | cons l ls ih =>
    rw [List.foldl_cons, ih, SMap.read_write]
    by_cases hl : k = l
    · subst hl
      simp
    · simp [hl]

theorem mem_setBits {w n i : Nat} : i ∈ setBits w n ↔ i < w ∧ n.testBit i = true := by simp [setBits]

section
variable {s : Dev} {c v : Nat} (x : Core)

/-- A core after a backstep of the lanes that `v` selects. -/
def Core.backstepped (x : Core) (v : Nat) : Core :=
  { x with lanes := (setBits 32 v).foldl (fun m l => SMap.write {} m l (x.lane l).back) x.lanes }

theorem Core.backstepped_lane {l : Nat} (hl : l < 32) :
    (x.backstepped v).lane l = if v.testBit l = true then (x.lane l).back else x.lane l := by
  rw [Core.lane, Core.backstepped, SMap.read_foldl_write {} (fun l => (x.lane l).back)]
  simp only [mem_setBits, hl, true_and]
  rfl

theorem Core.backstepped_keeps : CoreKeepsRegisters { x with lanes := (x.backstepped v).lanes } (x.backstepped v) :=
  ⟨rfl, rfl, rfl, rfl, rfl, rfl, rfl, rfl, rfl, rfl, rfl, rfl⟩

/-- A backstep of lanes that have drawn, none of them saturated, between steps and with none under way. -/
theorem Dev.backstep_drawn (hidle : (s.part (s.corePart c)).stepping = false) (hbusy : s.flag Fld.RNG_STAT_BKBUSY c = false)
    (hdrawn : ∀ l, l < 32 → v.testBit l = true → ((s.core c).lane l).count ≠ 0 ∧ ((s.core c).lane l).saturated = false) :
    s.backstep c v = (s.setCore c ((s.core c).backstepped v)).setFld Fld.RNG_STAT_BKBUSY c 1 := by
  have hlanes : (setBits 32 v).any (fun l => decide (((s.core c).lane l).count = 0) || ((s.core c).lane l).saturated) = false := by
    refine List.any_eq_false.2 fun l hl => ?_
    obtain ⟨hlt, hbit⟩ := mem_setBits.1 hl
    obtain ⟨hcount, hsat⟩ := hdrawn l hlt hbit
    simpa [hsat] using hcount
  have haccepted : ((s.part (s.corePart c)).stepping || s.flag Fld.RNG_STAT_BKBUSY c ||
      (setBits 32 v).any (fun l => decide (((s.core c).lane l).count = 0) || ((s.core c).lane l).saturated)) = false := by
    rw [hidle, hbusy, hlanes]
    rfl
  exact if_neg (Bool.eq_false_iff.1 haccepted)

end

/-! ### The obligation -/

/-- Settles O35: each write passes its gate and its checks, and is then the plain update of its registers, or of its core's lanes. -/
theorem stepAndLaneWrites : Obligations.StepAndLaneWrites := by
  unfold Obligations.StepAndLaneWrites
  intro s port p only
  refine ⟨fun hserves hp => ⟨fun value => ?_, fun value hv hlimit => ?_, fun value hv hlimit hother => ?_, fun value => ?_⟩,
    fun value hserves hp hone hmon => ?_, fun core value hserves hidle hbusy => ?_, fun core => ?_⟩
  · have hlt : value.toNat % 2 ^ 52 < 2 ^ 64 := by omega
    exact ⟨_, stepCtabWrite_served hserves value, rfl, Frame.writeCtab hp _ ⟨rfl, rfl⟩, Dev.writeCtab_reg hp hlt, Dev.writeCtab_events hp⟩
  · refine ⟨_, stepStreamWrite_served hserves value, rfl, ?_⟩
    dsimp only [only]
    rw [Dev.writeStream_unlimited hp hv hlimit]
    exact ⟨Frame.setFld _ _ _ _ _ ⟨rfl, rfl⟩, Dev.stream_setFld _ _ _⟩
  · refine ⟨_, stepStreamWrite_served hserves value, rfl, ?_⟩
    dsimp only
    rw [Dev.writeStream_limited hp hv hlimit hother]
    refine ⟨rfl, ?_, ?_, Dev.flag_setFld_self _ _ p 0 (by decide)⟩
    · rw [Dev.fld_setFld_kind _ _ _ _ _ _ (by decide), Dev.fld_setFld_kind _ _ _ _ _ _ (by decide)]
      exact Dev.stream_setFld _ _ _
    · rw [Dev.step, Dev.fld_setFld_kind _ _ _ _ _ _ (by decide)]
      exact Dev.fld_setFld_self _ _ p 0 (by decide)
  · refine ⟨_, stepCtrWrite_served hserves value, rfl, ?_⟩
    dsimp only [only]
    rw [Dev.writeCtr_loaded hp]
    exact ⟨Frame.setFld _ _ _ _ _ ⟨rfl, rfl⟩, (Dev.fld_setFld_self _ _ p _ (by decide)).trans (Nat.mod_mod _ (2 ^ 40))⟩
  · intro m step hstep
    refine ⟨_, fmtRevertWrite_served hserves value, ?_⟩
    dsimp only
    rw [Dev.revert_layer hp hone hmon hstep]
    exact ⟨Dev.reversed_pending _ m step, Dev.reversed_step _ m (Nat.mod_lt _ (by decide)), rfl, Frame.reversed _ _ m step ⟨rfl, .inl rfl⟩ ⟨rfl, .inr rfl⟩⟩
  · intro x lane hdrawn
    refine ⟨_, rngBackstepWrite_served hserves value, rfl, ?_⟩
    dsimp only
    have hidle' : (s.dev.part (s.dev.corePart core.toNat)).stepping = false := (Dev.servesCore_corePart hserves).symm ▸ hidle
    rw [Dev.backstep_drawn hidle' hbusy hdrawn, Dev.setFld_core, Dev.setCore_self]
    exact ⟨Dev.flag_setFld_self _ _ _ 1 (by decide), rfl, fun l => x.backstepped_lane, x.backstepped_keeps,
      (Frame.setCore _ _ _ _ rfl).trans (Frame.setFld _ _ _ _ _ ⟨rfl, rfl⟩)⟩
  · exact ⟨_, rfl, Dev.flag_setFld_self _ _ _ 0 (by decide), rfl, Frame.setFld _ _ _ _ _ ⟨rfl, rfl⟩⟩

end Sys2Proof.Machine
end

section
/-!
PROOF. What goes on beside a step: its messages and scope tiles, log records, events and counters.
-/
namespace Sys2Proof.Machine

/-! ### Operations on the side -/

/-- The fields of plans, steps, contexts and the chain that what goes on beside a step leaves alone, and those that say which dies and cores are present. -/
def sideFields : List Fld :=
  [Fld.STEP_STAT_FRONT, Fld.STEP_STAT_HELD, Fld.STEP_STAT_LIMIT, Fld.STEP_STAT_UNCERT, Fld.STEP_STAT_HOLDN, Fld.STEP_CTR_STEP, Fld.STEP_PC_COMMIT_COUNT,
   Fld.STEP_PC_ABORT_COUNT, Fld.PLAN_STAT_STATE, Fld.PLAN_STAT_ERR, Fld.PLAN_STEPBEAT_B0, Fld.PLAN_SCHED_ROFF, Fld.CHN_STAT_STATE, Fld.CHN_COUNT_COUNT,
   Fld.CORE_STAT_STATE, Fld.CORE_ENTRY_ENTRY, Fld.PLAN_ID_ID, Fld.CTX_DSTAT_STATE, Fld.CTX_STAT_STATE, Fld.CTL_DIECFG_FENCED, Fld.HLK_PARTCFG_PARTS,
   Fld.SPR_CLSTAT_SHORT]

/-- Fields, the counts of all events but those of some codes, and the chain are as they were. -/
structure Aside (fs : List Fld) (cs : List Nat) (s t : Dev) : Prop where
  fld : ∀ f ∈ fs, ∀ i, t.fld f i = s.fld f i
  events : ∀ d c, c < 65536 → c ∉ cs → t.events d c = s.events d c
  eventsDev : ∀ c, c ∉ cs → t.eventsDev c = s.eventsDev c
  chain : t.chain = s.chain

/-- Whether a write of a field leaves some fields and the event counters alone. -/
def Fld.clearOf (g : Fld) (fs : List Fld) : Bool :=
  decide (g.lo + g.width ≤ 64) && decide (g.reg ≠ .CTL_EVCNT) && decide (g.reg ≠ .CTL_EVCNT_DEV) && fs.all (fun f => f.apart g)

/-- Whether a write of a register does. -/
def RegKind.clearOf (k : RegKind) (fs : List Fld) : Bool :=
  decide (k ≠ .CTL_EVCNT) && decide (k ≠ .CTL_EVCNT_DEV) && fs.all (fun f => decide (f.reg ≠ k))

/-- Whether no event counts in any of some fields. -/
def uncounted (fs : List Fld) : Bool := fs.all (fun f => !f.reg.counting)

section
variable {fs gs : List Fld} {cs es : List Nat} {s t u : Dev}

theorem Aside.refl (s : Dev) : Aside fs cs s s := ⟨fun _ _ _ => rfl, fun _ _ _ _ => rfl, fun _ _ => rfl, rfl⟩

theorem Aside.trans (h : Aside fs cs s t) (g : Aside fs cs t u) : Aside fs cs s u :=
  ⟨fun f hf i => (g.fld f hf i).trans (h.fld f hf i), fun d c hc hn => (g.events d c hc hn).trans (h.events d c hc hn),
    fun c hn => (g.eventsDev c hn).trans (h.eventsDev c hn), g.chain.trans h.chain⟩

theorem Aside.mono (h : Aside fs cs s t) (hfs : ∀ f ∈ gs, f ∈ fs) (hcs : ∀ c ∈ cs, c ∈ es) : Aside gs es s t :=
  ⟨fun f hf => h.fld f (hfs f hf), fun d c hc hn => h.events d c hc (fun hm => hn (hcs c hm)), fun c hn => h.eventsDev c (fun hm => hn (hcs c hm)), h.chain⟩

theorem Aside.ite {b : Prop} [Decidable b] (h : b → Aside fs cs s t) (g : ¬ b → Aside fs cs s u) : Aside fs cs s (if b then t else u) := by
  split
  · exact h ‹_›
  · exact g ‹_›

theorem Aside.each {α : Type} (s : Dev) (xs : List α) (f : α → Dev → Dev) (h : ∀ x ∈ xs, ∀ t, Aside fs cs t (f x t)) : Aside fs cs s (s.each xs f) :=
  Dev.each_induction (Aside fs cs s) f xs (fun x hx t ht => ht.trans (h x hx t)) s (Aside.refl s)

/-- An update of anything but the registers and the chain. -/
theorem Aside.of_regs (hregs : t.regs = s.regs) (hchain : t.chain = s.chain) : Aside fs cs s t := by
  have hreg : ∀ k i, t.reg k i = s.reg k i := fun k i => by unfold Dev.reg; rw [hregs]
  exact ⟨fun f _ i => Dev.fld_congr f i (hreg _ _), fun _ _ _ _ => Dev.fld_congr _ _ (hreg _ _), fun _ _ => Dev.fld_congr _ _ (hreg _ _), hchain⟩

theorem Aside.setFld (s : Dev) (g : Fld) (i v : Nat) (h : g.clearOf fs = true) : Aside fs cs s (s.setFld g i v) := by
  simp only [Fld.clearOf, Bool.and_eq_true, decide_eq_true_eq, List.all_eq_true] at h
  obtain ⟨⟨⟨hw, hdie⟩, hdev⟩, hall⟩ := h
  exact ⟨fun f hf i' => Dev.fld_setFld_of_apart s i i' v hw (hall f hf), fun d c _ _ => Dev.events_setFld s g i v d c hdie,
    fun c _ => Dev.fld_setFld_kind s g _ i _ v (fun e => hdev e.symm), rfl⟩

theorem Aside.setReg (s : Dev) (k : RegKind) (i v : Nat) (h : k.clearOf fs = true) : Aside fs cs s (s.setReg k i v) := by
  simp only [RegKind.clearOf, Bool.and_eq_true, decide_eq_true_eq, List.all_eq_true] at h
  obtain ⟨⟨hdie, hdev⟩, hall⟩ := h
  exact ⟨fun f hf i' => Dev.fld_setReg_kind s f k i i' v (hall f hf), fun d c _ _ => Dev.events_setReg s k i v d c hdie,
    fun c _ => Dev.fld_setReg_kind s _ k i _ v (fun e => hdev e.symm), rfl⟩

theorem Aside.setCore (s : Dev) (c : Nat) (x : Core) : Aside fs cs s (s.setCore c x) := Aside.of_regs rfl rfl
theorem Aside.setPart (s : Dev) (p : Nat) (x : Part) : Aside fs cs s (s.setPart p x) := Aside.of_regs rfl rfl

/-- A quiet update that counts no event but those of the codes. -/
theorem Aside.of_quiet (hq : Quiet s t) (hfs : uncounted fs = true) (hev : ∀ d c, c < 65536 → c ∉ cs → t.events d c = s.events d c)
    (hdev : ∀ c, c ∉ cs → t.eventsDev c = s.eventsDev c) : Aside fs cs s t := by
  simp only [uncounted, List.all_eq_true, Bool.not_eq_true'] at hfs
  exact ⟨fun f hf i => hq.fld f i (hfs f hf), hev, hdev, hq.chain⟩

theorem Dev.raiseN_eventsDev (s : Dev) (d code n c : Nat) : (s.raiseN d code n).eventsDev c = s.eventsDev c :=
  Dev.fld_congr _ _ (Dev.raiseN_reg_ne s d code n .CTL_EVCNT_DEV c (fun e => absurd e.1 (by decide)))

theorem Dev.raiseDev_eventsDev_ne (s : Dev) {code c : Nat} (h : c ≠ code) : (s.raiseDev code).eventsDev c = s.eventsDev c :=
  Dev.fld_congr _ _ ((Dev.intrOwner_reg _ _ _ _).trans (Dev.countEvent_dev_reg s code 1 .CTL_EVCNT_DEV c (fun e => h e.2)))

theorem Aside.raiseN (s : Dev) (d c n : Nat) (hfs : uncounted fs = true) (hc : c < 65536 ∧ c ∈ cs) : Aside fs cs s (s.raiseN d c n) :=
  Aside.of_quiet (Quiet.raiseN s d c n) hfs (fun d' c' hlt hn => Dev.raiseN_events_ne s d d' c c' n hc.1 hlt (fun e => hn (e.2 ▸ hc.2)))
    (fun c' _ => Dev.raiseN_eventsDev s d c n c')

theorem Aside.raise (s : Dev) (d c : Nat) (hfs : uncounted fs = true) (hc : c < 65536 ∧ c ∈ cs) : Aside fs cs s (s.raise d c) := Aside.raiseN s d c 1 hfs hc

theorem Aside.raiseDev (s : Dev) (c : Nat) (hfs : uncounted fs = true) (hc : c ∈ cs) : Aside fs cs s (s.raiseDev c) :=
  Aside.of_quiet (Quiet.raiseDev s c) hfs (fun d c' _ _ => Dev.raiseDev_events s c d c') (fun _ hn => Dev.raiseDev_eventsDev_ne s (fun e => hn (e ▸ hc)))

theorem Aside.perf (s : Dev) (k : RegKind) (i d n : Nat) (h : k.clearOf fs = true) (hfs : uncounted fs = true) (hc : Ev.PERF_WRAP ∈ cs) :
    Aside fs cs s (s.perf k i d n) :=
  Aside.ite (fun _ => (Aside.setReg s k i _ h).trans (Aside.raise _ _ _ hfs ⟨by decide, hc⟩)) (fun _ => Aside.setReg s k i _ h)

theorem Aside.perfDev (s : Dev) (k : RegKind) (i n : Nat) (h : k.clearOf fs = true) (hfs : uncounted fs = true) (hc : Ev.PERF_WRAP ∈ cs) :
    Aside fs cs s (s.perfDev k i n) :=
  Aside.ite (fun _ => (Aside.setReg s k i _ h).trans (Aside.raiseDev _ _ hfs hc)) (fun _ => Aside.setReg s k i _ h)

/-- A partition's state without what messages, scope tiles and the classing of captures change. -/
def Part.own (x : Part) : Part :=
  { x with causeAt := 0, votes := [], sentUp := false, decision := none, dones := [], sentDone := false, allDone := none, recs := [], usedSeqs := []
           ranges := [], degReceived := [], captures := [], rvApplied := [] }

/-- What is the same in a partition's own part is the same in the partition. -/
theorem Part.view_of_own {α : Type} {x y : Part} (h : x.own = y.own) (f : Part → α) (hf : ∀ z : Part, f z.own = f z) : f x = f y := by
  rw [← hf, h, hf]

end

/-- What goes on beside a step: but for the events of some codes it keeps the side fields, memory and cores, sparing, and what is a partition's own,
and it turns no verdict clean. -/
structure Beside (cs : List Nat) (s t : Dev) : Prop where
  aside : Aside sideFields cs s t
  own : ∀ p, (t.part p).own = (s.part p).own
  verdict : ∀ p, s.flag Fld.STEP_STAT_UNCLEAN p = true → t.flag Fld.STEP_STAT_UNCLEAN p = true
  mem : t.mem = s.mem
  cores : t.cores = s.cores
  spr : t.spr = s.spr

section
variable {cs es : List Nat} {s t u : Dev}

theorem Beside.refl (s : Dev) : Beside cs s s := ⟨Aside.refl s, fun _ => rfl, fun _ h => h, rfl, rfl, rfl⟩

theorem Beside.trans (h : Beside cs s t) (g : Beside cs t u) : Beside cs s u :=
  ⟨h.aside.trans g.aside, fun p => (g.own p).trans (h.own p), fun p hp => g.verdict p (h.verdict p hp), g.mem.trans h.mem, g.cores.trans h.cores, g.spr.trans h.spr⟩

theorem Beside.mono (h : Beside cs s t) (hcs : ∀ c ∈ cs, c ∈ es) : Beside es s t := ⟨h.aside.mono (fun _ => id) hcs, h.own, h.verdict, h.mem, h.cores, h.spr⟩

theorem Beside.ite {b : Prop} [Decidable b] (h : b → Beside cs s t) (g : ¬ b → Beside cs s u) : Beside cs s (if b then t else u) := by
  split
  · exact h ‹_›
  · exact g ‹_›

theorem Beside.each {α : Type} (s : Dev) (xs : List α) (f : α → Dev → Dev) (h : ∀ x ∈ xs, ∀ t, Beside cs t (f x t)) : Beside cs s (s.each xs f) :=
  Dev.each_induction (Beside cs s) f xs (fun x hx t ht => ht.trans (h x hx t)) s (Beside.refl s)

/-- A partition's own parts are as they were. -/
theorem Beside.part {α : Type} (h : Beside cs s t) (p : Nat) (f : Part → α) (hf : ∀ x : Part, f x.own = f x) : f (t.part p) = f (s.part p) :=
  Part.view_of_own (h.own p) f hf

theorem Beside.core (h : Beside cs s t) (c : Nat) : t.core c = s.core c := by unfold Dev.core; rw [h.cores]

theorem Beside.fld (h : Beside cs s t) (f : Fld) (i : Nat) (hf : f ∈ sideFields) : t.fld f i = s.fld f i := h.aside.fld f hf i

/-- An update of neither registers nor partitions, memory, cores, sparing or the chain. -/
theorem Beside.of_regs (hregs : t.regs = s.regs) (hparts : t.parts = s.parts) (hchain : t.chain = s.chain) (hmem : t.mem = s.mem)
    (hcores : t.cores = s.cores) (hspr : t.spr = s.spr) : Beside cs s t :=
  ⟨Aside.of_regs hregs hchain, fun p => by unfold Dev.part; rw [hparts],
    fun p h => (Dev.flag_of_reg (s := s) Fld.STEP_STAT_UNCLEAN p (by unfold Dev.reg; rw [hregs])).trans h, hmem, hcores, hspr⟩

theorem Beside.setFab (s : Dev) (p : Nat) (x : FabPortSt) : Beside cs s (s.setFab p x) := Beside.of_regs rfl rfl rfl rfl rfl rfl
theorem Beside.emit (s : Dev) (o : Out) : Beside cs s (s.emit o) := Beside.of_regs rfl rfl rfl rfl rfl rfl
theorem Beside.setCtl (s : Dev) (x : Control) : Beside cs s { s with ctl := x } := Beside.of_regs rfl rfl rfl rfl rfl rfl
theorem Beside.setHost (s : Dev) (p : Nat) (x : HostPortSt) : Beside cs s (s.setHost p x) := Beside.of_regs rfl rfl rfl rfl rfl rfl

theorem Beside.setPart (s : Dev) (p : Nat) (x : Part) (h : x.own = (s.part p).own := by unfold Part.own; rfl) : Beside cs s (s.setPart p x) := by
  refine ⟨Aside.setPart s p x, fun q => ?_, fun _ h => h, rfl, rfl, rfl⟩
  by_cases hq : q = p
  · subst hq; rw [Dev.setPart_self]; exact h
  · rw [Dev.setPart_ne _ _ _ _ hq]

theorem Beside.setFld (s : Dev) (g : Fld) (i v : Nat) (h : g.clearOf (Fld.STEP_STAT_UNCLEAN :: sideFields) = true) : Beside cs s (s.setFld g i v) := by
  have ha : Aside (cs := cs) (Fld.STEP_STAT_UNCLEAN :: sideFields) s (s.setFld g i v) := Aside.setFld s g i v h
  refine ⟨ha.mono (fun _ => List.mem_cons_of_mem _) (fun _ => id), fun _ => rfl, fun p hp => ?_, rfl, rfl, rfl⟩
  rw [Dev.flag, ha.fld _ List.mem_cons_self]
  exact hp

theorem Beside.setReg (s : Dev) (k : RegKind) (i v : Nat) (h : k.clearOf (Fld.STEP_STAT_UNCLEAN :: sideFields) = true) : Beside cs s (s.setReg k i v) := by
  have ha : Aside (cs := cs) (Fld.STEP_STAT_UNCLEAN :: sideFields) s (s.setReg k i v) := Aside.setReg s k i v h
  refine ⟨ha.mono (fun _ => List.mem_cons_of_mem _) (fun _ => id), fun _ => rfl, fun p hp => ?_, rfl, rfl, rfl⟩
  rw [Dev.flag, ha.fld _ List.mem_cons_self]
  exact hp

theorem sideFields_uncounted : uncounted sideFields = true := by decide

theorem Beside.of_quiet (hq : Quiet s t) (h : Aside sideFields cs s t) : Beside cs s t :=
  ⟨h, fun p => by rw [hq.part], fun p hp => by rw [Dev.flag_of_reg _ _ (hq.reg _ _ rfl)]; exact hp, hq.mem, hq.cores, hq.spr⟩

theorem Beside.raiseN (s : Dev) (d c n : Nat) (hc : c < 65536 ∧ c ∈ cs) : Beside cs s (s.raiseN d c n) :=
  Beside.of_quiet (Quiet.raiseN s d c n) (Aside.raiseN s d c n sideFields_uncounted hc)

theorem Beside.raise (s : Dev) (d c : Nat) (hc : c < 65536 ∧ c ∈ cs) : Beside cs s (s.raise d c) := Beside.raiseN s d c 1 hc

theorem Beside.raiseDev (s : Dev) (c : Nat) (hc : c ∈ cs) : Beside cs s (s.raiseDev c) :=
  Beside.of_quiet (Quiet.raiseDev s c) (Aside.raiseDev s c sideFields_uncounted hc)

theorem Beside.perf (s : Dev) (k : RegKind) (i d n : Nat) (h : k.clearOf (Fld.STEP_STAT_UNCLEAN :: sideFields) = true) (hc : Ev.PERF_WRAP ∈ cs) :
    Beside cs s (s.perf k i d n) :=
  Beside.ite (fun _ => (Beside.setReg s k i _ h).trans (Beside.raise _ _ _ ⟨by decide, hc⟩)) (fun _ => Beside.setReg s k i _ h)

theorem Beside.countLink (s : Dev) (f g : Fld) (i n : Nat) (hf : f.clearOf (Fld.STEP_STAT_UNCLEAN :: sideFields) = true)
    (hg : g.clearOf (Fld.STEP_STAT_UNCLEAN :: sideFields) = true) : Beside cs s (s.countLink f g i n) :=
  Beside.ite (fun _ => Beside.setFld s f i _ hf) (fun _ => (Beside.setFld s f i _ hf).trans (Beside.setFld _ g i 1 hg))

end

/-! ### The router and messages (R364, R394, R400, R401) -/

section
variable (s : Dev)

theorem Beside.drop (input : Nat) (why : DropWhy) (n : Nat) : Beside wireCodes s (s.drop input why n) := by
  have count : ∀ k : RegKind, k = .FAB_PORT_DROP ∨ k = .FAB_INJDROP → ∀ lo, lo = 0 ∨ lo = 16 ∨ lo = 32 → ∀ i,
      Beside wireCodes s (s.countLink ⟨k, lo, 16⟩ ⟨k, 48 + lo / 16, 1⟩ i n) := by
    rintro k (rfl | rfl) lo (rfl | rfl | rfl) i <;> exact Beside.countLink s _ _ _ _ (by decide) (by decide)
  have hk : (if input < 36 then RegKind.FAB_PORT_DROP else RegKind.FAB_INJDROP) = .FAB_PORT_DROP ∨
      (if input < 36 then RegKind.FAB_PORT_DROP else RegKind.FAB_INJDROP) = .FAB_INJDROP := by split <;> simp
  unfold Dev.drop
  cases why
  case slice => exact (count _ hk 0 (by simp) _).trans (Beside.raiseN _ _ _ _ (by decide))
  case noroute => exact (count _ hk 16 (by simp) _).trans (Beside.raiseN _ _ _ _ (by decide))
  case stall => exact (count _ hk 32 (by simp) _).trans (Beside.raiseN _ _ _ _ (by decide))

theorem Beside.freeBuf (input vc n : Nat) : Beside wireCodes s (s.freeBuf input vc n) := by
  unfold Dev.freeBuf
  refine Beside.ite (fun _ => Beside.refl s) (fun _ => ?_)
  exact Beside.ite (fun _ => (Beside.setFab s _ _).trans ((Beside.setFab _ _ _).trans (Beside.emit _ _))) (fun _ => Beside.setFab s _ _)

theorem Beside.routePkt (input : Nat) (p : Packet) : Beside wireCodes s (s.routePkt input p).1 := by
  have dropped : ∀ why, Beside wireCodes s ((s.drop input why 1).freeBuf input p.vc p.flits) := fun why =>
    (Beside.drop s input why 1).trans (Beside.freeBuf _ _ _ _)
  unfold Dev.routePkt
  dsimp only
  split
  · exact dropped _
  split
  · exact dropped _
  split
  · exact dropped _
  split
  · exact dropped _
  split
  · split
    · exact dropped _
    split
    · exact dropped _
    split
    · exact dropped _
    · exact Beside.freeBuf s _ _ _
  split
  · exact dropped _
  split
  · exact dropped _
  · exact Beside.setFab s _ _

theorem Beside.inject (die : Nat) (p : Packet) : Beside wireCodes s (s.inject die p).1 := by
  unfold Dev.inject
  split
  · exact Beside.refl s
  · exact Beside.routePkt s _ _

theorem Beside.markUnclean (p code : Nat) : Beside wireCodes s (s.markUnclean p code).1 := by
  have cause : ∀ (t : Dev) v, Beside wireCodes t (t.setFld Fld.STEP_STAT_CAUSE p v) := fun t v => Beside.setFld t _ _ _ (by decide)
  have mark : Beside wireCodes s (s.setFld Fld.STEP_STAT_UNCLEAN p 1) := by
    refine ⟨Aside.setFld s _ _ _ (by decide), fun _ => rfl, fun q hq => ?_, rfl, rfl, rfl⟩
    by_cases e : q = p
    · subst e; exact Dev.flag_setFld_self s _ _ 1 (by decide)
    · rw [Dev.flag, Dev.fld_setFld_inst _ _ _ _ _ _ e]; exact hq
  unfold Dev.markUnclean
  dsimp only
  split
  · exact Beside.ite (fun _ => cause s code) (fun _ => Beside.refl s)
  · exact (mark.trans (cause _ code)).trans (Beside.setPart _ _ _)

theorem Beside.retract (p : Nat) : Beside wireCodes s (s.retract p).1 := by
  unfold Dev.retract
  split
  · exact Beside.refl s
  · exact (Beside.setFld s _ _ _ (by decide)).trans (Beside.raiseN _ _ _ _ (by decide))

theorem Beside.poison (p : Nat) : Beside wireCodes s (s.poison p).1 := by
  unfold Dev.poison
  split
  · exact Beside.refl s
  · exact (((Beside.setFld s _ _ _ (by decide)).trans (Beside.raise _ _ _ (by decide))).trans (Beside.markUnclean _ _ _)).trans (Beside.retract _ _)

theorem Part.retracted_own (x : Part) (ovf : Bool) (group rank first last : Nat) : (x.retracted ovf group rank first last).1.own = x.own := by
  unfold Part.retracted Part.own
  rfl

theorem Beside.applyMessage (d : Delivery) : Beside wireCodes s (s.applyMessage d).1 := by
  have raised : ∀ c, c < 65536 ∧ c ∈ wireCodes → Beside wireCodes s (s.raise d.die c) := fun c => Beside.raise s _ c
  unfold Dev.applyMessage
  dsimp only
  split
  · split
    · exact raised _ (by decide)
    split
    · exact raised _ (by decide)
    split
    · exact raised _ (by decide)
    split
    · exact raised _ (by decide)
    split
    · exact (Beside.setPart s _ _ (Part.retracted_own _ _ _ _ _ _)).trans (Beside.poison _ _)
    · exact Beside.setPart s _ _ (Part.retracted_own _ _ _ _ _ _)
  · split
    · exact raised _ (by decide)
    split
    · exact raised _ (by decide)
    · exact Beside.setPart s _ _
  · exact raised _ (by decide)

/-- One message injected, and applied where it is delivered on this device. -/
def Dev.sendOne (acc : Dev × List (Nat × Packet)) (m : Nat × Packet) : Dev × List (Nat × Packet) :=
  match (acc.1.inject m.1 m.2).2 with
  | none => ((acc.1.inject m.1 m.2).1, acc.2)
  | some d => (((acc.1.inject m.1 m.2).1.applyMessage d).1, acc.2 ++ ((acc.1.inject m.1 m.2).1.applyMessage d).2)

theorem Beside.sendOne (acc : Dev × List (Nat × Packet)) (m : Nat × Packet) : Beside wireCodes acc.1 (Dev.sendOne acc m).1 := by
  unfold Dev.sendOne
  split
  · exact Beside.inject _ _ _
  · exact (Beside.inject _ _ _).trans (Beside.applyMessage _ _)

theorem Beside.sendMessages (fuel : Nat) (ms : List (Nat × Packet)) : Beside wireCodes s (Dev.sendMessages fuel s ms) := by
  induction fuel generalizing s ms with
  | zero => exact Beside.refl s
  | succ n ih =>
    have round : ∀ (acc : Dev × List (Nat × Packet)), Beside wireCodes acc.1 (ms.foldl Dev.sendOne acc).1 := by
      induction ms with
      | nil => exact fun acc => Beside.refl acc.1
      | cons m ms ihm => exact fun acc => (Beside.sendOne acc m).trans (ihm _)
    have e : Dev.sendMessages (n + 1) s ms =
        if (ms.foldl Dev.sendOne (s, [])).2.isEmpty then (ms.foldl Dev.sendOne (s, [])).1
        else Dev.sendMessages n (ms.foldl Dev.sendOne (s, [])).1 (ms.foldl Dev.sendOne (s, [])).2 := rfl
    rw [e]
    exact Beside.ite (fun _ => round (s, [])) (fun _ => (round (s, [])).trans (ih _ _))

theorem Beside.unclean (p code : Nat) : Beside wireCodes s (s.unclean p code) := by
  unfold Dev.unclean
  refine Beside.ite (fun _ => Beside.refl s) (fun _ => Beside.ite (fun _ => ?_) (fun _ => Beside.markUnclean s p code))
  exact ((Beside.markUnclean s p code).trans (Beside.retract _ _)).trans (Beside.sendMessages _ _ _)

end

/-! ### Log records, scope tiles and degraded groups (R403 to R410, R463) -/

/-- The codes of what goes on beside a step but the failed use of a tile. -/
def sideCodes : List Nat :=
  wireCodes ++ [Ev.CHK_LOGLOST, Ev.CHK_UNRESOLVED, Ev.HBM_UE, Ev.VOTE_BAD, Ev.VOTE_LATE, Ev.GRP_DEGRADED, Ev.PERF_WRAP]

/-- The codes of scope tiles. -/
def scopeCodes : List Nat := Ev.TILE_POISON :: Ev.TILE_CHECK :: sideCodes

theorem wireCodes_side : ∀ c ∈ wireCodes, c ∈ sideCodes := fun _ => List.mem_append_left _
theorem sideCodes_scope : ∀ c ∈ sideCodes, c ∈ scopeCodes := fun _ h => List.mem_cons_of_mem _ (List.mem_cons_of_mem _ h)

section
variable (s : Dev)

theorem Beside.logRecord (d : Nat) (r : LogRec) : Beside sideCodes s (s.logRecord d r) := by
  unfold Dev.logRecord
  dsimp only
  split
  · exact Beside.raise s _ _ (by decide)
  · refine Beside.trans ?_ (Beside.setFld _ Fld.CHK_LOGSTAT_COUNT _ _ (by decide))
    exact (Beside.each s _ _ fun _ _ t => Beside.setReg t .CHK_LOG _ _ (by decide)).trans (Beside.setCtl _ _)

theorem Beside.hbmErrors (tiles : List Nat) : Beside sideCodes s (s.hbmErrors tiles) :=
  Beside.each s _ _ fun _ _ t => (Beside.raise t _ _ (by decide)).trans (Beside.logRecord _ _ _)

/-- What a failed use does after its event. -/
theorem Beside.useFailedAs {cs : List Nat} (p die code : Nat) (core : Option Nat) (fpc a e g : Nat) (hc : code < 65536 ∧ code ∈ cs) (hcs : ∀ c ∈ sideCodes, c ∈ cs) :
    Beside cs s (s.useFailedAs p die code core fpc a e g) :=
  ((Beside.raise s die code hc).trans ((Beside.logRecord _ _ _).mono hcs)).trans ((Beside.unclean _ p code).mono (fun c h => hcs c (wireCodes_side c h)))

theorem Beside.rejectTile (d : Delivery) (c : Nat) (hc : c < 65536 ∧ c ∈ scopeCodes) : Beside scopeCodes s (s.rejectTile d c) :=
  (Beside.perf s _ _ _ _ (by decide) (by decide)).trans (Beside.raise _ _ _ hc)

theorem Beside.scopeTake (d : Delivery) (t : List Byte) : Beside scopeCodes s (s.scopeTake d t).1 := by
  have raised : ∀ c, c < 65536 ∧ c ∈ scopeCodes → Beside scopeCodes s (s.raise d.die c) := fun c => Beside.raise s _ c
  have failed : ∀ c a e g, (c = Ev.TILE_POISON ∨ c = Ev.TILE_CHECK) → Beside scopeCodes s (s.useFailedAs d.part d.die c none 0 a e g) := by
    rintro c a e g (rfl | rfl) <;> exact Beside.useFailedAs s _ _ _ _ _ _ _ _ (by decide) sideCodes_scope
  unfold Dev.scopeTake
  dsimp only
  split
  · exact Beside.rejectTile s d _ (by decide)
  split
  · exact (failed _ _ _ _ (by split <;> simp)).trans (Beside.raise _ _ _ (by decide))
  split
  · exact raised _ (by decide)
  split
  · split
    · exact raised _ (by decide)
    · split
      · exact Beside.refl s
      · split
        · exact raised _ (by decide)
        · exact Beside.setPart s _ _
  · split
    · exact raised _ (by decide)
    · split
      · exact Beside.refl s
      · split
        · exact raised _ (by decide)
        · exact Beside.refl s
  · split
    · exact raised _ (by decide)
    · split
      · exact Beside.refl s
      · split
        · exact raised _ (by decide)
        · exact Beside.setPart s _ _
  · split
    · exact raised _ (by decide)
    · split
      · exact Beside.refl s
      · split
        · exact raised _ (by decide)
        · exact Beside.setPart s _ _
  · exact raised _ (by decide)

theorem Beside.scopeSend (p r dp ty : Nat) (v : Vote) : Beside scopeCodes s (s.scopeSend p r dp ty v) := by
  have inj : ∀ x, Beside scopeCodes s (s.inject p x).1 := fun x => (Beside.inject s p x).mono (fun c h => sideCodes_scope c (wireCodes_side c h))
  unfold Dev.scopeSend
  dsimp only
  split
  · exact (inj _).trans (Beside.scopeTake _ _ _)
  · exact inj _

theorem Beside.sendUp (p ty : Nat) (v : Vote) : Beside scopeCodes s (s.sendUp p ty v) :=
  Beside.ite (fun _ => Beside.scopeSend s _ _ _ _ _) (fun _ => (Beside.scopeSend s _ _ _ _ _).trans (Beside.scopeSend _ _ _ _ _ _))

theorem Beside.sendDown (p ty : Nat) (v : Vote) : Beside scopeCodes s (s.sendDown p ty v) :=
  Beside.each s _ _ fun _ _ t =>
    Beside.ite (fun _ => Beside.scopeSend t _ _ _ _ _) (fun _ => (Beside.scopeSend t _ _ _ _ _).trans (Beside.scopeSend _ _ _ _ _ _))

theorem Beside.tryDone (p : Nat) : Beside scopeCodes s (s.tryDone p) := by
  unfold Dev.tryDone
  dsimp only
  refine Beside.ite (fun _ => Beside.refl s) (fun _ => Beside.ite (fun _ => ?_) (fun _ => ?_))
  · exact ((Beside.setPart s _ _).trans (Beside.setPart _ _ _)).trans (Beside.sendDown _ _ _ _)
  · exact (Beside.setPart s _ _).trans (Beside.sendUp _ _ _ _)

theorem Beside.countDecision (p : Nat) (v : Vote) : Beside scopeCodes s (s.countDecision p v) :=
  ((Beside.setPart s _ _).trans (Beside.setFld _ Fld.GRP_STAT_DECIDED _ _ (by decide))).trans (Beside.sendDown _ _ _ _)

theorem Beside.tryVote (p : Nat) : Beside scopeCodes s (s.tryVote p) := by
  have sent : Beside scopeCodes s (s.sendVote p) := by
    unfold Dev.sendVote
    dsimp only
    exact Beside.ite (fun _ => (Beside.setPart s _ _).trans (Beside.countDecision _ _ _)) (fun _ => (Beside.setPart s _ _).trans (Beside.sendUp _ _ _ _))
  exact Beside.ite (fun _ => sent) (fun _ => Beside.refl s)

theorem Beside.updateDegraded (p : Nat) : Beside sideCodes s (s.updateDegraded p) := by
  unfold Dev.updateDegraded
  dsimp only
  refine Beside.trans (Beside.each s _ _ fun gi _ t => ?_) (Beside.setFld _ Fld.GRP_STAT_NDEG _ _ (by decide))
  exact Beside.trans (Beside.ite (fun _ => Beside.raise t _ _ (by decide)) (fun _ => Beside.refl t)) (Beside.setFld _ Fld.GRP_G_DEG _ _ (by decide))

theorem Beside.evalDegraded (p : Nat) (b : Bool) (was : List Nat) : Beside sideCodes s (s.evalDegraded p b was) := by
  unfold Dev.evalDegraded
  split
  · exact Beside.refl s
  · exact (Beside.each s _ _ fun _ _ t => Beside.setFld t Fld.GRP_G_LDEG _ _ (by decide)).trans ((Beside.sendMessages _ _ _).mono wireCodes_side)

end

end Sys2Proof.Machine
end

section
/-!
PROOF. Rolling tests that end or switch back, and a partition whose step aborts.
-/
namespace Sys2Proof.Machine

/-! ### Rolling tests that end or switch back (R19, R471) -/

/-- What the end of rolling tests leaves: the side fields, every count, the chain, the partitions, and no rolling test that there was not. -/
structure Spared (s t : Dev) : Prop where
  aside : Aside sideFields [] s t
  parts : t.parts = s.parts
  swaps : ∀ y ∈ t.spr.swaps, y ∈ s.spr.swaps

/-- Rolling tests end where they stand: memory and cores stay too. -/
structure Dropped (s t : Dev) : Prop where
  spared : Spared s t
  mem : t.mem = s.mem
  cores : t.cores = s.cores

section
variable {s t u : Dev}

theorem Spared.refl (s : Dev) : Spared s s := ⟨Aside.refl s, rfl, fun _ h => h⟩

theorem Spared.trans (h : Spared s t) (g : Spared t u) : Spared s u :=
  ⟨h.aside.trans g.aside, g.parts.trans h.parts, fun y hy => h.swaps y (g.swaps y hy)⟩

theorem Spared.part (h : Spared s t) (p : Nat) : t.part p = s.part p := by unfold Dev.part; rw [h.parts]

theorem Spared.fld (h : Spared s t) (f : Fld) (i : Nat) (hf : f ∈ sideFields) : t.fld f i = s.fld f i := h.aside.fld f hf i

theorem Dropped.refl (s : Dev) : Dropped s s := ⟨Spared.refl s, rfl, rfl⟩

theorem Dropped.trans (h : Dropped s t) (g : Dropped t u) : Dropped s u := ⟨h.spared.trans g.spared, g.mem.trans h.mem, g.cores.trans h.cores⟩

theorem Dropped.ite {b : Prop} [Decidable b] (h : b → Dropped s t) (g : ¬ b → Dropped s u) : Dropped s (if b then t else u) := by
  split
  · exact h ‹_›
  · exact g ‹_›

theorem Dropped.each {α : Type} (s : Dev) (xs : List α) (f : α → Dev → Dev) (h : ∀ x ∈ xs, ∀ t, Dropped t (f x t)) : Dropped s (s.each xs f) :=
  Dev.each_induction (Dropped s) f xs (fun x hx t ht => ht.trans (h x hx t)) s (Dropped.refl s)

theorem Spared.each {α : Type} (s : Dev) (xs : List α) (f : α → Dev → Dev) (h : ∀ x ∈ xs, ∀ t, Spared t (f x t)) : Spared s (s.each xs f) :=
  Dev.each_induction (Spared s) f xs (fun x hx t ht => ht.trans (h x hx t)) s (Spared.refl s)

theorem Spared.setFld (s : Dev) (g : Fld) (i v : Nat) (h : g.clearOf sideFields = true) : Spared s (s.setFld g i v) :=
  ⟨Aside.setFld s g i v h, rfl, fun _ h => h⟩

theorem Spared.setReg (s : Dev) (k : RegKind) (i v : Nat) (h : k.clearOf sideFields = true) : Spared s (s.setReg k i v) :=
  ⟨Aside.setReg s k i v h, rfl, fun _ h => h⟩

theorem Dropped.setFld (s : Dev) (g : Fld) (i v : Nat) (h : g.clearOf sideFields = true) : Dropped s (s.setFld g i v) := ⟨Spared.setFld s g i v h, rfl, rfl⟩

theorem Dropped.closeRecord (s : Dev) (ty tg : Nat) (a : Bool) : Dropped s (s.closeRecord ty tg a) := by
  obtain ⟨o, h⟩ := Dev.closeRecord_eq s ty tg a
  rw [h]
  exact ⟨⟨Aside.of_regs rfl rfl, rfl, fun _ h => h⟩, rfl, rfl⟩

theorem Dropped.dropSwap (s : Dev) (d k : Nat) : Dropped s (s.dropSwap d k) := by
  unfold Dev.dropSwap
  split
  · exact Dropped.refl s
  · refine Dropped.trans ?_ ((Dropped.closeRecord _ _ _ _).trans (Dropped.closeRecord _ _ _ _))
    exact ⟨⟨Aside.of_regs rfl rfl, rfl, fun y hy => (List.mem_filter.1 hy).1⟩, rfl, rfl⟩

theorem Dropped.bumpGen (s : Dev) (d k : Nat) : Dropped s (s.bumpGen d k) := Dropped.setFld s Fld.SPR_CLSTAT_GEN _ _ (by decide)

theorem Dropped.endSwap (s : Dev) (d k : Nat) : Dropped s (s.endSwap d k) :=
  ((Dropped.setFld s Fld.SPR_CLSTAT_SWAP _ _ (by decide)).trans (Dropped.bumpGen _ d k)).trans (Dropped.dropSwap _ d k)

theorem Dropped.endTests (s : Dev) (p : Nat) : Dropped s (s.endTests p) :=
  Dropped.ite (fun _ => Dropped.refl s) (fun _ => Dropped.each s _ _ fun y _ t => Dropped.endSwap t y.die y.cluster)

theorem Dropped.dropCopies (s : Dev) (p : Nat) : Dropped s (s.dropCopies p) := Dropped.each s _ _ fun y _ t => Dropped.dropSwap t y.die y.cluster

theorem Spared.mapSlot (s : Dev) (c n : Nat) : Spared s (s.mapSlot c n) := by
  unfold Dev.mapSlot
  dsimp only
  split
  · exact Spared.setReg s .SPR_REMAP_LO _ _ (by decide)
  · exact Spared.setReg s .SPR_REMAP_HI _ _ (by decide)

theorem Spared.backMap (s : Dev) (y : SwapTest) : Spared s (s.backMap y) :=
  (((Spared.mapSlot s y.core y.tested).trans (Spared.setFld _ Fld.SPR_CLSTAT_SPARE _ _ (by decide))).trans
    (Spared.setFld _ Fld.SPR_CLSTAT_SWAP _ _ (by decide))).trans (Dropped.bumpGen _ _ _).spared

theorem Spared.setMem (s : Dev) (m : Memory) : Spared s (s.setMem m) := ⟨Aside.of_regs rfl rfl, rfl, fun _ h => h⟩
theorem Spared.setCore (s : Dev) (c : Nat) (x : Core) : Spared s (s.setCore c x) := ⟨Aside.of_regs rfl rfl, rfl, fun _ h => h⟩

theorem Spared.swapCore (s : Dev) (c : Nat) : Spared s (s.swapCore c) :=
  (Spared.setCore s c _).trans (Spared.setFld _ Fld.GILL_STAT_FILL _ _ (by decide))

theorem Spared.swapBack (s : Dev) (y : SwapTest) : Spared s (s.swapBack y) :=
  ((((Spared.backMap s y).trans (Spared.setMem _ _)).trans (Spared.swapCore _ _)).trans (Dropped.closeRecord _ _ _ _).spared).trans
    (Dropped.dropSwap _ _ _).spared

theorem Spared.swapsBack (s : Dev) (p : Nat) : Spared s (s.swapsBack p) := by
  refine Spared.each s _ _ fun y _ t => ?_
  split
  · exact Spared.swapBack t y
  · exact Spared.refl t

end

/-- No rolling test of a partition waits to switch back. -/
def Dev.noneBack (s : Dev) (p : Nat) : Prop := ∀ y ∈ s.spr.swaps, y.phase = 5 → s.partOf y.die ≠ p

theorem Dev.swapsBack_noneBack {s : Dev} {p : Nat} (h : s.noneBack p) : s.swapsBack p = s := by
  have hnil : s.spr.swaps.filter (fun t => t.phase == 5 && s.partOf t.die == p) = [] := by
    simp only [List.filter_eq_nil_iff, Bool.and_eq_true, beq_iff_eq, not_and]
    exact h
  unfold Dev.swapsBack
  rw [hnil]
  rfl

theorem Dev.noneBack.keeps {s t : Dev} {p : Nat} (h : s.noneBack p) (hparts : t.fld Fld.HLK_PARTCFG_PARTS 0 = s.fld Fld.HLK_PARTCFG_PARTS 0)
    (hswaps : ∀ y ∈ t.spr.swaps, y ∈ s.spr.swaps) : t.noneBack p := fun y hy h5 => by
  have e : t.partOf y.die = s.partOf y.die := congrArg (fun n => layoutPart n y.die) hparts
  rw [e]
  exact h y (hswaps y hy) h5

/-! ### A partition that stops running (R310) -/

/-- LOADED, with no start pending. -/
def Dev.loadedRegs (s : Dev) (p : Nat) : Dev := (s.setFld Fld.PLAN_STAT_STATE p 2).setPart p { s.part p with start := none, stopReq := false }

theorem Dev.toLoaded_eq (s : Dev) (p : Nat) : s.toLoaded p = (s.loadedRegs p).swapsBack p := rfl

/-- The side fields but PLAN_STAT.STATE. -/
def stayFields : List Fld := sideFields.filter (fun f => decide (f ≠ Fld.PLAN_STAT_STATE))

theorem stayFields_side : ∀ f ∈ stayFields, f ∈ sideFields := fun _ h => (List.mem_filter.1 h).1

section
variable (s : Dev) (p : Nat)

theorem Aside.toLoaded {cs : List Nat} : Aside stayFields cs s (s.toLoaded p) :=
  ((Aside.setFld s _ _ _ (by decide)).trans (Aside.setPart _ _ _)).trans ((Spared.swapsBack (s.loadedRegs p) p).aside.mono stayFields_side (by simp))

theorem Dev.toLoaded_part : (s.toLoaded p).part p = { s.part p with start := none, stopReq := false } := by
  rw [Dev.toLoaded_eq, (Spared.swapsBack _ p).part]
  exact Dev.setPart_self _ _ _

theorem Dev.toLoaded_part_ne {q : Nat} (h : q ≠ p) : (s.toLoaded p).part q = s.part q := by
  rw [Dev.toLoaded_eq, (Spared.swapsBack _ p).part]
  exact Dev.setPart_ne _ _ _ _ h

theorem Dev.toLoaded_planState : (s.toLoaded p).planState p = 2 :=
  ((Spared.swapsBack _ p).fld Fld.PLAN_STAT_STATE p (by decide)).trans (Dev.fld_setFld_self s Fld.PLAN_STAT_STATE p 2 (by decide))

theorem Dev.toLoaded_planState_ne {q : Nat} (h : q ≠ p) : (s.toLoaded p).planState q = s.planState q :=
  ((Spared.swapsBack _ p).fld Fld.PLAN_STAT_STATE q (by decide)).trans (Dev.fld_setFld_inst s _ _ _ _ _ h)

end

/-! ### The abort of a step (R327) -/

/-- The side fields that the abort of a step leaves alone. -/
def abortFields : List Fld :=
  [Fld.STEP_STAT_FRONT, Fld.STEP_STAT_LIMIT, Fld.STEP_STAT_UNCERT, Fld.STEP_CTR_STEP, Fld.STEP_PC_COMMIT_COUNT, Fld.CHN_STAT_STATE, Fld.CHN_COUNT_COUNT,
   Fld.CTL_DIECFG_FENCED, Fld.HLK_PARTCFG_PARTS, Fld.SPR_CLSTAT_SHORT]

/-- The codes of an abort. -/
def abortCodes : List Nat := Ev.STEP_ABORT :: sideCodes

theorem abortFields_side : ∀ f ∈ abortFields, f ∈ sideFields := by decide

section
variable {cs : List Nat} (s : Dev) (p : Nat)

theorem Aside.abortCore {fs : List Fld} (c : Nat) (h : Fld.CORE_STAT_STATE.clearOf fs = true) (hg : Fld.GILL_STAT_FILL.clearOf fs = true)
    (he : Fld.EDGE_STAT_RSTPEND.clearOf fs = true) : Aside fs cs s (s.abortCore c) :=
  (((Aside.setCore s c _).trans (Aside.setFld _ _ _ _ h)).trans (Aside.setFld _ _ _ _ hg)).trans (Aside.setFld _ _ _ _ he)

theorem Beside.undoReversals : Beside cs s (s.undoReversals p) := by
  have mons : ∀ (xs : List Nat) (g : Nat → Nat), Beside cs s (s.each xs fun n s =>
      ((s.setFld Fld.FMT_MON_STATE_FMT (monIdx p n) (g n % 16)).setFld Fld.FMT_MON_STATE_FB (monIdx p n) (g n / 16 % 2)).setFld Fld.FMT_MON_STATE_RVPEND (monIdx p n) 1) :=
    fun xs g => Beside.each s _ _ fun _ _ t => ((Beside.setFld t Fld.FMT_MON_STATE_FMT _ _ (by decide)).trans
      (Beside.setFld _ Fld.FMT_MON_STATE_FB _ _ (by decide))).trans (Beside.setFld _ Fld.FMT_MON_STATE_RVPEND _ _ (by decide))
  unfold Dev.undoReversals
  dsimp only
  refine Beside.trans ?_ (Beside.setPart _ _ _)
  exact Beside.ite (fun _ => mons _ _) (fun _ => (mons _ _).trans (Beside.setFld _ Fld.FMT_BUDGET_USED _ _ (by decide)))

/-- The bound cores aborted. -/
def Dev.coresCut (s : Dev) (p : Nat) : Dev := s.each (s.boundCores p) (fun c s => s.abortCore c)

/-- The registers and the reversals of a step that is cut short. -/
def Dev.regsCut (s : Dev) (p : Nat) : Dev :=
  let s := ((s.undoReversals p).setFld Fld.STEP_STAT_HELD p 0).setFld Fld.STEP_STAT_UNCLEAN p 0
  s.setFld Fld.STEP_STAT_HOLDN p (s.part p).round

theorem Dev.stepCut_eq : s.stepCut p = ((s.coresCut p).regsCut p).setPart p (((s.coresCut p).regsCut p).part p).atEnd := rfl

/-- The side fields that cutting a step short leaves alone. -/
def cutFields : List Fld := Fld.PLAN_STAT_STATE :: Fld.STEP_PC_ABORT_COUNT :: abortFields

theorem cutFields_side : ∀ f ∈ cutFields, f ∈ sideFields := by decide

theorem Aside.coresCut : Aside cutFields cs s (s.coresCut p) := Aside.each s _ _ fun c _ t => Aside.abortCore t c (by decide) (by decide) (by decide)

theorem Aside.regsCut : Aside cutFields cs s (s.regsCut p) :=
  ((((Beside.undoReversals s p).aside.mono cutFields_side (fun _ => id)).trans
    (Aside.setFld _ Fld.STEP_STAT_HELD _ _ (by decide))).trans (Aside.setFld _ Fld.STEP_STAT_UNCLEAN _ _ (by decide))).trans
    (Aside.setFld _ Fld.STEP_STAT_HOLDN _ _ (by decide))

theorem Aside.stepCut : Aside cutFields cs s (s.stepCut p) := ((Aside.coresCut s p).trans (Aside.regsCut _ p)).trans (Aside.setPart _ _ _)

theorem Dev.coresCut_parts : (s.coresCut p).parts = s.parts := Dev.each_keeps (fun t => t.parts) (s.boundCores p) (fun c t => t.abortCore c) (fun _ _ _ => rfl) s
theorem Dev.coresCut_mem : (s.coresCut p).mem = s.mem := Dev.each_keeps (fun t => t.mem) (s.boundCores p) (fun c t => t.abortCore c) (fun _ _ _ => rfl) s
theorem Dev.coresCut_spr : (s.coresCut p).spr = s.spr := Dev.each_keeps (fun t => t.spr) (s.boundCores p) (fun c t => t.abortCore c) (fun _ _ _ => rfl) s

/-- The lanes of an aborted core are those of the last flip. -/
theorem Dev.abortCore_lanes (c : Nat) : ((s.abortCore c).core c).lanes = (s.core c).committed ∧ ((s.abortCore c).core c).committed = (s.core c).committed := by
  have h : (s.abortCore c).core c = _ := Dev.setCore_self s c _
  rw [h]
  exact ⟨rfl, rfl⟩

theorem Dev.abortCore_ne {c d : Nat} (h : d ≠ c) : (s.abortCore c).core d = s.core d := Dev.setCore_ne s _ _ _ h

theorem Dev.coresCut_lanes {c : Nat} (hc : c ∈ s.boundCores p) : ((s.coresCut p).core c).lanes = (s.core c).committed := by
  have keep : ∀ d t, (t.core c).committed = (s.core c).committed → ((Dev.abortCore t d).core c).committed = (s.core c).committed := fun d t ht => by
    by_cases h : c = d
    · subst h; exact (Dev.abortCore_lanes t c).2.trans ht
    · rw [Dev.abortCore_ne t h]; exact ht
  refine Dev.each_establishes_under (fun t => (t.core c).committed = (s.core c).committed) (fun t => (t.core c).lanes = (s.core c).committed) _ hc
    (fun d _ t ht => keep d t ht) (fun t ht => (Dev.abortCore_lanes t c).1.trans ht) (fun d _ t ht hl => ?_) s rfl
  by_cases h : c = d
  · subst h; exact (Dev.abortCore_lanes t c).1.trans ht
  · show ((t.abortCore d).core c).lanes = _
    rw [Dev.abortCore_ne t h]; exact hl

theorem Dev.regsCut_store : (s.regsCut p).mem = s.mem ∧ (s.regsCut p).cores = s.cores ∧ (s.regsCut p).spr = s.spr :=
  ⟨(Beside.undoReversals (cs := []) s p).mem, (Beside.undoReversals (cs := []) s p).cores, (Beside.undoReversals (cs := []) s p).spr⟩

theorem Dev.stepCut_stepping : ((s.stepCut p).part p).stepping = false := by
  rw [Dev.stepCut_eq, Dev.setPart_self]
  rfl

theorem Dev.stepCut_part_ne {q : Nat} (h : q ≠ p) : ((s.stepCut p).part q).own = (s.part q).own := by
  have hcores : (s.coresCut p).part q = s.part q := by unfold Dev.part; rw [Dev.coresCut_parts]
  rw [Dev.stepCut_eq, Dev.setPart_ne _ _ _ _ h, ← hcores]
  exact (Beside.undoReversals (cs := []) _ p).own q

theorem Beside.unresolved (cap : Capture) : Beside sideCodes s (s.unresolved p cap) :=
  ((Beside.raise s _ _ (by decide)).trans (Beside.logRecord _ _ _)).trans (Beside.setFld _ Fld.CHK_STAT_LAST _ _ (by decide))

theorem Beside.noteCaptures : Beside sideCodes s (s.noteCaptures p) := by
  unfold Dev.noteCaptures
  dsimp only
  have noted : ∀ (xs held : List Capture) (n : Nat), let u := s.each xs (fun c s => s.unresolved p c)
      Beside sideCodes s ((u.setPart p { u.part p with captures := held }).setFld Fld.CHK_STAT_NCAP p n) := fun xs held n =>
    ((Beside.each s _ _ fun c _ t => Beside.unresolved t p c).trans (Beside.setPart _ _ _)).trans (Beside.setFld _ Fld.CHK_STAT_NCAP _ _ (by decide))
  exact Beside.ite (fun _ => noted _ _ _) (fun _ => (noted _ _ _).trans (Beside.setFld _ Fld.CHK_STAT_DIAG _ _ (by decide)))

theorem Beside.raiseAbort : Beside abortCodes s (s.raiseAbort p) :=
  Beside.ite (fun _ => Beside.raiseDev s _ (by decide)) (fun _ => Beside.raise s _ _ (by decide))

theorem sideCodes_abort : ∀ c ∈ sideCodes, c ∈ abortCodes := fun _ => List.mem_cons_of_mem _

/-- The step cut short, and the partition's rolling tests ended that have not switched or that a failure ended. -/
def Dev.stepDropped (s : Dev) (p : Nat) : Dev := ((s.stepCut p).dropCopies p).endTests p

theorem Dropped.stepDropped : Dropped (s.stepCut p) (s.stepDropped p) := (Dropped.dropCopies _ p).trans (Dropped.endTests _ p)

/-- The partition LOADED after an abort. -/
def Dev.stepEnded (s : Dev) (p : Nat) : Dev := (s.stepDropped p).toLoaded p

theorem Dev.abortStep_ended : s.abortStep p = (((s.stepEnded p).raiseAbort p).perf .STEP_PC_ABORT p p 1).noteCaptures p := rfl

theorem Aside.stepDropped : Aside cutFields cs s (s.stepDropped p) :=
  (Aside.stepCut s p).trans ((Dropped.stepDropped s p).spared.aside.mono cutFields_side (by simp))

theorem Aside.stepEnded : Aside (Fld.STEP_PC_ABORT_COUNT :: abortFields) cs s (s.stepEnded p) :=
  ((Aside.stepDropped s p).mono (by decide) (fun _ => id)).trans ((Aside.toLoaded _ p).mono (by decide) (fun _ => id))

/-- The telling of an abort: its event, its count and its captures. -/
theorem Aside.tellAbort {fs : List Fld} (h : RegKind.STEP_PC_ABORT.clearOf fs = true) (hu : uncounted fs = true) (hfs : ∀ f ∈ fs, f ∈ sideFields) :
    Aside fs abortCodes s (((s.raiseAbort p).perf .STEP_PC_ABORT p p 1).noteCaptures p) :=
  (((Beside.raiseAbort s p).aside.mono hfs (fun _ => id)).trans (Aside.perf _ _ _ _ _ h hu (by decide))).trans
    ((Beside.noteCaptures _ p).aside.mono hfs sideCodes_abort)

theorem Aside.abortStep : Aside abortFields abortCodes s (s.abortStep p) :=
  ((Aside.stepEnded s p).mono (by decide) (fun _ => id)).trans (Aside.tellAbort _ p (by decide) (by decide) abortFields_side)

theorem Dev.perf_own (k : RegKind) (i d n q : Nat) : ((s.perf k i d n).part q).own = (s.part q).own := by rw [Dev.perf_part]

theorem Dev.tellAbort_own (q : Nat) : ((((s.raiseAbort p).perf .STEP_PC_ABORT p p 1).noteCaptures p).part q).own = (s.part q).own :=
  ((Beside.noteCaptures _ p).own q).trans ((Dev.perf_own _ _ _ _ _ q).trans ((Beside.raiseAbort s p).own q))

theorem Dev.tellAbort_planState (q : Nat) : (((s.raiseAbort p).perf .STEP_PC_ABORT p p 1).noteCaptures p).planState q = s.planState q :=
  (Aside.tellAbort (fs := [Fld.PLAN_STAT_STATE]) s p (by decide) (by decide) (by decide)).fld _ List.mem_cons_self q

theorem Dev.tellAbort_part {α : Type} (q : Nat) (f : Part → α) (hf : ∀ x : Part, f x.own = f x) :
    f ((((s.raiseAbort p).perf .STEP_PC_ABORT p p 1).noteCaptures p).part q) = f (s.part q) :=
  Part.view_of_own (Dev.tellAbort_own s p q) f hf

theorem Dev.stepEnded_part : (s.stepEnded p).part p = { (s.stepDropped p).part p with start := none, stopReq := false } := by
  unfold Dev.stepEnded
  exact Dev.toLoaded_part _ p

theorem Dev.stepEnded_stepping : ((s.stepEnded p).part p).stepping = false := by
  rw [Dev.stepEnded_part, (Dropped.stepDropped s p).spared.part]
  exact Dev.stepCut_stepping s p

theorem Dev.stepEnded_planState : (s.stepEnded p).planState p = 2 := by
  unfold Dev.stepEnded
  exact Dev.toLoaded_planState _ p

theorem Dev.stepEnded_planState_ne {q : Nat} (h : q ≠ p) : (s.stepEnded p).planState q = s.planState q := by
  unfold Dev.stepEnded
  exact (Dev.toLoaded_planState_ne _ p h).trans ((Aside.stepDropped (cs := []) s p).fld Fld.PLAN_STAT_STATE (by decide) q)

theorem Dev.stepEnded_part_ne {q : Nat} (h : q ≠ p) : ((s.stepEnded p).part q).own = (s.part q).own := by
  have e : (s.stepEnded p).part q = (s.stepCut p).part q := by
    unfold Dev.stepEnded
    rw [Dev.toLoaded_part_ne _ p h, (Dropped.stepDropped s p).spared.part]
  rw [e]
  exact Dev.stepCut_part_ne s p h

/-! The partition is LOADED, with no step and no start; the others are as they were. -/

theorem Dev.abortStep_planState : (s.abortStep p).planState p = 2 := by
  rw [Dev.abortStep_ended, Dev.tellAbort_planState, Dev.stepEnded_planState]

theorem Dev.abortStep_planState_ne {q : Nat} (h : q ≠ p) : (s.abortStep p).planState q = s.planState q := by
  rw [Dev.abortStep_ended, Dev.tellAbort_planState, Dev.stepEnded_planState_ne s p h]

theorem Dev.abortStep_stepping : ((s.abortStep p).part p).stepping = false := by
  rw [Dev.abortStep_ended, Dev.tellAbort_part _ p p Part.stepping (fun _ => rfl), Dev.stepEnded_stepping]

theorem Dev.abortStep_start : ((s.abortStep p).part p).start = none := by
  rw [Dev.abortStep_ended, Dev.tellAbort_part _ p p Part.start (fun _ => rfl), Dev.stepEnded_part]

theorem Dev.abortStep_part_ne {q : Nat} (h : q ≠ p) : ((s.abortStep p).part q).own = (s.part q).own := by
  rw [Dev.abortStep_ended, Dev.tellAbort_own, Dev.stepEnded_part_ne s p h]

/-! Where the partition's lowest die is not fenced, its event counts (R345). -/

theorem Dev.abortStep_event (h : s.fenced p = false) : (s.abortStep p).events p Ev.STEP_ABORT = min 0xFFFFFFFF (s.events p Ev.STEP_ABORT + 1) := by
  have hended := Aside.stepEnded (cs := []) s p
  have hfenced : (s.stepEnded p).fenced p = false := by
    unfold Dev.fenced Dev.flag
    rw [hended.fld Fld.CTL_DIECFG_FENCED (by decide)]
    exact h
  have hraise : (s.stepEnded p).raiseAbort p = (s.stepEnded p).raise p Ev.STEP_ABORT := by
    unfold Dev.raiseAbort
    rw [hfenced]
    rfl
  have hperf := (Aside.perf (fs := []) (cs := sideCodes) ((s.stepEnded p).raiseAbort p) .STEP_PC_ABORT p p 1 (by decide) (by decide) (by decide)).events p
    Ev.STEP_ABORT (by decide) (by decide)
  rw [Dev.abortStep_ended, (Beside.noteCaptures _ p).aside.events p _ (by decide) (by decide), hperf, hraise, Dev.raise_events,
    hended.events p _ (by decide) (by simp)]

/-- The low 48 bits of a counter, from its COUNT. -/
theorem Dev.low48_of_fld {s t : Dev} (k : RegKind) {i : Nat} (h : t.fld ⟨k, 0, 48⟩ i = s.fld ⟨k, 0, 48⟩ i) : t.reg k i % 2 ^ 48 = s.reg k i % 2 ^ 48 := by
  simpa [Dev.fld] using h

theorem Dev.abortStep_count : (s.abortStep p).reg .STEP_PC_ABORT p % 2 ^ 48 = (s.reg .STEP_PC_ABORT p + 1) % 2 ^ 48 := by
  have hended := (Aside.stepEnded (cs := []) s p).fld Fld.STEP_PC_ABORT_COUNT (by decide) p
  have hraise := (Beside.raiseAbort (s.stepEnded p) p).fld Fld.STEP_PC_ABORT_COUNT p (by decide)
  rw [Dev.abortStep_ended, Dev.low48_of_fld _ ((Beside.noteCaptures _ p).fld Fld.STEP_PC_ABORT_COUNT p (by decide)), Dev.perf_self _ _ _ _ _ rfl, Nat.add_mod,
    Dev.low48_of_fld _ (hraise.trans hended), ← Nat.add_mod]

/-! Where no rolling test waits to switch back, memory stays and the lanes of the bound cores are those of the last flip. -/

theorem Dev.stepEnded_noneBack (h : s.noneBack p) : s.stepEnded p = (s.stepDropped p).loadedRegs p := by
  refine Dev.swapsBack_noneBack (s := (s.stepDropped p).loadedRegs p) (h.keeps ?_ fun y hy => ?_)
  · calc ((s.stepDropped p).loadedRegs p).fld Fld.HLK_PARTCFG_PARTS 0
      _ = (s.stepDropped p).fld Fld.HLK_PARTCFG_PARTS 0 := Dev.fld_setFld_kind _ _ _ _ _ _ (by decide)
      _ = s.fld Fld.HLK_PARTCFG_PARTS 0 := (Aside.stepDropped (cs := []) s p).fld _ (by decide) 0
  · have hspr : (s.stepCut p).spr = s.spr := ((s.coresCut p).regsCut_store p).2.2.trans (s.coresCut_spr p)
    exact hspr ▸ (Dropped.stepDropped s p).spared.swaps y hy

theorem Dev.abortStep_store (h : s.noneBack p) : (s.abortStep p).mem = s.mem ∧ (s.abortStep p).cores = (s.coresCut p).cores := by
  obtain ⟨hmem, hcores, -⟩ := (s.coresCut p).regsCut_store p
  have tell := (Beside.raiseAbort (s.stepEnded p) p)
  have note := Beside.noteCaptures (((s.stepEnded p).raiseAbort p).perf .STEP_PC_ABORT p p 1) p
  rw [Dev.abortStep_ended]
  constructor
  · calc _ = (s.stepEnded p).mem := note.mem.trans ((Dev.perf_mem ..).trans tell.mem)
      _ = ((s.stepDropped p).loadedRegs p).mem := by rw [Dev.stepEnded_noneBack s p h]
      _ = (s.stepCut p).mem := (Dropped.stepDropped s p).mem
      _ = s.mem := hmem.trans (s.coresCut_mem p)
  · calc _ = (s.stepEnded p).cores := note.cores.trans ((Dev.perf_cores ..).trans tell.cores)
      _ = ((s.stepDropped p).loadedRegs p).cores := by rw [Dev.stepEnded_noneBack s p h]
      _ = (s.stepCut p).cores := (Dropped.stepDropped s p).cores
      _ = (s.coresCut p).cores := hcores

theorem Dev.abortStep_lanes (h : s.noneBack p) {c : Nat} (hc : c ∈ s.boundCores p) : ((s.abortStep p).core c).lanes = (s.core c).committed := by
  have e : (s.abortStep p).core c = (s.coresCut p).core c := by unfold Dev.core; rw [(s.abortStep_store p h).2]
  rw [e, s.coresCut_lanes p hc]

end

end Sys2Proof.Machine
end

section
/-!
PROOF. The chain: its symbols, its beats, its holdover and its loss (R302 to R307, R350, R591).
-/
namespace Sys2Proof.Machine

/-- An update of the chain alone. -/
theorem Frame.setChain (s : Dev) (x : Chain) : Frame { chain := True } s { s with chain := x } :=
  ⟨fun _ _ _ _ => rfl, fun _ _ => rfl, fun _ _ => rfl, fun _ _ => rfl, fun _ _ => rfl, fun h => absurd trivial h, fun _ => rfl, fun _ => rfl,
    fun _ => rfl, fun _ => rfl, rfl⟩

/-! ### A symbol that arrives (R303 to R306) -/

/-- What a symbol makes the MATCH ports of CHN_FWD send (R305). -/
def Dev.forwards (s : Dev) (v acc : Nat) : List Out :=
  ((List.range 36).filter (fun q => (s.reg .CHN_FWD 0).testBit q && s.fld Fld.FAB_PORT_STAT_PLAN q == planMatch)).map
    (fun q => Out.fabChain q (putBits v 64 16 (min acc 0xFFFF)) (s.fabPort q).link.lastSeq)

theorem Dev.each_emit (qs : List Nat) (g : Nat → FabPortSt → Out) (s : Dev) :
    s.each qs (fun q t => t.emit (g q (t.fabPort q))) = { s with out := s.out ++ qs.map (fun q => g q (s.fabPort q)) } := by
  induction qs generalizing s with
  | nil => simp [Dev.each]
  | cons q qs ih =>
    refine (ih (s.emit (g q (s.fabPort q)))).trans ?_
    simp [Dev.emit, Dev.fabPort]

theorem Dev.forwardSymbol_eq (s : Dev) (v acc : Nat) : s.forwardSymbol v acc = { s with out := s.out ++ s.forwards v acc } :=
  Dev.each_emit _ (fun q f => .fabChain q (putBits v 64 16 (min acc 0xFFFF)) f.link.lastSeq) s

theorem Dev.forwardSymbol_count (s : Dev) (v acc : Nat) : (s.forwardSymbol v acc).chainCount = s.chainCount := by
  rw [Dev.forwardSymbol_eq]
  rfl

section
variable (u : Dev) (input v residence : Nat) {δ : Nat}

/-- The time a symbol would be applied at, by its accumulated delay on arrival (R304). -/
def Dev.applyTime (u : Dev) (v δ : Nat) : Int := u.now + u.fld Fld.CHN_CFG_HORIZON 0 - (symAcc v + δ : Nat)

/-- A symbol that its input brings, of the chain's period and identifier, while the chain runs. -/
structure Dev.hears (u : Dev) (input v δ : Nat) : Prop where
  on : u.chainOn = true
  named : u.inputDelay input = some δ
  ok : u.symbolOk v = true

variable {u input v} (h : u.hears input v δ)
include h

theorem Dev.chainSymbol_late (hacc : u.fld Fld.CHN_CFG_HORIZON 0 < symAcc v + δ) :
    u.chainSymbol input v residence = u.raiseDev Ev.CHAIN_HORIZON := by
  obtain ⟨hon, hδ, hok⟩ := h
  simp [Dev.chainSymbol, hon, hδ, hok, hacc]

/-- A new symbol in time, in a chain that keeps time, goes on and is compared. -/
theorem Dev.chainSymbol_tracked (hacc : symAcc v + δ ≤ u.fld Fld.CHN_CFG_HORIZON 0) (hdup : u.dupCount (symCount v) = false)
    (hold : u.oldCount (symCount v) = false) (hst : 2 ≤ u.chnState) :
    u.chainSymbol input v residence = (u.forwardSymbol v (symAcc v + δ + residence)).tracked (symCount v) (u.applyTime v δ) input := by
  obtain ⟨hon, hδ, hok⟩ := h
  have hfwd : (u.forwardSymbol v (symAcc v + δ + residence)).chnState = u.chnState := by rw [Dev.forwardSymbol_eq]; rfl
  simp [Dev.chainSymbol, hon, hδ, hok, Nat.not_lt.2 hacc, hdup, hold, hfwd, Nat.not_lt.2 hst, Dev.applyTime]

end

/-- A symbol of the expected count in its window waits, and only what is due stays counted (R306). -/
theorem Dev.tracked_expected {s : Dev} {c input : Nat} {at_ : Int} (h : s.expectedCount at_ = (c, true)) :
    s.tracked c at_ input = { s with chain := { s.chain with
      waiting := s.chain.waiting ++ [⟨BitVec.ofNat 64 c, at_, input⟩]
      conflicts := if 16 ≤ s.chain.conflicts then s.chain.conflicts else 0 } } := by
  simp [Dev.tracked, h, Dev.waitSymbol]

theorem Dev.tracked_differs {s : Dev} {c : Nat} {at_ : Int} (input : Nat) (h : (s.expectedCount at_).1 ≠ c) :
    s.tracked c at_ input = { s with chain := { s.chain with conflicts := s.chain.conflicts + 1 } } := by
  simp [Dev.tracked, h.symm, Dev.differs]

theorem Frame.forwarded (s : Dev) (v acc : Nat) (x : Chain) : Frame { chain := True } s { s.forwardSymbol v acc with chain := x } := by
  rw [Dev.forwardSymbol_eq]
  exact (Frame.quiet _ (Quiet.out s _)).trans (Frame.setChain _ x)

/-! ### Where a symbol comes from (R350, R591) -/

/-- A frame that its line carries right and that begins after the one before has ended. -/
theorem frame_fair {s : Dev} {f : BitVec 184} :
    (frameNum f 0 3 = 0xD55555 ∧ crc32 (leBytes 16 (frameNum f 3 16)) = frameNum f 19 4 ∧ ∀ t, s.chain.frameAt = some t → t + 589 ≤ s.now) ↔
      (!frameOk f || s.frameOverlaps) = false := by
  have h : s.frameOverlaps = false ↔ ∀ t, s.chain.frameAt = some t → t + 589 ≤ s.now := by
    unfold Dev.frameOverlaps
    cases s.chain.frameAt <;> simp
  rw [Bool.or_eq_false_iff, h]
  simp [frameOk, and_assoc]

theorem Dev.chainFrame_fair {s : Dev} {f : BitVec 184} (residence : Nat) (h : (!frameOk f || s.frameOverlaps) = false) :
    s.chainFrame f residence = ({ s with chain := { s.chain with frameAt := some s.now } } : Dev).chainSymbol 0x3E (frameNum f 3 16) residence := by
  unfold Dev.chainFrame
  simp only [h]
  rfl

theorem Dev.chainFrame_discarded {s : Dev} {f : BitVec 184} (residence : Nat) (h : (!frameOk f || s.frameOverlaps) = true) :
    s.chainFrame f residence = { s with chain := { s.chain with frameAt := some s.now } } := by
  unfold Dev.chainFrame
  simp only [h]
  rfl

theorem Dev.chainFlit_symbol {s : Dev} {port : Nat} {fl : Flit} (residence : Nat) (hawake : s.fabAwake port = true) (hctl : flitNum fl 0 1 = 0x3C)
    (hcrc : flitCrcOk fl = true) (htype : flitNum fl 1 1 = 3) :
    s.chainFlit port fl residence = (s.fabFlit port fl).chainSymbol port (flitNum fl 8 16) residence := by
  simp [Dev.chainFlit, hawake, hctl, hcrc, htype]

/-! ### Model time, the state and the count of the chain -/

section
variable (s : Dev)

theorem Dev.reach_keeps {β : Type} (f : Dev → β) (hnow : ∀ t n, f { t with now := n } = f t) (hflit : ∀ q t, f (Dev.fabLinkFlit t q false) = f t) (at_ : Int) :
    f (s.reach at_) = f s := by
  unfold Dev.reach
  dsimp only
  rw [hnow]
  exact Dev.each_keeps f _ _ (fun _ _ t => (Dev.each_keeps f _ _ (fun q _ t => hflit q t) _).trans (hnow t _)) s

theorem Dev.reach_regs (at_ : Int) : (s.reach at_).regs = s.regs := s.reach_keeps (fun t => t.regs) (fun _ _ => rfl) (fun _ _ => rfl) at_
theorem Dev.reach_chain (at_ : Int) : (s.reach at_).chain = s.chain := s.reach_keeps (fun t => t.chain) (fun _ _ => rfl) (fun _ _ => rfl) at_

theorem Aside.reach {fs : List Fld} {cs : List Nat} (at_ : Int) : Aside fs cs s (s.reach at_) := Aside.of_regs (s.reach_regs at_) (s.reach_chain at_)

theorem Dev.reach_count (at_ : Int) : (s.reach at_).chainCount = s.chainCount := by
  unfold Dev.chainCount Dev.reg
  rw [s.reach_regs]

theorem Aside.setChn {fs : List Fld} {cs : List Nat} (st : Nat) (hst : Fld.CHN_STAT_STATE.clearOf fs = true) (hm : Fld.CTL_CSTAT_MISSED.clearOf fs = true) :
    Aside fs cs s (s.setChn st) :=
  Aside.ite (fun _ => Aside.setFld s _ _ _ hst) (fun _ => (Aside.setFld s _ _ _ hst).trans (Aside.each _ _ _ fun d _ t => Aside.setFld t _ d 0 hm))

theorem Dev.setChn_state {st : Nat} (h : st < 8) : (s.setChn st).chnState = st := by
  have set : (s.setFld Fld.CHN_STAT_STATE 0 st).chnState = st := (Dev.fld_setFld_self s Fld.CHN_STAT_STATE 0 st (by decide)).trans (Nat.mod_eq_of_lt h)
  unfold Dev.setChn
  dsimp only
  split
  · exact set
  · refine Eq.trans ?_ set
    exact (Dev.each_keeps Dev.chnState _ _ (fun d _ t => Dev.fld_setFld_kind t _ _ _ _ _ (by decide)) _)

theorem Dev.setChn_parts (st : Nat) : (s.setChn st).parts = s.parts := by
  unfold Dev.setChn
  dsimp only
  split
  · rfl
  · exact Dev.each_keeps (fun t => t.parts) (List.range 6) (fun d t => t.setFld Fld.CTL_CSTAT_MISSED d 0) (fun _ _ _ => rfl) _

theorem Dev.chainCount_lt : s.chainCount < 2 ^ 64 := s.reg_lt .CHN_COUNT 0

theorem Dev.chainCount_fld : s.fld Fld.CHN_COUNT_COUNT 0 = s.chainCount := by
  have h := Nat.mod_eq_of_lt s.chainCount_lt
  unfold Dev.fld
  simpa [Fld.CHN_COUNT_COUNT, Dev.chainCount] using h

theorem Aside.setCount {fs : List Fld} {cs : List Nat} (c : Nat) (h : RegKind.CHN_COUNT.clearOf fs = true) (hu : uncounted fs = true) (hc : Ev.CHAIN_EPOCH ∈ cs) :
    Aside fs cs s (s.setCount c) :=
  Aside.ite (fun _ => (Aside.setReg s _ _ _ h).trans (Aside.raiseDev _ _ hu hc)) (fun _ => Aside.setReg s _ _ _ h)

theorem Dev.setCount_count (c : Nat) : (s.setCount c).chainCount = c % 2 ^ 64 := by
  have set : (s.setReg .CHN_COUNT 0 c).chainCount = c % 2 ^ 64 := Dev.reg_setReg_self s .CHN_COUNT 0 c
  unfold Dev.setCount
  dsimp only
  split
  · exact ((Quiet.raiseDev _ Ev.CHAIN_EPOCH).reg .CHN_COUNT 0 rfl).trans set
  · exact set

end

/-! ### Beats of the chain and of the local clock (R304, R306) -/

/-- The codes of a beat. -/
def beatCodes : List Nat := [Ev.CHAIN_EPOCH, Ev.PERF_WRAP]

/-- The count and its registers at a beat made locally. -/
def Dev.beatRegs (s : Dev) : Dev :=
  let s := (s.setCount ((s.chainCount + 1) % 2 ^ 64)).perfDev .CHN_PC_MISS 0 1
  s.setFld Fld.CHN_STAT_HOLD 0 (min 65536 (s.fld Fld.CHN_STAT_HOLD 0 + 1))

section
variable (s : Dev)

theorem Dev.localBeat_eq : s.localBeat = { s.beatRegs with chain := { s.beatRegs.chain with lastBeat := s.beatRegs.chain.lastBeat + s.beatRegs.beatUnits } } := rfl

theorem Aside.beatCount {fs : List Fld} (h : RegKind.CHN_COUNT.clearOf fs = true) (hm : RegKind.CHN_PC_MISS.clearOf fs = true) (hu : uncounted fs = true) :
    Aside fs beatCodes s ((s.setCount ((s.chainCount + 1) % 2 ^ 64)).perfDev .CHN_PC_MISS 0 1) :=
  (Aside.setCount s _ h hu (by decide)).trans (Aside.perfDev _ _ _ _ hm hu (by decide))

/-- The fields that a beat reads. -/
def beatFields : List Fld := [Fld.CHN_STAT_STATE, Fld.CHN_CTL_PERIOD]

theorem Aside.beatRegs : Aside beatFields beatCodes s s.beatRegs :=
  (Aside.beatCount s (by decide) (by decide) (by decide)).trans (Aside.setFld _ Fld.CHN_STAT_HOLD _ _ (by decide))

theorem Dev.localBeat_chain : s.localBeat.chain = { s.chain with lastBeat := s.chain.lastBeat + s.beatUnits } := by
  have hperiod : s.beatRegs.beatUnits = s.beatUnits := congrArg (fun n => 4 * 2 ^ (8 + n)) ((Aside.beatRegs s).fld Fld.CHN_CTL_PERIOD (by decide) 0)
  rw [Dev.localBeat_eq, (Aside.beatRegs s).chain, hperiod]

theorem Dev.localBeat_state : s.localBeat.chnState = s.chnState := (Aside.beatRegs s).fld Fld.CHN_STAT_STATE (by decide) 0

theorem Dev.localBeat_eventsDev {c : Nat} (h : c ∉ beatCodes) : s.localBeat.eventsDev c = s.eventsDev c := (Aside.beatRegs s).eventsDev c h

theorem Dev.perfDev_fld (k : RegKind) (i n : Nat) (f : Fld) (j : Nat) (h : f.reg.counting = false) (hk : f.reg ≠ k) :
    (s.perfDev k i n).fld f j = s.fld f j := by
  unfold Dev.perfDev
  dsimp only
  split
  · exact ((Quiet.raiseDev _ _).fld f j h).trans (Dev.fld_setReg_kind _ f k i j _ hk)
  · exact Dev.fld_setReg_kind _ f k i j _ hk

theorem Dev.localBeat_count : s.localBeat.chainCount = (s.chainCount + 1) % 2 ^ 64 := by
  have hcount : s.beatRegs.fld Fld.CHN_COUNT_COUNT 0 = (s.setCount ((s.chainCount + 1) % 2 ^ 64)).fld Fld.CHN_COUNT_COUNT 0 :=
    (Dev.fld_setFld_kind _ _ _ _ _ _ (by decide)).trans (Dev.perfDev_fld _ _ _ _ _ _ rfl (by decide))
  calc s.localBeat.chainCount = s.beatRegs.chainCount := rfl
    _ = (s.setCount ((s.chainCount + 1) % 2 ^ 64)).chainCount := by rw [← Dev.chainCount_fld, hcount, Dev.chainCount_fld]
    _ = (s.chainCount + 1) % 2 ^ 64 := by rw [Dev.setCount_count, Nat.mod_mod]

theorem Dev.localBeat_hold : s.localBeat.fld Fld.CHN_STAT_HOLD 0 = min 65536 (s.fld Fld.CHN_STAT_HOLD 0 + 1) := by
  have hhold := (Aside.beatCount (fs := [Fld.CHN_STAT_HOLD]) s (by decide) (by decide) (by decide)).fld _ List.mem_cons_self 0
  have hset := Dev.fld_setFld_self ((s.setCount ((s.chainCount + 1) % 2 ^ 64)).perfDev .CHN_PC_MISS 0 1) Fld.CHN_STAT_HOLD 0
    (min 65536 (s.fld Fld.CHN_STAT_HOLD 0 + 1)) (by decide)
  calc s.localBeat.fld Fld.CHN_STAT_HOLD 0 = min 65536 (s.fld Fld.CHN_STAT_HOLD 0 + 1) % 2 ^ 17 := by rw [← hhold] at hset ⊢; exact hset
    _ = min 65536 (s.fld Fld.CHN_STAT_HOLD 0 + 1) := Nat.mod_eq_of_lt (by omega)

end

end Sys2Proof.Machine
end

section
/-!
PROOF. The beats of the chain as commands, its loss and its conflict (R304 to R307, R310).
-/
namespace Sys2Proof.Machine

/-! ### Beats (R304 to R306) -/

section
variable {s : Dev}

/-- What the beat of a waiting symbol does to a locked chain that it takes on. -/
theorem Dev.beatApply_locked {w : WaitSym} (hw : s.chain.nextSym = some w) (hst : s.chnState = chnLocked) (hold : s.oldCount w.count.toNat = false) :
    s.beatApply =
      (let t := ((({ s with chain := { s.chain with waiting := s.chain.waiting.erase w } } : Dev).reach w.at_).setCount w.count.toNat).setFld
        Fld.CHN_STAT_SRCPORT 0 w.input
      { t with chain := { t.chain with lastApplied := some w.count, lastBeat := w.at_, run := 0, conflicts := t.chain.conflicts } }) := by
  have hst' : Dev.chnState { s with chain := { s.chain with waiting := s.chain.waiting.erase w } } = 2 := hst
  have hold' : Dev.oldCount { s with chain := { s.chain with waiting := s.chain.waiting.erase w } } w.count.toNat = false := hold
  unfold Dev.beatApply
  simp only [hw, hst', hold', chnLocked, chnUnlocked, chnAcquiring]
  simp

theorem Dev.setCount_now (c : Nat) : (s.setCount c).now = s.now := by
  unfold Dev.setCount
  dsimp only
  split
  · exact (Quiet.raiseDev _ _).now
  · rfl

/-- A beat of a master that has none on its way. -/
theorem Dev.masterBeat_eq (hon : s.chainOn = true) (hin : s.chain.inForce = true) (hsrc : s.fld Fld.CHN_CTL_SRC 0 = 3) (hnone : s.chain.waiting = []) :
    ∃ v, s.masterBeat = { s.forwardSymbol v 0 with chain := { s.chain with
      waiting := [⟨BitVec.ofNat 64 ((s.chainCount + 1) % 2 ^ 64), s.now + s.fld Fld.CHN_CFG_HORIZON 0, 0x3F⟩] } } := by
  refine ⟨(s.chainCount + 1) % 2 ^ 64 + 2 ^ 80 * s.fld Fld.CHN_CTL_PERIOD 0 + 2 ^ 96 * s.fld Fld.CHN_CFG_MID 0, ?_⟩
  unfold Dev.masterBeat
  simp [hon, hin, hsrc, hnone, Dev.waitSymbol, Dev.forwardSymbol_eq]

/-- A locked window without its symbol begins holdover, which makes the beat. -/
theorem Dev.windowMiss_eq (hst : s.chnState = chnLocked) (hsrc : s.fld Fld.CHN_CTL_SRC 0 ≠ 3)
    (hnone : ∀ w ∈ s.chain.waiting, w.count.toNat ≠ (s.chainCount + 1) % 2 ^ 64) :
    s.windowMiss =
      (let t := (((s.setChn chnHoldover).raiseDev Ev.CHAIN_HOLDOVER).setFld Fld.CHN_STAT_HOLD 0 0).localBeat
       t.reach (t.chain.lastBeat + t.beatUnits / 8)) := by
  have hany : (s.chain.waiting.any fun w => w.count.toNat == (s.chainCount + 1) % 2 ^ 64) = false := by
    simpa only [List.any_eq_false, beq_iff_eq] using hnone
  have h : ¬ (s.chnState ≠ chnLocked ∨ s.fld Fld.CHN_CTL_SRC 0 = 3 ∨ (s.chain.waiting.any fun w => w.count.toNat == (s.chainCount + 1) % 2 ^ 64) = true) := by
    simp only [hst, hsrc, hany]
    simp
  unfold Dev.windowMiss
  rw [if_neg h]

/-- The chain as holdover begins. -/
def Dev.heldOver (s : Dev) : Dev := ((s.setChn chnHoldover).raiseDev Ev.CHAIN_HOLDOVER).setFld Fld.CHN_STAT_HOLD 0 0

theorem Dev.heldOver_state (s : Dev) : s.heldOver.chnState = chnHoldover :=
  (Dev.fld_setFld_of_apart _ 0 0 0 (by decide) (by decide)).trans (((Quiet.raiseDev _ _).fld _ _ rfl).trans (s.setChn_state (by decide)))

theorem Dev.heldOver_hold (s : Dev) : s.heldOver.fld Fld.CHN_STAT_HOLD 0 = 0 := Dev.fld_setFld_self _ _ 0 0 (by decide)

theorem Aside.heldOver (s : Dev) : Aside [Fld.CHN_COUNT_COUNT, Fld.CHN_CTL_PERIOD] [Ev.CHAIN_HOLDOVER] s s.heldOver :=
  ((Aside.setChn s _ (by decide) (by decide)).trans (Aside.raiseDev _ _ (by decide) (by decide))).trans (Aside.setFld _ Fld.CHN_STAT_HOLD _ _ (by decide))

theorem Dev.heldOver_event (s : Dev) : s.heldOver.eventsDev Ev.CHAIN_HOLDOVER = min 0xFFFFFFFF (s.eventsDev Ev.CHAIN_HOLDOVER + 1) := by
  have hset := (Aside.setChn (fs := []) (cs := []) s chnHoldover (by decide) (by decide)).eventsDev Ev.CHAIN_HOLDOVER (by simp)
  calc s.heldOver.eventsDev Ev.CHAIN_HOLDOVER = ((s.setChn chnHoldover).raiseDev Ev.CHAIN_HOLDOVER).eventsDev Ev.CHAIN_HOLDOVER :=
        (Aside.setFld (fs := []) (cs := []) _ Fld.CHN_STAT_HOLD 0 0 (by decide)).eventsDev _ (by simp)
    _ = min 0xFFFFFFFF (s.eventsDev Ev.CHAIN_HOLDOVER + 1) := by rw [Dev.raiseDev_eventsDev, hset]

end

/-! ### Partitions of a chain that is lost or in conflict (R307, R310) -/

/-- Of updates of which only one's own changes what is seen of it, the fold shows what that one does. -/
theorem Dev.each_view {β : Type} (view : Dev → β) (f : Nat → Dev → Dev) {xs : List Nat} {x : Nat} (hx : x ∈ xs) (hn : xs.Nodup)
    (hother : ∀ y, y ≠ x → ∀ t, view (f y t) = view t) (s : Dev) : ∃ t, view t = view s ∧ view (s.each xs f) = view (f x t) := by
  induction xs generalizing s with
  | nil => cases hx
  | cons y ys ih =>
    obtain ⟨hy, hn⟩ := List.nodup_cons.1 hn
    rcases List.mem_cons.1 hx with rfl | hx
    · exact ⟨s, rfl, Dev.each_keeps view ys f (fun z hz t => hother z (fun e => hy (e ▸ hz)) t) _⟩
    · obtain ⟨t, ht, he⟩ := ih hx hn (f y s)
      exact ⟨t, ht.trans (hother y (fun e => hy (e ▸ hx)) s), he⟩

theorem Dev.partitions_nodup (s : Dev) : s.partitions.Nodup := List.nodup_range.filter _

/-- What the loss of the chain does to a partition: a start is cancelled, a step is the last. -/
def Dev.stopRun (s : Dev) (p : Nat) : Dev :=
  if s.planState p ≠ 3 then s
  else if (s.part p).stepping then s.setPart p { s.part p with stopReq := true }
  else s.toLoaded p

/-- The fields of the chain's state. -/
def chainFields : List Fld := [Fld.CHN_STAT_STATE, Fld.CHN_COUNT_COUNT]

section
variable (s : Dev) (p : Nat)

theorem Aside.stopRun {cs : List Nat} : Aside chainFields cs s (s.stopRun p) := by
  unfold Dev.stopRun
  refine Aside.ite (fun _ => Aside.refl s) fun _ => Aside.ite (fun _ => Aside.setPart s _ _) fun _ => ?_
  exact (Aside.toLoaded s p).mono (by decide) (fun _ => id)

theorem Dev.stopRun_ne {q : Nat} (h : p ≠ q) : ((s.stopRun q).planState p, (s.stopRun q).part p) = (s.planState p, s.part p) := by
  unfold Dev.stopRun
  split
  · rfl
  split
  · rw [Dev.setPart_ne _ _ _ _ h]; rfl
  · rw [Dev.toLoaded_planState_ne s q h, Dev.toLoaded_part_ne s q h]

theorem Dev.stopRun_start (hplan : s.planState p = 3) (hstep : (s.part p).stepping = false) : s.stopRun p = s.toLoaded p := by
  simp [Dev.stopRun, hplan, hstep]

theorem Dev.stopRun_step (hplan : s.planState p = 3) (hstep : (s.part p).stepping = true) :
    s.stopRun p = s.setPart p { s.part p with stopReq := true } := by
  simp [Dev.stopRun, hplan, hstep]

end

/-- The chain as it is lost, before the partitions stop. -/
def Dev.outOfTime (s : Dev) : Dev := (s.setChn chnLost).raiseDev Ev.CHAIN_LOST

theorem Dev.chainLost_eq {s : Dev} (hst : s.chnState = chnHoldover) (hhold : 65536 ≤ s.fld Fld.CHN_STAT_HOLD 0) :
    s.chainLost = s.outOfTime.each s.partitions (fun p t => t.stopRun p) := by
  have hparts : s.outOfTime.partitions = s.partitions := by
    have h : s.outOfTime.fld Fld.HLK_PARTCFG_PARTS 0 = s.fld Fld.HLK_PARTCFG_PARTS 0 :=
      ((Quiet.raiseDev _ _).fld _ _ rfl).trans ((Aside.setChn (fs := [Fld.HLK_PARTCFG_PARTS]) (cs := []) s _ (by decide) (by decide)).fld _ List.mem_cons_self 0)
    unfold Dev.partitions Dev.partOf Dev.nparts
    rw [h]
  have hgo : ¬ (s.chnState ≠ chnHoldover ∨ s.fld Fld.CHN_STAT_HOLD 0 < 65536) := by omega
  unfold Dev.chainLost
  rw [if_neg hgo, ← hparts]
  rfl

/-! ### Conflict -/

/-- The codes of the partitions' ends in a conflict. -/
def conflictCodes : List Nat := Ev.COMMIT_UNCERTAIN :: abortCodes

theorem abortCodes_conflict : ∀ c ∈ abortCodes, c ∈ conflictCodes := fun _ => List.mem_cons_of_mem _
theorem wireCodes_conflict : ∀ c ∈ wireCodes, c ∈ conflictCodes := fun c h => abortCodes_conflict c (sideCodes_abort c (wireCodes_side c h))

/-- A step's verdict in a conflict. -/
def Dev.conflicted (s : Dev) (p : Nat) : Dev :=
  let t := ((s.unclean p Ev.CHAIN_CONFLICT).markUnclean p Ev.CHAIN_CONFLICT).1
  if (s.part p).votedClean && true then t.uncertain p else t

section
variable (s : Dev) (p : Nat)

theorem Dev.stopAtOnce_step (h : (s.part p).stepping = true) : s.stopAtOnce p true = (s.conflicted p).abortStep p := by
  unfold Dev.stopAtOnce
  rw [if_pos h]
  rfl

theorem Aside.uncertain {fs : List Fld} {cs : List Nat} (h : Fld.STEP_STAT_UNCERT.clearOf fs = true) (hu : uncounted fs = true) (hc : Ev.COMMIT_UNCERTAIN ∈ cs) :
    Aside fs cs s (s.uncertain p) :=
  (Aside.setFld s _ _ _ h).trans (Aside.raise _ _ _ hu ⟨by decide, hc⟩)

theorem Dev.uncertain_part (q : Nat) : (s.uncertain p).part q = s.part q := (Quiet.raise _ _ _).part q

theorem Beside.conflictMarked : Beside wireCodes s ((s.unclean p Ev.CHAIN_CONFLICT).markUnclean p Ev.CHAIN_CONFLICT).1 :=
  (Beside.unclean s _ _).trans (Beside.markUnclean _ _ _)

theorem Aside.conflicted {fs : List Fld} (hfs : ∀ f ∈ fs, f ∈ sideFields) (h : Fld.STEP_STAT_UNCERT.clearOf fs = true) (hu : uncounted fs = true) :
    Aside fs conflictCodes s (s.conflicted p) := by
  have marked := (Beside.conflictMarked s p).aside.mono hfs wireCodes_conflict
  exact Aside.ite (fun _ => marked.trans (Aside.uncertain _ p h hu (by decide))) (fun _ => marked)

theorem Dev.conflicted_own (q : Nat) : ((s.conflicted p).part q).own = (s.part q).own := by
  have marked := (Beside.conflictMarked s p).own q
  unfold Dev.conflicted
  dsimp only
  split
  · rw [Dev.uncertain_part]; exact marked
  · exact marked

theorem Aside.stopAtOnce : Aside chainFields conflictCodes s (s.stopAtOnce p true) := by
  by_cases hstep : (s.part p).stepping = true
  · rw [Dev.stopAtOnce_step s p hstep]
    exact (Aside.conflicted s p (by decide) (by decide) (by decide)).trans ((Aside.abortStep _ p).mono (by decide) abortCodes_conflict)
  · unfold Dev.stopAtOnce
    rw [if_neg hstep]
    exact Aside.ite (fun _ => (Aside.toLoaded s p).mono (by decide) (fun _ => id)) (fun _ => Aside.refl s)

/-- A partition has no step, and does not run. -/
def Dev.idle (s : Dev) (p : Nat) : Prop := (s.part p).stepping = false ∧ s.planState p ≠ 3

theorem Dev.stopAtOnce_idle : (s.stopAtOnce p true).idle p := by
  by_cases hstep : (s.part p).stepping = true
  · rw [Dev.stopAtOnce_step s p hstep]
    exact ⟨Dev.abortStep_stepping _ p, by rw [Dev.abortStep_planState]; decide⟩
  · unfold Dev.stopAtOnce
    rw [if_neg hstep]
    split
    · exact ⟨by rw [Dev.toLoaded_part]; exact Bool.not_eq_true _ ▸ hstep, by rw [Dev.toLoaded_planState]; decide⟩
    · exact ⟨Bool.not_eq_true _ ▸ hstep, ‹_›⟩

theorem Dev.stopAtOnce_idle_ne {q : Nat} (h : q ≠ p) (hq : s.idle q) : (s.stopAtOnce p true).idle q := by
  by_cases hstep : (s.part p).stepping = true
  · have hown : (((s.conflicted p).abortStep p).part q).own = (s.part q).own := (Dev.abortStep_part_ne _ p h).trans (Dev.conflicted_own s p q)
    have hplan : ((s.conflicted p).abortStep p).planState q = s.planState q := (Dev.abortStep_planState_ne _ p h).trans
      ((Aside.conflicted (fs := [Fld.PLAN_STAT_STATE]) s p (by decide) (by decide) (by decide)).fld _ List.mem_cons_self q)
    rw [Dev.stopAtOnce_step s p hstep]
    exact ⟨(congrArg Part.stepping hown).trans hq.1, hplan ▸ hq.2⟩
  · unfold Dev.stopAtOnce
    rw [if_neg hstep]
    split
    · exact ⟨by rw [Dev.toLoaded_part_ne s p h]; exact hq.1, by rw [Dev.toLoaded_planState_ne s p h]; exact hq.2⟩
    · exact hq

end

/-- The partitions stopped by a conflict. -/
def Dev.conflictStopped (s : Dev) : Dev := (s.raiseDev Ev.CHAIN_CONFLICT).each (s.raiseDev Ev.CHAIN_CONFLICT).partitions (fun p t => t.stopAtOnce p true)

theorem Dev.chainConflict_eq {s : Dev} (hst : 2 ≤ s.chnState) (hc : 16 ≤ s.chain.conflicts) : s.chainConflict = s.conflictStopped.unlockChain := by
  unfold Dev.chainConflict
  rw [if_neg (by omega)]
  rfl

theorem Aside.eachStopped (s : Dev) (ps : List Nat) : Aside chainFields conflictCodes s (s.each ps (fun p t => t.stopAtOnce p true)) :=
  Aside.each s ps _ fun p _ t => Aside.stopAtOnce t p

theorem Dev.eachStopped_idle (s : Dev) {ps : List Nat} {p : Nat} (hp : p ∈ ps) : (s.each ps (fun p t => t.stopAtOnce p true)).idle p := by
  refine Dev.each_establishes (fun t => t.idle p) _ hp (fun t => Dev.stopAtOnce_idle t p) (fun q _ t ht => ?_) s
  by_cases e : p = q
  · subst e; exact Dev.stopAtOnce_idle t p
  · exact Dev.stopAtOnce_idle_ne t q e ht

section
variable (s : Dev)

theorem Dev.unlockChain_chain : s.unlockChain.chain = { inForce := s.chain.inForce, frameAt := s.chain.frameAt } := by
  have h := (Aside.setChn (fs := []) (cs := []) s chnUnlocked (by decide) (by decide)).chain
  unfold Dev.unlockChain
  dsimp only
  rw [Dev.setFld_chain, h]

theorem Dev.unlockChain_state : s.unlockChain.chnState = chnUnlocked :=
  (Dev.fld_setFld_of_apart (s.setChn chnUnlocked) (f := Fld.CHN_STAT_STATE) (g := Fld.CHN_STAT_HOLD) 0 0 0 (by decide) (by decide)).trans
    (s.setChn_state (by decide))

/-- The registers of a chain that is unlocked. -/
theorem Aside.unlocked {cs : List Nat} : Aside [Fld.CHN_COUNT_COUNT, Fld.PLAN_STAT_STATE] cs s ((s.setChn chnUnlocked).setFld Fld.CHN_STAT_HOLD 0 0) :=
  (Aside.setChn s _ (by decide) (by decide)).trans (Aside.setFld _ Fld.CHN_STAT_HOLD _ _ (by decide))

theorem Dev.unlockChain_count : s.unlockChain.chainCount = s.chainCount := by
  rw [← Dev.chainCount_fld, ← Dev.chainCount_fld]
  exact (Aside.unlocked (cs := []) s).fld Fld.CHN_COUNT_COUNT (by decide) 0

theorem Dev.unlockChain_eventsDev (c : Nat) : s.unlockChain.eventsDev c = s.eventsDev c := (Aside.unlocked (cs := []) s).eventsDev c (by simp)

theorem Dev.unlockChain_idle (p : Nat) (h : s.idle p) : s.unlockChain.idle p := by
  have hpart : s.unlockChain.part p = s.part p := by
    have e : s.unlockChain.parts = s.parts := s.setChn_parts chnUnlocked
    unfold Dev.part
    rw [e]
  have hplan : s.unlockChain.planState p = s.planState p := (Aside.unlocked (cs := []) s).fld Fld.PLAN_STAT_STATE (by decide) p
  exact ⟨hpart ▸ h.1, hplan ▸ h.2⟩

end

end Sys2Proof.Machine
end

section
/-!
PROOF. Chain symbols, conflicts, holdover and beats: what settles O33.
-/
namespace Sys2Proof.Machine

section
variable {s : State}

theorem leadsTo_of_dev {P : State → Prop} {o : Host.Outcome State Fault Refusal} {d : Dev} (ho : o = ok s d) (hP : P { s with dev := d }) : leadsTo o P :=
  ⟨_, ho, hP⟩

/-- The clause of a symbol that counts nothing but lateness. -/
theorem chainSymbol_late {u : Dev} {input v residence δ : Nat} (h : u.hears input v δ) (hacc : u.fld Fld.CHN_CFG_HORIZON 0 < symAcc v + δ) :
    leadsTo (ok s (u.chainSymbol input v residence)) (fun t =>
      t.dev.eventsDev Ev.CHAIN_HORIZON = min 0xFFFFFFFF (u.eventsDev Ev.CHAIN_HORIZON + 1) ∧ Frame {} u t.dev ∧ t.flash = s.flash) := by
  rw [Dev.chainSymbol_late residence h hacc]
  exact ⟨_, rfl, Dev.raiseDev_eventsDev _ _, Frame.raiseDev _ _ _, rfl⟩

/-- A symbol in its window waits for its beat, and goes on. -/
theorem chainSymbol_expected {u : Dev} {input v residence δ : Nat} (h : u.hears input v δ) (hacc : symAcc v + δ ≤ u.fld Fld.CHN_CFG_HORIZON 0)
    (hdup : u.dupCount (symCount v) = false) (hold : u.oldCount (symCount v) = false) (hst : 2 ≤ u.chnState)
    (hexp : u.expectedCount (u.applyTime v δ) = (symCount v, true)) :
    leadsTo (ok s (u.chainSymbol input v residence)) (fun t =>
      t.dev.chain = { u.chain with
        waiting := u.chain.waiting ++ [⟨BitVec.ofNat 64 (symCount v), u.applyTime v δ, input⟩]
        conflicts := if 16 ≤ u.chain.conflicts then u.chain.conflicts else 0 } ∧
      t.dev.out = u.out ++ u.forwards v (symAcc v + δ + residence) ∧ Frame { chain := True } u t.dev ∧ t.flash = s.flash) := by
  have hfwd : (u.forwardSymbol v (symAcc v + δ + residence)).expectedCount (u.applyTime v δ) = (symCount v, true) := by
    rw [Dev.forwardSymbol_eq]
    exact hexp
  rw [Dev.chainSymbol_tracked residence h hacc hdup hold hst, Dev.tracked_expected hfwd]
  refine ⟨_, rfl, ?_, ?_, Frame.forwarded u _ _ _, rfl⟩
  · dsimp only; rw [Dev.forwardSymbol_eq]
  · dsimp only; rw [Dev.forwardSymbol_eq]

/-- A symbol of another count is one towards the conflict rule. -/
theorem chainSymbol_differs {u : Dev} {input v residence δ : Nat} (h : u.hears input v δ) (hacc : symAcc v + δ ≤ u.fld Fld.CHN_CFG_HORIZON 0)
    (hdup : u.dupCount (symCount v) = false) (hold : u.oldCount (symCount v) = false) (hst : 2 ≤ u.chnState)
    (hexp : (u.expectedCount (u.applyTime v δ)).1 ≠ symCount v) :
    leadsTo (ok s (u.chainSymbol input v residence)) (fun t =>
      t.dev.chain = { u.chain with conflicts := u.chain.conflicts + 1 } ∧ t.dev.chainCount = u.chainCount ∧ Frame { chain := True } u t.dev ∧
      t.flash = s.flash) := by
  have hfwd : ((u.forwardSymbol v (symAcc v + δ + residence)).expectedCount (u.applyTime v δ)).1 ≠ symCount v := by
    rw [Dev.forwardSymbol_eq]
    exact hexp
  rw [Dev.chainSymbol_tracked residence h hacc hdup hold hst, Dev.tracked_differs _ hfwd]
  refine ⟨_, rfl, ?_, ?_, Frame.forwarded u _ _ _, rfl⟩
  · dsimp only; rw [Dev.forwardSymbol_eq]
  · exact Dev.forwardSymbol_count u v (symAcc v + δ + residence)

/-- What a symbol that is received does, by the input it comes on. -/
theorem chainSymbol_received {u : Dev} {input v : Nat} {res : BitVec 16} {o : Host.Outcome State Fault Refusal}
    (ho : o = ok s (u.chainSymbol input v res.toNat)) (δ : Nat) (hon : u.chainOn = true) (hδ : u.inputDelay input = some δ) (hok : u.symbolOk v = true) :
    (u.fld Fld.CHN_CFG_HORIZON 0 < symAcc v + δ → leadsTo o (fun t =>
      t.dev.eventsDev Ev.CHAIN_HORIZON = min 0xFFFFFFFF (u.eventsDev Ev.CHAIN_HORIZON + 1) ∧ Frame {} u t.dev ∧ t.flash = s.flash)) ∧
    (symAcc v + δ ≤ u.fld Fld.CHN_CFG_HORIZON 0 → u.dupCount (symCount v) = false → u.oldCount (symCount v) = false → 2 ≤ u.chnState →
      (u.expectedCount (u.applyTime v δ) = (symCount v, true) → leadsTo o (fun t =>
        t.dev.chain = { u.chain with
          waiting := u.chain.waiting ++ [⟨BitVec.ofNat 64 (symCount v), u.applyTime v δ, input⟩]
          conflicts := if 16 ≤ u.chain.conflicts then u.chain.conflicts else 0 } ∧
        t.dev.out = u.out ++ u.forwards v (symAcc v + δ + res.toNat) ∧ Frame { chain := True } u t.dev ∧ t.flash = s.flash)) ∧
      ((u.expectedCount (u.applyTime v δ)).1 ≠ symCount v → leadsTo o (fun t =>
        t.dev.chain = { u.chain with conflicts := u.chain.conflicts + 1 } ∧ t.dev.chainCount = u.chainCount ∧ Frame { chain := True } u t.dev ∧
        t.flash = s.flash))) := by
  subst ho
  have heard : u.hears input v δ := ⟨hon, hδ, hok⟩
  exact ⟨chainSymbol_late heard, fun hacc hdup hold hst =>
    ⟨chainSymbol_expected heard hacc hdup hold hst, chainSymbol_differs heard hacc hdup hold hst⟩⟩

theorem exec_beatApply {w : WaitSym} (hw : s.dev.chain.nextSym = some w) (hst : s.dev.chnState = chnLocked) (hold : s.dev.oldCount w.count.toNat = false) :
    leadsTo (exec .chainBeatApply s) (fun t =>
      t.dev.chainCount = w.count.toNat ∧ t.dev.chain.lastApplied = some w.count ∧ t.dev.chain.lastBeat = w.at_ ∧
      t.dev.chain.waiting = s.dev.chain.waiting.erase w ∧ t.dev.now = max s.dev.now w.at_.toNat ∧ t.dev.chnState = chnLocked ∧ t.flash = s.flash) := by
  refine leadsTo_of_dev (congrArg (ok s) (Dev.beatApply_locked hw hst hold)) ?_
  set e : Dev := { s.dev with chain := { s.dev.chain with waiting := s.dev.chain.waiting.erase w } } with he
  have hbeat : Aside [Fld.CHN_STAT_STATE] [Ev.CHAIN_EPOCH] e (((e.reach w.at_).setCount w.count.toNat).setFld Fld.CHN_STAT_SRCPORT 0 w.input) :=
    ((Aside.reach e _).trans (Aside.setCount _ _ (by decide) (by decide) (by decide))).trans (Aside.setFld _ _ _ _ (by decide))
  refine ⟨?_, rfl, rfl, congrArg Chain.waiting hbeat.chain, Dev.setCount_now _, (hbeat.fld _ List.mem_cons_self 0).trans hst, rfl⟩
  exact (Dev.reg_setFld_kind ((e.reach w.at_).setCount w.count.toNat) Fld.CHN_STAT_SRCPORT .CHN_COUNT 0 0 w.input (by decide)).trans
    ((Dev.setCount_count (e.reach w.at_) _).trans (Nat.mod_eq_of_lt w.count.isLt))

theorem exec_masterBeat (hon : s.dev.chainOn = true) (hin : s.dev.chain.inForce = true) (hsrc : s.dev.fld Fld.CHN_CTL_SRC 0 = 3)
    (hnone : s.dev.chain.waiting = []) :
    leadsTo (exec .localMasterBeat s) (fun t =>
      t.dev.chain = { s.dev.chain with
        waiting := [⟨BitVec.ofNat 64 ((s.dev.chainCount + 1) % 2 ^ 64), s.dev.now + s.dev.fld Fld.CHN_CFG_HORIZON 0, 0x3F⟩] } ∧
      Frame { chain := True } s.dev t.dev ∧ t.flash = s.flash) := by
  obtain ⟨v, hv⟩ := Dev.masterBeat_eq hon hin hsrc hnone
  exact leadsTo_of_dev (congrArg (ok s) hv) ⟨rfl, Frame.forwarded s.dev v 0 _, rfl⟩

theorem exec_windowMiss (hst : s.dev.chnState = chnLocked) (hsrc : s.dev.fld Fld.CHN_CTL_SRC 0 ≠ 3)
    (hnone : ∀ w ∈ s.dev.chain.waiting, w.count.toNat ≠ (s.dev.chainCount + 1) % 2 ^ 64) :
    leadsTo (exec .chainWindowMiss s) (fun t =>
      t.dev.chnState = chnHoldover ∧ t.dev.chainCount = (s.dev.chainCount + 1) % 2 ^ 64 ∧ t.dev.fld Fld.CHN_STAT_HOLD 0 = 1 ∧
      t.dev.eventsDev Ev.CHAIN_HOLDOVER = min 0xFFFFFFFF (s.dev.eventsDev Ev.CHAIN_HOLDOVER + 1) ∧
      t.dev.chain = { s.dev.chain with lastBeat := s.dev.chain.lastBeat + s.dev.beatUnits } ∧ t.flash = s.flash) := by
  refine leadsTo_of_dev (congrArg (ok s) (Dev.windowMiss_eq hst hsrc hnone)) ?_
  set h := s.dev.heldOver with hh
  have hover := Aside.heldOver s.dev
  have hcount : h.chainCount = s.dev.chainCount := by
    rw [← Dev.chainCount_fld, ← Dev.chainCount_fld]
    exact hover.fld Fld.CHN_COUNT_COUNT (by decide) 0
  have hunits : h.beatUnits = s.dev.beatUnits := congrArg (fun n => 4 * 2 ^ (8 + n)) (hover.fld Fld.CHN_CTL_PERIOD (by decide) 0)
  have go := Aside.reach (fs := [Fld.CHN_STAT_STATE, Fld.CHN_STAT_HOLD]) (cs := []) h.localBeat (h.localBeat.chain.lastBeat + h.localBeat.beatUnits / 8)
  refine ⟨?_, ?_, ?_, ?_, ?_, rfl⟩
  · exact (go.fld Fld.CHN_STAT_STATE (by decide) 0).trans ((Dev.localBeat_state h).trans s.dev.heldOver_state)
  · exact (Dev.reach_count _ _).trans ((Dev.localBeat_count h).trans (by rw [hcount]))
  · exact (go.fld Fld.CHN_STAT_HOLD (by decide) 0).trans ((Dev.localBeat_hold h).trans (by rw [hh, Dev.heldOver_hold]; rfl))
  · exact (go.eventsDev _ (by simp)).trans ((Dev.localBeat_eventsDev h (by decide)).trans s.dev.heldOver_event)
  · exact go.chain.trans ((Dev.localBeat_chain h).trans (by rw [hover.chain, hunits]))

theorem exec_holdoverBeat (hst : s.dev.chnState = chnHoldover ∨ s.dev.chnState = chnLost) :
    leadsTo (exec .holdoverBeat s) (fun t =>
      t.dev.chnState = s.dev.chnState ∧ t.dev.chainCount = (s.dev.chainCount + 1) % 2 ^ 64 ∧
      t.dev.chain = { s.dev.chain with lastBeat := s.dev.chain.lastBeat + s.dev.beatUnits } ∧
      t.dev.fld Fld.CHN_STAT_HOLD 0 = min 65536 (s.dev.fld Fld.CHN_STAT_HOLD 0 + 1) ∧ t.flash = s.flash) := by
  have hgo : s.dev.holdoverBeat = s.dev.localBeat.reach s.dev.localBeat.chain.lastBeat := by
    unfold Dev.holdoverBeat
    rw [if_pos hst]
  have go := Aside.reach (fs := [Fld.CHN_STAT_STATE, Fld.CHN_STAT_HOLD]) (cs := []) s.dev.localBeat s.dev.localBeat.chain.lastBeat
  refine leadsTo_of_dev (congrArg (ok s) hgo) ⟨?_, ?_, ?_, ?_, rfl⟩
  · exact (go.fld Fld.CHN_STAT_STATE (by decide) 0).trans (Dev.localBeat_state s.dev)
  · exact (Dev.reach_count _ _).trans (Dev.localBeat_count s.dev)
  · exact go.chain.trans (Dev.localBeat_chain s.dev)
  · exact (go.fld Fld.CHN_STAT_HOLD (by decide) 0).trans (Dev.localBeat_hold s.dev)

theorem exec_chainLost (hst : s.dev.chnState = chnHoldover) (hhold : 65536 ≤ s.dev.fld Fld.CHN_STAT_HOLD 0) :
    leadsTo (exec .chainLost s) (fun t =>
      t.dev.chnState = chnLost ∧ t.dev.eventsDev Ev.CHAIN_LOST = min 0xFFFFFFFF (s.dev.eventsDev Ev.CHAIN_LOST + 1) ∧ t.dev.chain = s.dev.chain ∧
      t.flash = s.flash ∧ ∀ p ∈ s.dev.partitions, s.dev.planState p = 3 →
        ((s.dev.part p).stepping = false → t.dev.planState p = 2 ∧ (t.dev.part p).start = none) ∧
        ((s.dev.part p).stepping = true → t.dev.planState p = 3 ∧ t.dev.part p = { s.dev.part p with stopReq := true })) := by
  refine leadsTo_of_dev (congrArg (ok s) (Dev.chainLost_eq hst hhold)) ?_
  have lost : Aside [Fld.PLAN_STAT_STATE] [] s.dev (s.dev.setChn chnLost) := Aside.setChn _ _ (by decide) (by decide)
  have raised : Aside [Fld.CHN_STAT_STATE, Fld.PLAN_STAT_STATE] [Ev.CHAIN_LOST] (s.dev.setChn chnLost) s.dev.outOfTime := Aside.raiseDev _ _ (by decide) (by decide)
  have stops := Aside.each (fs := chainFields) (cs := []) s.dev.outOfTime s.dev.partitions (fun p t => t.stopRun p) fun p _ t => Aside.stopRun t p
  refine ⟨?_, ?_, stops.chain.trans (raised.chain.trans lost.chain), rfl, fun p hp hplan => ?_⟩
  · exact (stops.fld Fld.CHN_STAT_STATE (by decide) 0).trans ((raised.fld Fld.CHN_STAT_STATE (by decide) 0).trans (s.dev.setChn_state (by decide)))
  · refine (stops.eventsDev _ (by simp)).trans ((Dev.raiseDev_eventsDev _ _).trans ?_)
    rw [lost.eventsDev _ (by simp)]
  · obtain ⟨t, ht, hview⟩ := Dev.each_view (fun t => (t.planState p, t.part p)) (fun q t => t.stopRun q) hp s.dev.partitions_nodup
      (fun q hq t => Dev.stopRun_ne t p hq.symm) s.dev.outOfTime
    have hpart : s.dev.outOfTime.part p = s.dev.part p := by
      have e : s.dev.outOfTime.parts = s.dev.parts := (Quiet.raiseDev _ _).parts.trans (s.dev.setChn_parts _)
      unfold Dev.part
      rw [e]
    have hstate : s.dev.outOfTime.planState p = 3 :=
      (raised.fld Fld.PLAN_STAT_STATE (by decide) p).trans ((lost.fld Fld.PLAN_STAT_STATE (by decide) p).trans hplan)
    obtain ⟨htplan, htpart⟩ := Prod.mk.inj ht
    obtain ⟨hfplan, hfpart⟩ := Prod.mk.inj hview
    rw [hstate] at htplan
    rw [hpart] at htpart
    dsimp only
    rw [hfplan, hfpart, ← htpart]
    refine ⟨fun h => ?_, fun h => ?_⟩
    · rw [Dev.stopRun_start t p htplan h]
      exact ⟨Dev.toLoaded_planState t p, by rw [Dev.toLoaded_part]⟩
    · rw [Dev.stopRun_step t p htplan h]
      exact ⟨htplan, Dev.setPart_self _ _ _⟩

theorem exec_chainConflict (hst : 2 ≤ s.dev.chnState) (hc : 16 ≤ s.dev.chain.conflicts) :
    leadsTo (exec .chainConflict s) (fun t =>
      t.dev.chnState = chnUnlocked ∧ t.dev.eventsDev Ev.CHAIN_CONFLICT = min 0xFFFFFFFF (s.dev.eventsDev Ev.CHAIN_CONFLICT + 1) ∧
      t.dev.chain = { inForce := s.dev.chain.inForce, frameAt := s.dev.chain.frameAt } ∧ t.dev.chainCount = s.dev.chainCount ∧
      t.flash = s.flash ∧ ∀ p ∈ s.dev.partitions, (t.dev.part p).stepping = false ∧ t.dev.planState p ≠ 3) := by
  refine leadsTo_of_dev (congrArg (ok s) (Dev.chainConflict_eq hst hc)) ?_
  have raised : Aside chainFields [Ev.CHAIN_CONFLICT] s.dev (s.dev.raiseDev Ev.CHAIN_CONFLICT) := Aside.raiseDev _ _ (by decide) (by decide)
  have stops := Aside.eachStopped (s.dev.raiseDev Ev.CHAIN_CONFLICT) (s.dev.raiseDev Ev.CHAIN_CONFLICT).partitions
  have hparts : (s.dev.raiseDev Ev.CHAIN_CONFLICT).partitions = s.dev.partitions := by
    unfold Dev.partitions Dev.partOf Dev.nparts
    rw [(Quiet.raiseDev _ _).fld _ _ rfl]
  refine ⟨Dev.unlockChain_state _, ?_, ?_, ?_, rfl, fun p hp => ?_⟩
  · exact (Dev.unlockChain_eventsDev _ _).trans ((stops.eventsDev _ (by decide)).trans (Dev.raiseDev_eventsDev _ _))
  · exact (Dev.unlockChain_chain _).trans (congrArg (fun y : Chain => ({ inForce := y.inForce, frameAt := y.frameAt } : Chain)) (stops.chain.trans raised.chain))
  · refine (Dev.unlockChain_count _).trans ?_
    rw [← Dev.chainCount_fld, ← Dev.chainCount_fld]
    exact (stops.fld Fld.CHN_COUNT_COUNT (by decide) 0).trans (raised.fld Fld.CHN_COUNT_COUNT (by decide) 0)
  · exact Dev.unlockChain_idle _ p (Dev.eachStopped_idle _ (hparts.symm ▸ hp))

end

/-- Settles O33, symbol by symbol and beat by beat: a symbol that is heard is late, waits or differs, and the beats, the loss and the conflict of the
chain each keep what the statement names. -/
theorem chainSymbolsAndBeats : Obligations.ChainSymbolsAndBeats := by
  unfold Obligations.ChainSymbolsAndBeats
  intro s
  refine ⟨fun f res => ⟨fun hfair => ?_, fun hunfair => ?_⟩, fun port fl res hawake hctl hcrc htype => ?_, fun w => exec_beatApply,
    exec_masterBeat, exec_windowMiss, exec_holdoverBeat, exec_chainLost, exec_chainConflict⟩
  · exact chainSymbol_received (s := s) (res := res) (congrArg (ok s) (Dev.chainFrame_fair res.toNat (frame_fair.1 hfair)))
  · have h : (!frameOk f || s.dev.frameOverlaps) = true := by
      rw [← Bool.not_eq_false, ← frame_fair]
      exact hunfair
    exact congrArg (ok s) (Dev.chainFrame_discarded res.toNat h)
  · exact chainSymbol_received (s := s) (res := res) (congrArg (ok s) (Dev.chainFlit_symbol res.toNat hawake hctl hcrc htype))

end Sys2Proof.Machine
end

section
/-!
PROOF. The start of a step (R181, R184, R220, R311, R408 to R410, R414, R471).
-/
namespace Sys2Proof.Machine

theorem Dev.fld_whole (s : Dev) (k : RegKind) (i : Nat) : s.fld ⟨k, 0, 64⟩ i = s.reg k i := by
  have h := Nat.mod_eq_of_lt (s.reg_lt k i)
  unfold Dev.fld
  simpa using h

/-! ### What comes before the cores start -/

/-- The fields that a core's start and its step's first beat rest on. -/
def readyFields : List Fld := [Fld.PLAN_STEPBEAT_B0, Fld.CORE_ENTRY_ENTRY, Fld.CTL_DIECFG_FENCED, Fld.SPR_CLSTAT_SHORT]

theorem readyFields_side : ∀ f ∈ readyFields, f ∈ sideFields := by decide

/-- What is done before the cores start keeps the partitions' own parts and the lanes of the cores. -/
structure Readied (s t : Dev) : Prop where
  aside : Aside readyFields [] s t
  own : ∀ q, (t.part q).own = (s.part q).own
  lanes : ∀ c, (t.core c).lanes = (s.core c).lanes

section
variable {s t u : Dev}

theorem Readied.refl (s : Dev) : Readied s s := ⟨Aside.refl s, fun _ => rfl, fun _ => rfl⟩

theorem Readied.trans (h : Readied s t) (g : Readied t u) : Readied s u :=
  ⟨h.aside.trans g.aside, fun q => (g.own q).trans (h.own q), fun c => (g.lanes c).trans (h.lanes c)⟩

theorem Readied.each {α : Type} (s : Dev) (xs : List α) (f : α → Dev → Dev) (h : ∀ x ∈ xs, ∀ t, Readied t (f x t)) : Readied s (s.each xs f) :=
  Dev.each_induction (Readied s) f xs (fun x hx t ht => ht.trans (h x hx t)) s (Readied.refl s)

theorem Beside.readied (h : Beside [] s t) : Readied s t :=
  ⟨h.aside.mono readyFields_side (fun _ => id), h.own, fun c => congrArg Core.lanes (h.core c)⟩

theorem Spared.readied (h : Spared s t) (hl : ∀ c, (t.core c).lanes = (s.core c).lanes) : Readied s t :=
  ⟨h.aside.mono readyFields_side (fun _ => id), fun q => congrArg Part.own (h.part q), hl⟩

/-- Cores of a plan on the same dies and clusters are bound alike. -/
theorem Dev.boundCores_of_own {p : Nat} (hfld : ∀ f ∈ [Fld.CTL_DIECFG_FENCED, Fld.SPR_CLSTAT_SHORT], ∀ i, t.fld f i = s.fld f i)
    (hplan : (t.part p).plan = (s.part p).plan) : t.boundCores p = s.boundCores p := by
  have hpresent : t.present = s.present := funext fun c => by
    unfold Dev.present Dev.fenced Dev.isShort Dev.flag
    rw [hfld _ List.mem_cons_self, hfld _ (List.mem_cons_of_mem _ List.mem_cons_self)]
  unfold Dev.boundCores Dev.planCores
  rw [hpresent, hplan]

theorem Dev.swapCore_lanes (s : Dev) (d c : Nat) : ((s.swapCore d).core c).lanes = (s.core c).lanes := by
  by_cases h : c = d
  · subst h
    have e : (s.swapCore c).core c = { s.core c with panels := [], banks := [], spans := [] } := Dev.setCore_self s c _
    rw [e]
  · exact congrArg Core.lanes (Dev.setCore_ne s d c _ h)

theorem Dev.closeRecord_cores (s : Dev) (ty tg : Nat) (a : Bool) : (s.closeRecord ty tg a).cores = s.cores := (Dropped.closeRecord s ty tg a).cores

theorem Dev.backMap_cores (s : Dev) (y : SwapTest) : (s.backMap y).cores = s.cores := by
  unfold Dev.backMap Dev.mapSlot
  dsimp only
  split <;> rfl

theorem Dev.swapBack_lanes (s : Dev) (y : SwapTest) (c : Nat) : ((s.swapBack y).core c).lanes = (s.core c).lanes := by
  have same : ∀ {t u : Dev}, u.cores = t.cores → (u.core c).lanes = (t.core c).lanes := fun h => by unfold Dev.core; rw [h]
  calc ((s.swapBack y).core c).lanes
    _ = ((((s.backMap y).serveCopy y).swapCore y.core).core c).lanes := same ((Dropped.dropSwap _ _ _).cores.trans (Dev.closeRecord_cores _ _ _ _))
    _ = (((s.backMap y).serveCopy y).core c).lanes := Dev.swapCore_lanes _ _ _
    _ = (s.core c).lanes := same (Dev.backMap_cores s y)

theorem Readied.swapsBack (s : Dev) (p : Nat) : Readied s (s.swapsBack p) := by
  refine (Spared.swapsBack s p).readied fun c => ?_
  refine Dev.each_keeps (fun t => (t.core c).lanes) _ _ (fun y _ t => ?_) s
  split
  · exact Dev.swapBack_lanes t y c
  · rfl

theorem Readied.putSwap (s : Dev) (y : SwapTest) : Readied s (s.putSwap y) := ⟨Aside.of_regs rfl rfl, fun _ => rfl, fun _ => rfl⟩

theorem Readied.startCopies (s : Dev) (f : Flash) (p step : Nat) : Readied s (s.startCopies f p step) := by
  refine Readied.each s _ _ fun e _ t => ?_
  split
  · exact Readied.refl t
  · dsimp only
    split
    · exact Readied.refl t
    · split
      · exact Readied.refl t
      · exact Readied.putSwap t _

theorem Part.own_rvApplied (x : Part) (ns : List Nat) : ({ x with rvApplied := ns } : Part).own = x.own := rfl

theorem Beside.applyReversals {cs : List Nat} (s : Dev) (p : Nat) : Beside cs s (s.applyReversals p) := by
  unfold Dev.applyReversals
  refine (Beside.each s _ _ fun n _ t => ?_).trans (Beside.setPart _ _ _ (Part.own_rvApplied _ _))
  refine (Beside.setFld t Fld.FMT_MON_STATE_RVPEND _ _ (by decide)).trans (Beside.ite (fun _ => ?_) (fun _ => Beside.refl _))
  exact ((Beside.setFld _ Fld.FMT_MON_STATE_FB _ _ (by decide)).trans (Beside.setFld _ Fld.FMT_MON_STATE_FMT _ _ (by decide))).trans
    (Beside.setFld _ Fld.FMT_BUDGET_USED _ _ (by decide))

/-- The packing of any list of monitors. Over a variable list no check evaluates it; over `monitors` the kernel would. -/
def Dev.packMonitors (s : Dev) (ns : List Nat) (p : Nat) : Dev :=
  let base := match (s.part p).plan with
    | some pl => pl.regionBase
    | none => 0
  (ns.foldl (fun (acc : Dev × Nat) n =>
    let i := monIdx p n
    if acc.1.flag Fld.FMT_MON_STATE_FB i then
      (acc.1.setFld Fld.FMT_MON_BASE_ADDR i acc.2, acc.2 + tileSize * acc.1.fld Fld.FMT_MON_SIZE_COST i)
    else (acc.1.setFld Fld.FMT_MON_BASE_ADDR i 0, acc.2)) (s, base)).1

theorem Dev.packRegion_eq (s : Dev) (p : Nat) : s.packRegion p = s.packMonitors monitors p := rfl

theorem Beside.packMonitors {cs : List Nat} (ns : List Nat) (s : Dev) (p : Nat) : Beside cs s (s.packMonitors ns p) := by
  unfold Dev.packMonitors
  refine List.foldlRecOn (motive := fun acc : Dev × Nat => Beside cs s acc.1) ns _ (Beside.refl s) fun acc hacc n _ => ?_
  dsimp only
  split
  · exact hacc.trans (Beside.setFld _ Fld.FMT_MON_BASE_ADDR _ _ (by decide))
  · exact hacc.trans (Beside.setFld _ Fld.FMT_MON_BASE_ADDR _ _ (by decide))

theorem Beside.packRegion {cs : List Nat} (s : Dev) (p : Nat) : Beside cs s (s.packRegion p) := by
  rw [Dev.packRegion_eq]
  exact Beside.packMonitors monitors s p

theorem Beside.zeroTallies {cs : List Nat} (s : Dev) (p : Nat) : Beside cs s (s.zeroTallies p) := by
  have clear : ∀ k ∈ tallyRegs, k.clearOf (Fld.STEP_STAT_UNCLEAN :: sideFields) = true := by decide
  exact Beside.each s _ _ fun n _ t => Beside.each t _ _ fun k hk u => Beside.setReg u k _ _ (clear k hk)

/-- What a step does before its cores start. -/
def Dev.stepReady (s : Dev) (f : Flash) (p : Nat) : Dev :=
  let s := s.swapsBack p
  let s := s.startCopies f p (s.step p)
  let s := s.startCopies f p (s.step p + 1)
  let s := (s.applyReversals p).packRegion p
  (s.setFld Fld.FMT_STAT_DIGEST p (s.formatDigest p)).zeroTallies p

theorem Readied.stepReady (s : Dev) (f : Flash) (p : Nat) : Readied s (s.stepReady f p) := by
  have formats : ∀ t : Dev, Beside [] t (let u := (t.applyReversals p).packRegion p; (u.setFld Fld.FMT_STAT_DIGEST p (u.formatDigest p)).zeroTallies p) := fun t =>
    (((Beside.applyReversals t p).trans (Beside.packRegion _ p)).trans (Beside.setFld _ Fld.FMT_STAT_DIGEST _ _ (by decide))).trans (Beside.zeroTallies _ p)
  exact (((Readied.swapsBack s p).trans (Readied.startCopies _ f p _)).trans (Readied.startCopies _ f p _)).trans (formats _).readied

end

/-! ### The registers of a step that starts -/

section
variable (s : Dev) (p b : Nat)

/-- The registers up to PLAN_STEPBEAT. -/
def Dev.beatSet (s : Dev) (p b : Nat) : Dev :=
  ((((s.setFld Fld.STEP_STAT_UNCLEAN p 0).setFld Fld.STEP_STAT_CAUSE p 0).setFld Fld.STEP_STAT_HELD p 0).setReg .STEP_NANL p 0).setReg .PLAN_STEPBEAT p b

/-- The registers from PLAN_SCHED on, but GRP_G. -/
def Dev.groupSet (s : Dev) (p : Nat) : Dev :=
  ((((s.setReg .PLAN_SCHED p 0xFFFFFFFF).setFld Fld.GRP_STAT_POISON p 0).setFld Fld.GRP_STAT_RETRACTED p 0).setFld Fld.GRP_STAT_PROVOVF p 0).setFld
    Fld.GRP_STAT_DECIDED p 0

theorem Dev.startRegs_eq : s.startRegs p b =
    ((s.beatSet p b).groupSet p).each (List.range (((s.beatSet p b).groupSet p).groups p).groups.length)
      (fun i t => t.setFld Fld.GRP_G_RCOUNT (dieIdx .GRP_G p i) 0) := rfl

theorem Dev.groupCounts_keeps {β : Type} (f : Dev → β) (h : ∀ t i v, f (Dev.setFld t Fld.GRP_G_RCOUNT i v) = f t) (xs : List Nat) :
    f (s.each xs (fun i t => t.setFld Fld.GRP_G_RCOUNT (dieIdx .GRP_G p i) 0)) = f s :=
  Dev.each_keeps f xs _ (fun _ _ t => h t _ _) s

theorem Dev.startRegs_parts : (s.startRegs p b).parts = s.parts := by
  rw [Dev.startRegs_eq, Dev.groupCounts_keeps _ p (fun t => t.parts) (fun _ _ _ => rfl)]
  simp only [Dev.beatSet, Dev.groupSet, Dev.setFld_parts, Dev.setReg_parts]

theorem Dev.startRegs_cores : (s.startRegs p b).cores = s.cores := by
  rw [Dev.startRegs_eq, Dev.groupCounts_keeps _ p (fun t => t.cores) (fun _ _ _ => rfl)]
  simp only [Dev.beatSet, Dev.groupSet, Dev.setFld_cores, Dev.setReg_cores]

theorem Aside.beatSet : Aside [Fld.CORE_ENTRY_ENTRY, Fld.CTL_DIECFG_FENCED, Fld.SPR_CLSTAT_SHORT] [] s (s.beatSet p b) :=
  ((((Aside.setFld s _ _ _ (by decide)).trans (Aside.setFld _ _ _ _ (by decide))).trans (Aside.setFld _ _ _ _ (by decide))).trans
    (Aside.setReg _ _ _ _ (by decide))).trans (Aside.setReg _ _ _ _ (by decide))

theorem Aside.groupSet : Aside readyFields [] s (s.groupSet p) :=
  ((((Aside.setReg s _ _ _ (by decide)).trans (Aside.setFld _ _ _ _ (by decide))).trans (Aside.setFld _ _ _ _ (by decide))).trans
    (Aside.setFld _ _ _ _ (by decide))).trans (Aside.setFld _ _ _ _ (by decide))

theorem Aside.groupsSet (xs : List Nat) : Aside readyFields [] s ((s.groupSet p).each xs (fun i t => t.setFld Fld.GRP_G_RCOUNT (dieIdx .GRP_G p i) 0)) :=
  (Aside.groupSet s p).trans (Aside.each _ _ _ fun _ _ t => Aside.setFld t _ _ _ (by decide))

theorem Dev.startRegs_stepBeat : (s.startRegs p b).fld Fld.PLAN_STEPBEAT_B0 p = b % 2 ^ 64 := by
  rw [Dev.startRegs_eq, (Aside.groupsSet (s.beatSet p b) p _).fld Fld.PLAN_STEPBEAT_B0 (by decide)]
  exact (Dev.fld_whole _ .PLAN_STEPBEAT p).trans (Dev.reg_setReg_self _ _ _ _)

theorem Aside.startRegs : Aside [Fld.CORE_ENTRY_ENTRY, Fld.CTL_DIECFG_FENCED, Fld.SPR_CLSTAT_SHORT] [] s (s.startRegs p b) := by
  rw [Dev.startRegs_eq]
  exact (Aside.beatSet s p b).trans ((Aside.groupsSet _ p _).mono (by decide) (fun _ => id))

end

/-! ### The cores of a step that starts (R232, R274) -/

/-- A core that has started from a state that holds its entry and its lanes. -/
structure Started (s t : Dev) (c : Nat) : Prop where
  pc : (t.core c).pc = BitVec.ofNat 64 (s.fld Fld.CORE_ENTRY_ENTRY c)
  state : t.fld Fld.CORE_STAT_STATE c = coreRun
  committed : (t.core c).committed = (s.core c).lanes
  arrayQ : (t.core c).arrayQ = []
  dmas : (t.core c).dmas = []

/-- What the starts of cores keep of a core's entry and lanes. -/
structure Startable (s t : Dev) (c : Nat) : Prop where
  entry : t.fld Fld.CORE_ENTRY_ENTRY c = s.fld Fld.CORE_ENTRY_ENTRY c
  lanes : (t.core c).lanes = (s.core c).lanes

section
variable (s : Dev) (c : Nat)

/-- The core at its entry, before its first fetch. -/
def Core.entered (x : Core) (entry : Nat) : Core :=
  { x with
    pc := BitVec.ofNat 64 entry, nregs := [], pend := [], arrayQ := [], flights := [], loads := []
    edgeQ := [], edgeFlights := [], dmas := [], barrier := none, fetched := none, committed := x.lanes, usedTiles := [], captured := false, dup := [] }

theorem Dev.startCore_core : ∃ g, (s.startCore c).core c = { (s.core c).entered (s.fld Fld.CORE_ENTRY_ENTRY c) with fetched := g } := by
  obtain ⟨g, hg⟩ := ((s.core c).entered (s.fld Fld.CORE_ENTRY_ENTRY c)).fetchFrom_eq s.mem c
  refine ⟨g, ?_⟩
  rw [← hg]
  have e : ((s.setCore c ((s.core c).entered (s.fld Fld.CORE_ENTRY_ENTRY c))).fetch c).core c =
      ((s.core c).entered (s.fld Fld.CORE_ENTRY_ENTRY c)).fetchFrom s.mem c := by
    unfold Dev.fetch
    rw [Dev.setCore_self, Dev.setCore_self]
    rfl
  exact e

theorem Dev.startCore_core_ne {d : Nat} (h : d ≠ c) : (s.startCore c).core d = s.core d := by
  have e : ((s.setCore c ((s.core c).entered (s.fld Fld.CORE_ENTRY_ENTRY c))).fetch c).core d = s.core d := by
    unfold Dev.fetch
    rw [Dev.setCore_ne _ _ _ _ h, Dev.setCore_ne _ _ _ _ h]
  exact e

theorem Dev.startCore_parts : (s.startCore c).parts = s.parts := rfl

/-- The stop registers of a core zeroed, and the core running. -/
theorem Aside.startCore {fs : List Fld} {cs : List Nat} (h1 : RegKind.CORE_STAT.clearOf fs = true) (h2 : RegKind.CORE_FPC.clearOf fs = true)
    (h3 : RegKind.CORE_FADDR.clearOf fs = true) (h4 : Fld.CORE_STAT_STATE.clearOf fs = true) (h5 : Fld.GILL_STAT_FILL.clearOf fs = true) :
    Aside fs cs s (s.startCore c) :=
  ((((((Aside.setCore s c _).trans (Aside.setCore _ _ _)).trans (Aside.setReg _ _ _ _ h1)).trans (Aside.setReg _ _ _ _ h2)).trans
    (Aside.setReg _ _ _ _ h3)).trans (Aside.setFld _ _ _ _ h4)).trans (Aside.setFld _ _ _ _ h5)

theorem Dev.startCore_state : (s.startCore c).fld Fld.CORE_STAT_STATE c = coreRun :=
  (Dev.fld_setFld_kind _ Fld.GILL_STAT_FILL Fld.CORE_STAT_STATE c c 0 (by decide)).trans (Dev.fld_setFld_self _ Fld.CORE_STAT_STATE c coreRun (by decide))

theorem Dev.startCore_state_ne {d : Nat} (h : d ≠ c) : (s.startCore c).fld Fld.CORE_STAT_STATE d = s.fld Fld.CORE_STAT_STATE d := by
  refine (Dev.fld_setFld_inst _ Fld.GILL_STAT_FILL _ _ _ _ h).trans ((Dev.fld_setFld_inst _ Fld.CORE_STAT_STATE _ _ _ _ h).trans ?_)
  refine (Dev.fld_setReg_kind _ _ .CORE_FADDR _ _ _ (by decide)).trans ((Dev.fld_setReg_kind _ _ .CORE_FPC _ _ _ (by decide)).trans ?_)
  exact Dev.fld_congr _ _ (Dev.reg_setReg_ne _ .CORE_STAT _ _ _ _ fun e => h e.2)

theorem Startable.startCore {s t : Dev} {c : Nat} (h : Startable s t c) (d : Nat) : Startable s (t.startCore d) c := by
  refine ⟨((Aside.startCore (fs := [Fld.CORE_ENTRY_ENTRY]) (cs := []) t d (by decide) (by decide) (by decide) (by decide) (by decide)).fld _
    List.mem_cons_self c).trans h.entry, ?_⟩
  by_cases e : c = d
  · subst e
    obtain ⟨g, hg⟩ := Dev.startCore_core t c
    rw [hg]
    exact h.lanes
  · rw [Dev.startCore_core_ne t d e]
    exact h.lanes

theorem Started.of_startable {s t : Dev} {c : Nat} (h : Startable s t c) : Started s (t.startCore c) c := by
  obtain ⟨g, hg⟩ := Dev.startCore_core t c
  refine ⟨?_, Dev.startCore_state t c, ?_, ?_, ?_⟩ <;> rw [hg]
  · exact congrArg (BitVec.ofNat 64) h.entry
  · exact h.lanes
  · rfl
  · rfl

theorem Started.startCore {s t : Dev} {c : Nat} (hable : Startable s t c) (h : Started s t c) (d : Nat) : Started s (t.startCore d) c := by
  by_cases e : c = d
  · subst e; exact Started.of_startable hable
  · obtain ⟨hpc, hstate, hcom, hq, hd⟩ := h
    have hcore := Dev.startCore_core_ne t d e
    exact ⟨hcore ▸ hpc, (Dev.startCore_state_ne t d e).trans hstate, hcore ▸ hcom, hcore ▸ hq, hcore ▸ hd⟩

theorem Started.each {s t : Dev} {c : Nat} {cs : List Nat} (hc : c ∈ cs) (h : Startable s t c) : Started s (t.each cs (fun c u => u.startCore c)) c :=
  Dev.each_establishes_under (fun u => Startable s u c) (fun u => Started s u c) _ hc (fun d _ _ hu => hu.startCore d) (fun _ hu => .of_startable hu)
    (fun d _ _ hu hs => hs.startCore hu d) t h

end

/-! ### The step -/

/-- The partition of a step that starts, and its registers. -/
def Dev.stepOpened (s : Dev) (p : Nat) (b : Word) : Dev :=
  let flip := b + BitVec.ofNat 64 (((s.flipEntry p).map (fun e => e.offset)).getD 0)
  let x := (s.part p).atStart flip (s.step p) (s.fld Fld.STEP_CFG_HOLDQ p) (s.fld Fld.STEP_CFG_HOLDMAX p) (s.monSnaps p) (s.fld Fld.FMT_BUDGET_USED p)
  (s.setPart p x).startRegs p b.toNat

/-- The step with its cores started. -/
def Dev.stepRunning (s : Dev) (f : Flash) (p : Nat) (b : Word) : Dev :=
  let u := (s.stepOpened p b).stepReady f p
  u.each (u.boundCores p) (fun c s => s.startCore c)

/-- What a step does once its cores have started. -/
def Dev.stepUnder (s : Dev) (p : Nat) : Dev :=
  let s := (s.evalDegraded p true []).updateDegraded p
  s.each (s.persisting p) (fun code s => s.unclean p code)

theorem Dev.stepStart_eq {s : Dev} {p : Nat} {b : Word} (f : Flash) (hstart : (s.part p).start = some b) (hplan : s.planState p = 3)
    (hstep : (s.part p).stepping = false) (hbeat : s.chainCount = b.toNat) :
    s.stepStart f p = (s.stepRunning f p b).stepUnder p := by
  have hgo : ¬ (s.planState p ≠ 3 ∨ (s.part p).stepping = true ∨ s.chainCount ≠ b.toNat) := by simp [hplan, hstep, hbeat]
  unfold Dev.stepStart
  simp only [hstart]
  rw [if_neg hgo]
  rfl

theorem Beside.stepUnder (s : Dev) (p : Nat) : Beside sideCodes s (s.stepUnder p) :=
  ((Beside.evalDegraded s p true []).trans (Beside.updateDegraded _ p)).trans
    (Beside.each _ _ _ fun code _ t => (Beside.unclean t p code).mono wireCodes_side)

section
variable (x : Part) (flip : Word) (step holdq holdmax : Nat) (snaps : List MonSnap) (used : Nat)

theorem Part.atStart_plan : (x.atStart flip step holdq holdmax snaps used).plan = x.plan := rfl

theorem Part.atStart_step : (x.atStart flip step holdq holdmax snaps used).stepping = true ∧ (x.atStart flip step holdq holdmax snaps used).voteFired = false ∧
    (x.atStart flip step holdq holdmax snaps used).issuing = false ∧ (x.atStart flip step holdq holdmax snaps used).reach = -1 ∧
    (x.atStart flip step holdq holdmax snaps used).flip = flip := ⟨rfl, rfl, rfl, rfl, rfl⟩

end

section
variable (s : Dev) (f : Flash) (p : Nat) (b : Word)

/-- A partition that starts a step. -/
def Dev.atStart (s : Dev) (p : Nat) (b : Word) : Part :=
  (s.part p).atStart (b + BitVec.ofNat 64 (((s.flipEntry p).map (fun e => e.offset)).getD 0)) (s.step p) (s.fld Fld.STEP_CFG_HOLDQ p)
    (s.fld Fld.STEP_CFG_HOLDMAX p) (s.monSnaps p) (s.fld Fld.FMT_BUDGET_USED p)

theorem Dev.atStart_step : (s.atStart p b).stepping = true ∧ (s.atStart p b).voteFired = false ∧ (s.atStart p b).issuing = false ∧ (s.atStart p b).reach = -1 ∧
    (s.atStart p b).flip = b + BitVec.ofNat 64 (((s.flipEntry p).map (fun e => e.offset)).getD 0) := by
  unfold Dev.atStart
  exact Part.atStart_step _ _ _ _ _ _ _

theorem Dev.stepOpened_part : (s.stepOpened p b).part p = s.atStart p b := by
  have h : (s.stepOpened p b).parts = (s.setPart p (s.atStart p b)).parts := Dev.startRegs_parts (s.setPart p (s.atStart p b)) p b.toNat
  have e : (s.stepOpened p b).part p = (s.setPart p (s.atStart p b)).part p := by unfold Dev.part; rw [h]
  rw [e, Dev.setPart_self]

theorem Dev.stepOpened_core (c : Nat) : (s.stepOpened p b).core c = s.core c := by
  have h : (s.stepOpened p b).cores = s.cores := Dev.startRegs_cores (s.setPart p (s.atStart p b)) p b.toNat
  unfold Dev.core
  rw [h]

theorem Aside.stepOpened : Aside [Fld.CORE_ENTRY_ENTRY, Fld.CTL_DIECFG_FENCED, Fld.SPR_CLSTAT_SHORT] [] s (s.stepOpened p b) :=
  (Aside.setPart s p (s.atStart p b)).trans (Aside.startRegs _ p b.toNat)

theorem Dev.stepRunning_own : ((s.stepRunning f p b).part p).own = (s.atStart p b).own := by
  have hparts : (s.stepRunning f p b).parts = ((s.stepOpened p b).stepReady f p).parts :=
    Dev.each_keeps (fun t => t.parts) _ (fun c t => t.startCore c) (fun c _ t => Dev.startCore_parts t c) ((s.stepOpened p b).stepReady f p)
  have e : (s.stepRunning f p b).part p = ((s.stepOpened p b).stepReady f p).part p := by unfold Dev.part; rw [hparts]
  rw [e, (Readied.stepReady _ f p).own, Dev.stepOpened_part]

theorem Dev.stepRunning_stepBeat : (s.stepRunning f p b).fld Fld.PLAN_STEPBEAT_B0 p = b.toNat := by
  have cores := Aside.each (fs := [Fld.PLAN_STEPBEAT_B0]) (cs := []) ((s.stepOpened p b).stepReady f p) (((s.stepOpened p b).stepReady f p).boundCores p)
    (fun c t => t.startCore c) fun c _ t => Aside.startCore t c (by decide) (by decide) (by decide) (by decide) (by decide)
  refine (cores.fld _ List.mem_cons_self p).trans (((Readied.stepReady _ f p).aside.fld _ (by decide) p).trans ?_)
  exact (Dev.startRegs_stepBeat _ p b.toNat).trans (Nat.mod_eq_of_lt b.isLt)

theorem Dev.stepRunning_cores {c : Nat} (hc : c ∈ s.boundCores p) : Started s (s.stepRunning f p b) c := by
  have ready := Readied.stepReady (s.stepOpened p b) f p
  have opened := Aside.stepOpened s p b
  have hbound : ((s.stepOpened p b).stepReady f p).boundCores p = s.boundCores p := by
    refine Dev.boundCores_of_own (fun g hg i => (ready.aside.fld g (by fin_cases hg <;> decide) i).trans (opened.fld g (by fin_cases hg <;> decide) i)) ?_
    rw [Part.view_of_own (ready.own p) Part.plan fun _ => rfl, Dev.stepOpened_part]
    exact Part.atStart_plan _ _ _ _ _ _ _
  refine Started.each (hbound.symm ▸ hc) ⟨?_, ?_⟩
  · exact (ready.aside.fld _ (by decide) c).trans (opened.fld _ (by decide) c)
  · rw [ready.lanes, Dev.stepOpened_core]

end

/-- What a step's start comes to. -/
structure StepStarted (s : Dev) (p : Nat) (b : Word) (t : Dev) : Prop where
  own : (t.part p).own = (s.atStart p b).own
  stepBeat : t.reg .PLAN_STEPBEAT p = b.toNat
  cores : ∀ c ∈ s.boundCores p, Started s t c

theorem Dev.stepStart_started {s : Dev} {p : Nat} {b : Word} (f : Flash) (hstart : (s.part p).start = some b) (hplan : s.planState p = 3)
    (hstep : (s.part p).stepping = false) (hbeat : s.chainCount = b.toNat) : StepStarted s p b (s.stepStart f p) := by
  have under := Beside.stepUnder (s.stepRunning f p b) p
  rw [Dev.stepStart_eq f hstart hplan hstep hbeat]
  refine ⟨(under.own p).trans (s.stepRunning_own f p b), ?_, fun c hc => ?_⟩
  · exact (Dev.fld_whole _ .PLAN_STEPBEAT p).symm.trans ((under.fld Fld.PLAN_STEPBEAT_B0 p (by decide)).trans (Dev.stepRunning_stepBeat _ _ _ _))
  · obtain ⟨hpc, hstate, hcom, hq, hd⟩ := s.stepRunning_cores f p b hc
    rw [← under.core c] at hpc hcom hq hd
    exact ⟨hpc, (under.fld Fld.CORE_STAT_STATE c (by decide)).trans hstate, hcom, hq, hd⟩

theorem exec_stepStart {s : State} {die : DieId} {b : Word} (hstart : (s.dev.part die.val).start = some b) (hplan : s.dev.planState die.val = 3)
    (hstep : (s.dev.part die.val).stepping = false) (hbeat : s.dev.chainCount = b.toNat) :
    leadsTo (exec (.stepStart die) s) (fun t =>
      (t.dev.part die.val).stepping = true ∧ (t.dev.part die.val).voteFired = false ∧ (t.dev.part die.val).issuing = false ∧ t.dev.reached die.val = -1 ∧
      (t.dev.part die.val).flip = b + BitVec.ofNat 64 (((s.dev.flipEntry die.val).map (fun e => e.offset)).getD 0) ∧
      t.dev.reg .PLAN_STEPBEAT die.val = b.toNat ∧
      (∀ c ∈ s.dev.boundCores die.val, (t.dev.core c).pc = BitVec.ofNat 64 (s.dev.fld Fld.CORE_ENTRY_ENTRY c) ∧ t.dev.fld Fld.CORE_STAT_STATE c = 1 ∧
        (t.dev.core c).committed = (s.dev.core c).lanes ∧ (t.dev.core c).arrayQ = [] ∧ (t.dev.core c).dmas = []) ∧ t.flash = s.flash) := by
  obtain ⟨own, hstepBeat, hcores⟩ := Dev.stepStart_started s.flash hstart hplan hstep hbeat
  obtain ⟨hstepping, hfired, hissuing, hreach, hflip⟩ := s.dev.atStart_step die.val b
  refine leadsTo_of_dev (d := s.dev.stepStart s.flash die.val) rfl ?_
  generalize s.dev.stepStart s.flash die.val = w at own hstepBeat hcores
  refine ⟨?_, ?_, ?_, ?_, ?_, hstepBeat, fun c hc => ?_, rfl⟩
  · exact (Part.view_of_own own Part.stepping fun _ => rfl).trans hstepping
  · exact (Part.view_of_own own Part.voteFired fun _ => rfl).trans hfired
  · exact (Part.view_of_own own Part.issuing fun _ => rfl).trans hissuing
  · exact (Part.view_of_own own Part.reach fun _ => rfl).trans hreach
  · exact (Part.view_of_own own Part.flip fun _ => rfl).trans hflip
  · obtain ⟨hpc, hstate, hcom, hq, hd⟩ := hcores c hc
    exact ⟨hpc, hstate, hcom, hq, hd⟩

end Sys2Proof.Machine
end

section
/-!
PROOF. The beats of the schedule and the deadline of the vote (R311, R404).
-/
namespace Sys2Proof.Machine

/-! ### A beat moves the reached offset (R311) -/

/-- A partition's reached offset, and what PLAN_SCHED shows of it, are as they were. -/
structure OnBeat (p : Nat) (s t : Dev) : Prop where
  reach : (t.part p).reach = (s.part p).reach
  shown : t.fld Fld.PLAN_SCHED_ROFF p = s.fld Fld.PLAN_SCHED_ROFF p

section
variable {p : Nat} {s t u : Dev}

theorem OnBeat.refl (p : Nat) (s : Dev) : OnBeat p s s := ⟨rfl, rfl⟩
theorem OnBeat.trans (h : OnBeat p s t) (g : OnBeat p t u) : OnBeat p s u := ⟨g.reach.trans h.reach, g.shown.trans h.shown⟩

theorem OnBeat.ite {b : Prop} [Decidable b] (h : OnBeat p s t) (g : OnBeat p s u) : OnBeat p s (if b then t else u) := by split <;> assumption

theorem OnBeat.each {α : Type} (s : Dev) (xs : List α) (f : α → Dev → Dev) (h : ∀ x ∈ xs, ∀ t, OnBeat p t (f x t)) : OnBeat p s (s.each xs f) :=
  Dev.each_induction (OnBeat p s) f xs (fun x hx t ht => ht.trans (h x hx t)) s (OnBeat.refl p s)

theorem Beside.onBeat {cs : List Nat} (h : Beside cs s t) (p : Nat) : OnBeat p s t :=
  ⟨h.part p Part.reach fun _ => rfl, h.fld Fld.PLAN_SCHED_ROFF p (by decide)⟩

theorem Quiet.onBeat (h : Quiet s t) (p : Nat) : OnBeat p s t := ⟨congrArg Part.reach (h.part p), h.fld Fld.PLAN_SCHED_ROFF p rfl⟩

theorem OnBeat.setFld (p : Nat) (s : Dev) (g : Fld) (i v : Nat) (h : g.clearOf [Fld.PLAN_SCHED_ROFF] = true) : OnBeat p s (s.setFld g i v) :=
  ⟨rfl, (Aside.setFld (cs := []) s g i v h).fld _ List.mem_cons_self p⟩

theorem OnBeat.setPart (s : Dev) (p q : Nat) (x : Part) (h : x.reach = (s.part q).reach := by rfl) : OnBeat p s (s.setPart q x) := by
  refine ⟨?_, rfl⟩
  by_cases e : p = q
  · subst e; rw [Dev.setPart_self]; exact h
  · rw [Dev.setPart_ne _ _ _ _ e]

theorem OnBeat.raise (p : Nat) (s : Dev) (d c : Nat) : OnBeat p s (s.raise d c) := (Quiet.raise s d c).onBeat p

theorem OnBeat.unclean (p : Nat) (s : Dev) (q code : Nat) : OnBeat p s (s.unclean q code) := (Beside.unclean s q code).onBeat p

end

section
variable (s : Dev) (p : Nat)

theorem Beside.evalRequests {cs : List Nat} : Beside cs s (s.evalRequests p) :=
  Beside.each s _ _ fun _ _ t => Beside.setFld t Fld.FMT_MON_STATE_REQ _ _ (by decide)

theorem OnBeat.fireVote (late : Bool) : OnBeat p s (s.fireVote p late) := by
  have before : OnBeat p s (s.beforeVote p) := by
    unfold Dev.beforeVote
    refine ((Beside.evalRequests (cs := []) s p).onBeat p).trans (OnBeat.ite ?_ (OnBeat.refl p _))
    exact (OnBeat.raise p _ _ _).trans (OnBeat.unclean p _ _ _)
  unfold Dev.fireVote
  dsimp only
  refine (OnBeat.trans ?_ (OnBeat.setPart _ p p _)).trans ((Beside.tryVote _ p).onBeat p)
  exact OnBeat.ite (OnBeat.refl p s) before

theorem Beside.dropStreams {cs : List Nat} (q : Nat) : Beside cs s (s.dropStreams q) := Beside.setHost s q _

theorem OnBeat.abandonDrain : OnBeat p s (s.abandonDrain p) := by
  have dropped : ∀ qs : List Nat, OnBeat p s (s.each qs fun q s => s.dropStreams q) := fun qs =>
    (Beside.each (cs := []) s qs _ fun q _ t => Beside.dropStreams t q).onBeat p
  exact ((((dropped _).trans (OnBeat.setFld p _ Fld.CTX_DSTAT_STATE _ _ (by decide))).trans (OnBeat.raise p _ _ _)).trans
    (OnBeat.setPart _ p p _)).trans ((Beside.tryDone _ p).onBeat p)

theorem OnBeat.sendDrain (d : Drain) : OnBeat p s (s.sendDrain d) :=
  OnBeat.each s _ _ fun x _ t => OnBeat.each t _ _ fun q _ u => (Quiet.hostSend u x.1 q).onBeat p

theorem OnBeat.beginDrain (step : Nat) (mons : List MonSnap) (used : Nat) : OnBeat p s (s.beginDrain p step mons used) := by
  have marked := (OnBeat.setFld p s Fld.CTX_DSTAT_STATE p 1 (by decide)).trans (OnBeat.setFld p _ Fld.CTX_DSTAT_STEP p step (by decide))
  unfold Dev.beginDrain
  dsimp only
  refine marked.trans (OnBeat.ite (OnBeat.abandonDrain _ p) ?_)
  have read := Beside.hbmErrors ((s.setFld Fld.CTX_DSTAT_STATE p 1).setFld Fld.CTX_DSTAT_STEP p step)
    (((s.setFld Fld.CTX_DSTAT_STATE p 1).setFld Fld.CTX_DSTAT_STEP p step).frontTiles p)
  refine OnBeat.trans (OnBeat.trans (read.onBeat p) (OnBeat.setPart _ p p _ ?_)) (OnBeat.sendDrain _ p _)
  exact (read.part p Part.reach fun _ => rfl).symm

theorem OnBeat.fireDrain : OnBeat p s (s.fireDrain p) := OnBeat.ite (OnBeat.refl p s) (OnBeat.beginDrain s p _ _ _)

theorem Spared.onBeat {s t : Dev} (h : Spared s t) (p : Nat) : OnBeat p s t := ⟨congrArg Part.reach (h.part p), h.fld Fld.PLAN_SCHED_ROFF p (by decide)⟩

theorem Spared.swapMap (y : SwapTest) : Spared s (s.swapMap y) :=
  (((Spared.mapSlot s _ _).trans (Spared.setFld _ Fld.SPR_CLSTAT_SPARE _ _ (by decide))).trans (Spared.setFld _ Fld.SPR_CLSTAT_SWAP _ _ (by decide))).trans
    (Dropped.bumpGen _ _ _).spared

theorem OnBeat.putSwap (y : SwapTest) : OnBeat p s (s.putSwap y) := ⟨rfl, rfl⟩

theorem OnBeat.swapIn (c : Nat) : OnBeat p s (s.swapIn c) := by
  unfold Dev.swapIn
  split
  · exact OnBeat.refl p s
  · rename_i y _
    have switched : Spared s (((s.swapMap y).serveCopy y).swapCore c) := ((Spared.swapMap s y).trans (Spared.setMem _ _)).trans (Spared.swapCore _ c)
    exact ((switched.onBeat p).trans (OnBeat.putSwap _ p _)).trans ((Dropped.closeRecord _ _ _ _).spared.onBeat p)

theorem OnBeat.fireSwap (f : Flash) (e : SchedEntry) : OnBeat p s (s.fireSwap f p e) := by
  unfold Dev.fireSwap
  split
  · exact OnBeat.raise p s _ _
  · exact OnBeat.ite (OnBeat.raise p s _ _) (OnBeat.swapIn s p _)

theorem OnBeat.fireEntry (f : Flash) (e : SchedEntry) : OnBeat p s (s.fireEntry f p e) := by
  unfold Dev.fireEntry
  split
  · split
    · exact OnBeat.ite ((OnBeat.raise p s _ _).trans (OnBeat.unclean p _ _ _)) (OnBeat.setFld p s Fld.GRP_G_PHASE _ _ (by decide))
    · exact OnBeat.refl p s
  · exact OnBeat.fireVote s p false
  · exact OnBeat.fireDrain s p
  · exact OnBeat.fireSwap s p f e
  · exact OnBeat.refl p s

end

/-- The partition issues from here on. -/
def Dev.beginIssue (s : Dev) (p : Nat) : Dev := s.setPart p { s.part p with issuing := true }

theorem OnBeat.beginIssue (s : Dev) (p : Nat) : OnBeat p s (s.beginIssue p) := OnBeat.setPart s p p _

theorem Dev.beginIssue_issuing (s : Dev) (p : Nat) : ((s.beginIssue p).part p).issuing = true := congrArg Part.issuing (Dev.setPart_self s p _)

/-- The entries that the next beat makes due. -/
def Dev.dueNext (s : Dev) (p : Nat) : List SchedEntry :=
  (s.entries p).filter (fun e => decide ((e.offset : Int) = s.reached p + 1) && e.applies (s.step p))

/-- Whether a beat of the schedule comes to what is due: in a step, before its vote, its deadline and its flip, and not before what has slid. -/
structure Dev.onSchedule (s : Dev) (p : Nat) : Prop where
  stepping : (s.part p).stepping = true
  unfired : (s.part p).voteFired = false
  flip : (s.flipEntry p).map (fun e => e.offset) ≠ some (s.beatOffset p)
  deadline : (s.voteEntry p).map (fun e => e.arg) ≠ some (s.beatOffset p)
  come : s.reached p + 1 + s.fld Fld.PLAN_SCHED_SLIDE p ≤ s.beatOffset p

section
variable {s : Dev} {p : Nat} (f : Flash) (h : s.onSchedule p)
include h

theorem Dev.scheduleBeat_due : s.scheduleBeat f p =
    if (s.dueNext p).all (s.entryReady f p) then
      let t := (s.setPart p { s.part p with reach := s.reached p + 1 }).setFld Fld.PLAN_SCHED_ROFF p (twos 32 (s.reached p + 1))
      let t := t.each (s.dueNext p) (fun e t => t.fireEntry f p e)
      if s.reached p + 1 = 0 then t.beginIssue p else t
    else
      let t := (s.setFld Fld.PLAN_SCHED_SLIDE p (s.fld Fld.PLAN_SCHED_SLIDE p + 1)).perf .PLAN_PC_SLIP p p 1
      if s.fld Fld.PLAN_SCHED_SLIDE p = 0 then t.raise p Ev.SCHED_SLIP else t := by
  obtain ⟨hstep, hfired, hflip, hdead, hcome⟩ := h
  have hgo : ¬ ((!(s.part p).stepping || (s.part p).voteFired || decide (some (s.beatOffset p) = (s.flipEntry p).map (fun e => e.offset))
      || decide (some (s.beatOffset p) = (s.voteEntry p).map (fun e => e.arg))
      || decide ((s.beatOffset p : Int) < s.reached p + 1 + s.fld Fld.PLAN_SCHED_SLIDE p)) = true) := by
    simp [hstep, hfired, hflip.symm, hdead.symm, hcome]
  unfold Dev.scheduleBeat
  dsimp only
  rw [if_neg hgo]
  rfl

/-- What is due is ready: it fires, and the offset is reached. -/
theorem Dev.scheduleBeat_ready (hready : (s.dueNext p).all (s.entryReady f p) = true) :
    (s.scheduleBeat f p).reached p = s.reached p + 1 ∧ (s.scheduleBeat f p).fld Fld.PLAN_SCHED_ROFF p = twos 32 (s.reached p + 1) ∧
    (s.reached p + 1 = 0 → ((s.scheduleBeat f p).part p).issuing = true) := by
  have htwos : twos 32 (s.reached p + 1) % 2 ^ 32 = twos 32 (s.reached p + 1) := by
    unfold twos
    omega
  have fired := OnBeat.each (p := p) ((s.setPart p { s.part p with reach := s.reached p + 1 }).setFld Fld.PLAN_SCHED_ROFF p (twos 32 (s.reached p + 1)))
    (s.dueNext p) (fun e t => t.fireEntry f p e) fun e _ t => OnBeat.fireEntry t p f e
  have hreach := fired.reach.trans (congrArg Part.reach (Dev.setPart_self s p _))
  have hshown := fired.shown.trans ((Dev.fld_setFld_self _ Fld.PLAN_SCHED_ROFF p _ (by decide)).trans htwos)
  rw [Dev.scheduleBeat_due f h, if_pos hready]
  dsimp only
  split
  · exact ⟨(OnBeat.beginIssue _ p).reach.trans hreach, (OnBeat.beginIssue _ p).shown.trans hshown, fun _ => Dev.beginIssue_issuing _ p⟩
  · exact ⟨hreach, hshown, fun h0 => absurd h0 ‹_›⟩

/-- What is due is not ready: the schedule slides by a beat. -/
theorem Dev.scheduleBeat_slides (hready : (s.dueNext p).all (s.entryReady f p) = false) :
    s.scheduleBeat f p =
      let t := (s.setFld Fld.PLAN_SCHED_SLIDE p (s.fld Fld.PLAN_SCHED_SLIDE p + 1)).perf .PLAN_PC_SLIP p p 1
      if s.fld Fld.PLAN_SCHED_SLIDE p = 0 then t.raise p Ev.SCHED_SLIP else t := by
  rw [Dev.scheduleBeat_due f h, if_neg (by rw [hready]; decide)]

end

section
variable (s : Dev) (p : Nat)

/-- The schedule slid by a beat. -/
def Dev.slid (s : Dev) (p : Nat) : Dev :=
  let t := (s.setFld Fld.PLAN_SCHED_SLIDE p (s.fld Fld.PLAN_SCHED_SLIDE p + 1)).perf .PLAN_PC_SLIP p p 1
  if s.fld Fld.PLAN_SCHED_SLIDE p = 0 then t.raise p Ev.SCHED_SLIP else t

theorem Dev.slid_quiet : Quiet ((s.setFld Fld.PLAN_SCHED_SLIDE p (s.fld Fld.PLAN_SCHED_SLIDE p + 1)).perf .PLAN_PC_SLIP p p 1) (s.slid p) := by
  unfold Dev.slid
  dsimp only
  split
  · exact Quiet.raise _ _ _
  · exact Quiet.refl _

theorem Dev.slid_slide (h : s.fld Fld.PLAN_SCHED_SLIDE p < 2 ^ 31) : (s.slid p).fld Fld.PLAN_SCHED_SLIDE p = s.fld Fld.PLAN_SCHED_SLIDE p + 1 := by
  refine ((s.slid_quiet p).fld _ p rfl).trans ((Dev.perf_fld _ _ _ _ _ _ _ rfl (by decide)).trans ?_)
  exact (Dev.fld_setFld_self s Fld.PLAN_SCHED_SLIDE p _ (by decide)).trans (Nat.mod_eq_of_lt (Nat.lt_of_le_of_lt h (by decide)))

theorem Dev.slid_part (q : Nat) : (s.slid p).part q = s.part q := ((s.slid_quiet p).part q).trans (Dev.perf_part _ _ _ _ _ q)

theorem Dev.slid_count : (s.slid p).reg .PLAN_PC_SLIP p % 2 ^ 48 = (s.reg .PLAN_PC_SLIP p + 1) % 2 ^ 48 := by
  rw [(s.slid_quiet p).reg _ _ rfl, Dev.perf_self _ _ _ _ _ rfl, Dev.reg_setFld_kind _ _ _ _ _ _ (by decide)]

theorem Dev.slid_event (h : s.fld Fld.PLAN_SCHED_SLIDE p = 0) : (s.slid p).events p Ev.SCHED_SLIP = min 0xFFFFFFFF (s.events p Ev.SCHED_SLIP + 1) := by
  have before := (Aside.setFld (fs := []) (cs := [Ev.PERF_WRAP]) s Fld.PLAN_SCHED_SLIDE p (s.fld Fld.PLAN_SCHED_SLIDE p + 1) (by decide)).trans
    (Aside.perf _ .PLAN_PC_SLIP p p 1 (by decide) (by decide) (by decide))
  unfold Dev.slid
  rw [if_pos h, Dev.raise_events, before.events p _ (by decide) (by decide)]

/-- What a slide touches. -/
def slideRegs (p : Nat) : Touches := { reg := fun k i => i = p ∧ (k = .PLAN_SCHED ∨ k = .PLAN_PC_SLIP) }

theorem Frame.slid : Frame (slideRegs p) s (s.slid p) :=
  ((Frame.setFld (slideRegs p) s Fld.PLAN_SCHED_SLIDE p _ ⟨rfl, .inl rfl⟩).trans (Frame.perf (slideRegs p) _ .PLAN_PC_SLIP p p 1 ⟨rfl, .inr rfl⟩)).trans (Frame.quiet _ (s.slid_quiet p))

end

/-! ### The deadline (R176, R311, R404) -/

section
variable {s : Dev} {p : Nat} (hstep : (s.part p).stepping = true) (hfired : (s.part p).voteFired = false)

/-- A vote that its deadline forces. -/
def Dev.forcedVote (s : Dev) (p : Nat) : Vote := { s.ownVote p true with reqmap := 0 }

/-- The step overrun, before the vote. -/
def Dev.overrun (s : Dev) (p : Nat) : Dev := (s.raise p Ev.STEP_OVERRUN).unclean p Ev.STEP_OVERRUN

/-- The vote forced. -/
def Dev.forced (s : Dev) (p : Nat) : Dev :=
  s.setPart p { s.part p with voteFired := true, votedClean := (s.forcedVote p).clean, ownVote := some (s.forcedVote p) }

theorem Dev.voteDeadline_eq (hstep : (s.part p).stepping = true) (hfired : (s.part p).voteFired = false)
    (hdead : (s.voteEntry p).map (fun e => e.arg) = some (s.beatOffset p)) : s.voteDeadline p = ((s.overrun p).forced p).tryVote p := by
  unfold Dev.voteDeadline
  simp only [hstep, hfired, hdead]
  rfl

/-- What the deadline leaves of a vote that had not fired. -/
theorem Dev.voteDeadline_spec (hstep : (s.part p).stepping = true) (hfired : (s.part p).voteFired = false)
    (hdead : (s.voteEntry p).map (fun e => e.arg) = some (s.beatOffset p)) :
    ((s.voteDeadline p).part p).voteFired = true ∧ (s.voteDeadline p).flag Fld.STEP_STAT_UNCLEAN p = true ∧
    (s.voteDeadline p).events p Ev.STEP_OVERRUN = min 0xFFFFFFFF (s.events p Ev.STEP_OVERRUN + 1) ∧
    ∃ v, ((s.voteDeadline p).part p).ownVote = some v ∧ v.clean = false ∧ v.complete = true ∧ v.reqmap = 0 := by
  have tried := Beside.tryVote ((s.overrun p).forced p) p
  have hunclean : (s.overrun p).flag Fld.STEP_STAT_UNCLEAN p = true := by
    refine Dev.unclean_flag _ _ _ ?_ ?_
    · rw [(Quiet.raise s p Ev.STEP_OVERRUN).part]; exact hstep
    · rw [(Quiet.raise s p Ev.STEP_OVERRUN).part]; exact hfired
  have hclean : ((s.overrun p).forcedVote p).clean = false := by
    simp [Dev.forcedVote, Dev.ownVote, hunclean]
  have hpart : ((s.overrun p).forced p).part p =
      { (s.overrun p).part p with voteFired := true, votedClean := ((s.overrun p).forcedVote p).clean, ownVote := some ((s.overrun p).forcedVote p) } :=
    Dev.setPart_self _ _ _
  rw [Dev.voteDeadline_eq hstep hfired hdead]
  refine ⟨?_, tried.verdict p hunclean, ?_, (s.overrun p).forcedVote p, ?_, hclean, rfl, rfl⟩
  · rw [tried.part p Part.voteFired fun _ => rfl, hpart]
  · rw [tried.aside.events p _ (by decide) (by decide)]
    exact ((Beside.unclean _ p _).aside.events p _ (by decide) (by decide)).trans (Dev.raise_events _ _ _)
  · rw [tried.part p Part.ownVote fun _ => rfl, hpart]

end

/-! ### The commands -/

theorem exec_scheduleBeat_ready {s : State} {die : DieId} (ue : List (BitVec 52)) (h : s.dev.onSchedule die.val)
    (hready : (s.dev.dueNext die.val).all (s.dev.entryReady s.flash die.val) = true) :
    leadsTo (exec (.scheduleBeat die ue) s) (fun t =>
      t.dev.reached die.val = s.dev.reached die.val + 1 ∧ t.dev.fld Fld.PLAN_SCHED_ROFF die.val = twos 32 (s.dev.reached die.val + 1) ∧
      (s.dev.reached die.val + 1 = 0 → (t.dev.part die.val).issuing = true) ∧ t.flash = s.flash) := by
  have hu : Dev.onSchedule { s.dev with ue := ue.map (fun a => a.toNat) } die.val := ⟨h.stepping, h.unfired, h.flip, h.deadline, h.come⟩
  obtain ⟨hreach, hshown, hissue⟩ := Dev.scheduleBeat_ready s.flash hu hready
  exact ⟨_, rfl, hreach, hshown, hissue, rfl⟩

theorem exec_scheduleBeat_slides {s : State} {die : DieId} (ue : List (BitVec 52)) (h : s.dev.onSchedule die.val)
    (hready : (s.dev.dueNext die.val).all (s.dev.entryReady s.flash die.val) = false) (hslide : s.dev.fld Fld.PLAN_SCHED_SLIDE die.val < 2 ^ 31) :
    leadsTo (exec (.scheduleBeat die ue) s) (fun t =>
      t.dev.fld Fld.PLAN_SCHED_SLIDE die.val = s.dev.fld Fld.PLAN_SCHED_SLIDE die.val + 1 ∧ t.dev.reached die.val = s.dev.reached die.val ∧
      t.dev.reg .PLAN_PC_SLIP die.val % 2 ^ 48 = (s.dev.reg .PLAN_PC_SLIP die.val + 1) % 2 ^ 48 ∧
      (s.dev.fld Fld.PLAN_SCHED_SLIDE die.val = 0 →
        t.dev.events die.val Ev.SCHED_SLIP = min 0xFFFFFFFF (s.dev.events die.val Ev.SCHED_SLIP + 1)) ∧
      Frame { reg := fun k i => i = die.val ∧ (k = .PLAN_SCHED ∨ k = .PLAN_PC_SLIP) } s.dev t.dev ∧ t.flash = s.flash) := by
  set u : Dev := { s.dev with ue := ue.map (fun a => a.toNat) } with hu
  have hon : u.onSchedule die.val := ⟨h.stepping, h.unfired, h.flip, h.deadline, h.come⟩
  have hdev : ({ u.scheduleBeat s.flash die.val with ue := [] } : Dev) = { u.slid die.val with ue := [] } := by
    rw [Dev.scheduleBeat_slides s.flash hon hready]
    rfl
  refine leadsTo_of_dev (congrArg (ok s) hdev) ⟨u.slid_slide die.val hslide, congrArg Part.reach (u.slid_part die.val die.val), u.slid_count die.val, u.slid_event die.val, ?_, rfl⟩
  obtain ⟨hreg, hcore, hpart, hfab, hbyte, hchain, hspr, hctl, hsby, hsec, hnow⟩ := Frame.slid u die.val
  exact ⟨hreg, hcore, hpart, hfab, hbyte, hchain, hspr, hctl, hsby, hsec, hnow⟩

theorem exec_voteDeadline {s : State} {die : DieId} (hstep : (s.dev.part die.val).stepping = true) (hfired : (s.dev.part die.val).voteFired = false)
    (hdead : (s.dev.voteEntry die.val).map (fun e => e.arg) = some (s.dev.beatOffset die.val)) :
    leadsTo (exec (.voteDeadline die) s) (fun t =>
      (t.dev.part die.val).voteFired = true ∧ t.dev.flag Fld.STEP_STAT_UNCLEAN die.val = true ∧ t.flash = s.flash ∧
      t.dev.events die.val Ev.STEP_OVERRUN = min 0xFFFFFFFF (s.dev.events die.val Ev.STEP_OVERRUN + 1) ∧
      ∃ v, (t.dev.part die.val).ownVote = some v ∧ v.clean = false ∧ v.complete = true ∧ v.reqmap = 0) := by
  obtain ⟨hvoted, hunclean, hevent, hvote⟩ := Dev.voteDeadline_spec hstep hfired hdead
  exact ⟨_, rfl, hvoted, hunclean, rfl, hevent, hvote⟩

end Sys2Proof.Machine
end

section
/-!
PROOF. The flip of a step: its commit, its abort and its hold rounds (R326, R327, R330).
-/
namespace Sys2Proof.Machine

/-! ### Commit (R327, R330) -/

/-- The lanes of the bound cores committed. -/
def Dev.coresKept (s : Dev) (p : Nat) : Dev := s.each (s.boundCores p) (fun c s => s.setCore c { s.core c with committed := (s.core c).lanes })

/-- The grants over any list of monitors. Over a variable list no check evaluates it; over `monitors` the kernel would. -/
def Dev.grantMonitors (s : Dev) (ns : List Nat) (p map step : Nat) : Dev :=
  let s := s.each (ns.filter (s.monitored p)) (fun n s => s.setFld Fld.FMT_MON_STATE_DEN (monIdx p n) 0)
  (ns.foldl (Dev.grantOne p map step) (s, false)).1

/-- The codes of the grants. -/
def grantCodes : List Nat := [Ev.FALLBACK_GRANTED, Ev.FALLBACK_DENIED]

/-- The copies flipped, the lanes committed, the requests granted and the reversals done. -/
def Dev.granted (s : Dev) (p map : Nat) : Dev :=
  ((((s.setFld Fld.STEP_STAT_FRONT p (1 - s.fld Fld.STEP_STAT_FRONT p)).coresKept p).grants p map (s.step p)).endReversals p)

/-- The step closed: the next one's number and start, and the hold rounds it took. -/
def Dev.stepClosed (s : Dev) (p n round : Nat) (start : Word) : Dev :=
  let s := s.setFld Fld.STEP_CTR_STEP p n
  let s := s.setPart p { (s.part p).atEnd with start := some start }
  (((s.endTests p).setFld Fld.STEP_STAT_HELD p 0).setFld Fld.STEP_STAT_HOLDN p round).perf .STEP_PC_COMMIT p p 1

section
variable (s : Dev) (p map round : Nat)

theorem Dev.grants_eq (step : Nat) : s.grants p map step = s.grantMonitors monitors p map step := rfl

theorem Beside.grantOne (step : Nat) (acc : Dev × Bool) (n : Nat) : Beside grantCodes acc.1 (Dev.grantOne p map step acc n).1 := by
  unfold Dev.grantOne
  dsimp only
  split
  · exact Beside.refl _
  split
  · exact ((((Beside.setFld acc.1 Fld.FMT_BUDGET_USED _ _ (by decide)).trans (Beside.setFld _ Fld.FMT_MON_STATE_FB _ _ (by decide))).trans
      (Beside.setFld _ Fld.FMT_MON_STATE_FMT _ _ (by decide))).trans (Beside.setFld _ Fld.FMT_MON_STATE_GSTEP _ _ (by decide))).trans
      (Beside.raise _ _ _ (by decide))
  · exact (Beside.setFld acc.1 Fld.FMT_MON_STATE_DEN _ _ (by decide)).trans (Beside.raise _ _ _ (by decide))

theorem Beside.grantMonitors (ns : List Nat) (step : Nat) : Beside grantCodes s (s.grantMonitors ns p map step) := by
  have denied := Beside.each (cs := grantCodes) s (ns.filter (s.monitored p)) (fun n s => s.setFld Fld.FMT_MON_STATE_DEN (monIdx p n) 0)
    fun n _ t => Beside.setFld t Fld.FMT_MON_STATE_DEN _ _ (by decide)
  unfold Dev.grantMonitors
  exact List.foldlRecOn (motive := fun acc : Dev × Bool => Beside grantCodes s acc.1) ns _ denied fun acc hacc n _ =>
    hacc.trans (Beside.grantOne p map step acc n)

theorem Beside.grants (step : Nat) : Beside grantCodes s (s.grants p map step) := by
  rw [Dev.grants_eq]
  exact Beside.grantMonitors s p map monitors step

theorem Beside.endReversals {cs : List Nat} : Beside cs s (s.endReversals p) := by
  unfold Dev.endReversals
  exact (Beside.each s _ _ fun _ _ t => Beside.setReg t .FMT_MON_RVSTEP _ _ (by decide)).trans (Beside.setPart _ _ _ (Part.own_rvApplied _ _))

theorem Dev.eachKept_core (cs : List Nat) (c : Nat) :
    (s.each cs (fun c s => s.setCore c { s.core c with committed := (s.core c).lanes })).core c =
      if c ∈ cs then { s.core c with committed := (s.core c).lanes } else s.core c := by
  induction cs generalizing s with
  | nil => rfl
  | cons d cs ih =>
    refine (ih _).trans ?_
    by_cases h : c = d
    · subst h
      simp
    · simp [Dev.setCore_ne _ _ _ _ h, h]

theorem Dev.coresKept_keeps {β : Type} (f : Dev → β) (h : ∀ t c x, f (Dev.setCore t c x) = f t) : f (s.coresKept p) = f s :=
  Dev.each_keeps f (s.boundCores p) _ (fun _ _ t => h t _ _) s

/-- What the flip has done, before its step closes. -/
structure Granted (s : Dev) (p : Nat) (t : Dev) : Prop where
  fld : ∀ f ∈ sideFields, f ≠ Fld.STEP_STAT_FRONT → ∀ i, t.fld f i = s.fld f i
  front : t.fld Fld.STEP_STAT_FRONT p = 1 - s.fld Fld.STEP_STAT_FRONT p
  cores : ∀ c, t.core c = if c ∈ s.boundCores p then { s.core c with committed := (s.core c).lanes } else s.core c
  mem : t.mem = s.mem
  spr : t.spr = s.spr

theorem Dev.flipped_boundCores (v : Nat) : (s.setFld Fld.STEP_STAT_FRONT p v).boundCores p = s.boundCores p :=
  Dev.boundCores_of_own (fun f hf i => Dev.fld_setFld_kind s _ f p i v (by fin_cases hf <;> decide)) rfl

theorem Granted.granted : Granted s p (s.granted p map) := by
  have after := (Beside.grants ((s.setFld Fld.STEP_STAT_FRONT p (1 - s.fld Fld.STEP_STAT_FRONT p)).coresKept p) p map (s.step p)).trans
    (Beside.endReversals _ p)
  have kept : ∀ f i, ((s.setFld Fld.STEP_STAT_FRONT p (1 - s.fld Fld.STEP_STAT_FRONT p)).coresKept p).fld f i =
      (s.setFld Fld.STEP_STAT_FRONT p (1 - s.fld Fld.STEP_STAT_FRONT p)).fld f i := fun f i =>
    Dev.coresKept_keeps _ p (fun t => t.fld f i) fun _ _ _ => rfl
  have clear : ∀ f ∈ sideFields, f ≠ Fld.STEP_STAT_FRONT → f.apart Fld.STEP_STAT_FRONT = true := by decide
  refine ⟨fun f hf hne i => ?_, ?_, fun c => ?_, ?_, ?_⟩
  · exact (after.fld f i hf).trans ((kept f i).trans (Dev.fld_setFld_of_apart s p i _ (by decide) (clear f hf hne)))
  · refine (after.fld _ p (by decide)).trans ((kept _ p).trans ((Dev.fld_setFld_self s Fld.STEP_STAT_FRONT p _ (by decide)).trans (Nat.mod_eq_of_lt ?_)))
    exact Nat.lt_of_le_of_lt (Nat.sub_le _ _) (by decide)
  · refine (after.core c).trans ((Dev.eachKept_core _ _ c).trans ?_)
    rw [Dev.flipped_boundCores]
    rfl
  · exact after.mem.trans (Dev.coresKept_keeps _ p (fun t => t.mem) fun _ _ _ => rfl)
  · exact after.spr.trans (Dev.coresKept_keeps _ p (fun t => t.spr) fun _ _ _ => rfl)

end

section
variable (s : Dev) (p n round : Nat) (start : Word)

/-- The step's number and the partition at its end. -/
def Dev.stepNumbered (s : Dev) (p n : Nat) (start : Word) : Dev :=
  (s.setFld Fld.STEP_CTR_STEP p n).setPart p { ((s.setFld Fld.STEP_CTR_STEP p n).part p).atEnd with start := some start }

/-- The rolling tests that had switched ended, and the hold rounds shown. -/
def Dev.roundsShown (s : Dev) (p round : Nat) : Dev := ((s.endTests p).setFld Fld.STEP_STAT_HELD p 0).setFld Fld.STEP_STAT_HOLDN p round

theorem Dev.stepClosed_eq : s.stepClosed p n round start = ((s.stepNumbered p n start).roundsShown p round).perf .STEP_PC_COMMIT p p 1 := rfl

theorem Aside.stepNumbered {fs : List Fld} {cs : List Nat} (h : Fld.STEP_CTR_STEP.clearOf fs = true) : Aside fs cs s (s.stepNumbered p n start) :=
  (Aside.setFld s _ _ _ h).trans (Aside.setPart _ _ _)

theorem Aside.roundsShown {fs : List Fld} {cs : List Nat} (hfs : ∀ f ∈ fs, f ∈ sideFields) (h : Fld.STEP_STAT_HELD.clearOf fs = true)
    (h' : Fld.STEP_STAT_HOLDN.clearOf fs = true) : Aside fs cs s (s.roundsShown p round) :=
  (((Dropped.endTests s p).spared.aside.mono hfs (by simp)).trans (Aside.setFld _ _ _ _ h)).trans (Aside.setFld _ _ _ _ h')

/-- The fields that the end of a step leaves alone. -/
def closeFields : List Fld := [Fld.STEP_STAT_FRONT, Fld.HLK_PARTCFG_PARTS]

theorem Aside.stepClosed : Aside closeFields [Ev.PERF_WRAP] s (s.stepClosed p n round start) := by
  rw [Dev.stepClosed_eq]
  exact ((Aside.stepNumbered s p n start (by decide)).trans (Aside.roundsShown _ p round (by decide) (by decide) (by decide))).trans
    (Aside.perf _ _ _ _ _ (by decide) (by decide) (by decide))

theorem Dev.stepClosed_step : (s.stepClosed p n round start).step p = n % 2 ^ 40 := by
  have shown := Aside.roundsShown (fs := [Fld.STEP_CTR_STEP]) (cs := []) (s.stepNumbered p n start) p round (by decide) (by decide) (by decide)
  rw [Dev.stepClosed_eq]
  exact (Dev.perf_fld _ _ _ _ _ Fld.STEP_CTR_STEP _ rfl (by decide)).trans ((shown.fld _ List.mem_cons_self p).trans (Dev.fld_setFld_self s _ p n (by decide)))

theorem Dev.stepClosed_stepping : ((s.stepClosed p n round start).part p).stepping = false := by
  have hpart : ((s.stepNumbered p n start).roundsShown p round).part p = (s.stepNumbered p n start).part p := (Dropped.endTests _ p).spared.part p
  rw [Dev.stepClosed_eq, Dev.perf_part, hpart]
  exact congrArg Part.stepping (Dev.setPart_self _ p _)

theorem Dev.stepClosed_rounds : (s.stepClosed p n round start).fld Fld.STEP_STAT_HOLDN p = round % 256 := by
  rw [Dev.stepClosed_eq]
  exact (Dev.perf_fld _ _ _ _ _ _ _ rfl (by decide)).trans (Dev.fld_setFld_self _ Fld.STEP_STAT_HOLDN p round (by decide))

theorem Dev.stepClosed_held : (s.stepClosed p n round start).fld Fld.STEP_STAT_HELD p = 0 := by
  rw [Dev.stepClosed_eq]
  refine (Dev.perf_fld _ _ _ _ _ _ _ rfl (by decide)).trans ((Dev.fld_setFld_of_apart _ p p round (by decide) (by decide)).trans ?_)
  exact Dev.fld_setFld_self _ Fld.STEP_STAT_HELD p 0 (by decide)

theorem Dev.stepClosed_count : (s.stepClosed p n round start).reg .STEP_PC_COMMIT p % 2 ^ 48 = (s.reg .STEP_PC_COMMIT p + 1) % 2 ^ 48 := by
  have before := (Aside.stepNumbered (fs := [Fld.STEP_PC_COMMIT_COUNT]) (cs := []) s p n start (by decide)).trans
    (Aside.roundsShown _ p round (by decide) (by decide) (by decide))
  rw [Dev.stepClosed_eq, Dev.perf_self _ _ _ _ _ rfl, Nat.add_mod, Dev.low48_of_fld _ (before.fld Fld.STEP_PC_COMMIT_COUNT List.mem_cons_self p), ← Nat.add_mod]

theorem Dev.stepClosed_store : (s.stepClosed p n round start).mem = s.mem ∧ (s.stepClosed p n round start).cores = s.cores ∧
    ∀ y ∈ (s.stepClosed p n round start).spr.swaps, y ∈ s.spr.swaps := by
  have ended := Dropped.endTests (s.stepNumbered p n start) p
  rw [Dev.stepClosed_eq]
  refine ⟨(Dev.perf_mem ..).trans ended.mem, (Dev.perf_cores ..).trans ended.cores, fun y hy => ?_⟩
  rw [Dev.perf_spr] at hy
  exact ended.spared.swaps y hy

end

/-- A step that has committed, with no rolling test that waits to switch back. -/
structure Committed (s : Dev) (p round : Nat) (t : Dev) : Prop where
  front : t.fld Fld.STEP_STAT_FRONT p = 1 - s.fld Fld.STEP_STAT_FRONT p
  step : t.step p = s.step p + 1
  stepping : (t.part p).stepping = false
  rounds : t.fld Fld.STEP_STAT_HOLDN p = round % 256
  held : t.fld Fld.STEP_STAT_HELD p = 0
  count : t.reg .STEP_PC_COMMIT p % 2 ^ 48 = (s.reg .STEP_PC_COMMIT p + 1) % 2 ^ 48
  cores : ∀ c, t.core c = if c ∈ s.boundCores p then { s.core c with committed := (s.core c).lanes } else s.core c
  mem : t.mem = s.mem
  settled : t.noneBack p

section
variable {s : Dev} {p : Nat} (map round : Nat)

theorem Committed.stepClosed (start : Word) (hsettled : s.noneBack p) (hstep : s.step p < 0xFFFFFFFFFF) :
    Committed s p round ((s.granted p map).stepClosed p (s.step p + 1) round start) := by
  obtain ⟨hfld, hfront, hcores, hmem, hspr⟩ := Granted.granted s p map
  obtain ⟨hmem', hcores', hswaps⟩ := (s.granted p map).stepClosed_store p (s.step p + 1) round start
  have closed := Aside.stepClosed (s.granted p map) p (s.step p + 1) round start
  refine ⟨(closed.fld _ (by decide) p).trans hfront, ?_, Dev.stepClosed_stepping _ _ _ _ _, Dev.stepClosed_rounds _ _ _ _ _, Dev.stepClosed_held _ _ _ _ _, ?_,
    fun c => ?_, hmem'.trans hmem, hsettled.keeps ?_ fun y hy => hspr ▸ hswaps y hy⟩
  · exact (Dev.stepClosed_step _ _ _ _ _).trans (Nat.mod_eq_of_lt (by omega))
  · rw [Dev.stepClosed_count, Nat.add_mod, Dev.low48_of_fld _ (hfld Fld.STEP_PC_COMMIT_COUNT (by decide) (by decide) p), ← Nat.add_mod]
  · have e : ((s.granted p map).stepClosed p (s.step p + 1) round start).core c = (s.granted p map).core c := by unfold Dev.core; rw [hcores']
    rw [e, hcores]
  · exact (closed.fld Fld.HLK_PARTCFG_PARTS (by decide) 0).trans (hfld Fld.HLK_PARTCFG_PARTS (by decide) (by decide) 0)

theorem Committed.toLoaded {t : Dev} (h : Committed s p round t) : Committed s p round (t.toLoaded p) := by
  have hback : (t.loadedRegs p).noneBack p := h.settled.keeps (Dev.fld_setFld_kind t _ _ _ _ _ (by decide)) fun _ hy => hy
  have hload : t.toLoaded p = t.loadedRegs p := Dev.swapsBack_noneBack hback
  have other : ∀ f : Fld, f.reg ≠ .PLAN_STAT → (t.loadedRegs p).fld f p = t.fld f p := fun f hf => Dev.fld_setFld_kind t _ _ _ _ _ hf
  have hpart : (t.loadedRegs p).part p = { t.part p with start := none, stopReq := false } := Dev.setPart_self _ p _
  rw [hload]
  refine ⟨(other _ (by decide)).trans h.front, (other _ (by decide)).trans h.step, ?_, (other _ (by decide)).trans h.rounds,
    (other _ (by decide)).trans h.held, ?_, h.cores, h.mem, hback⟩
  · rw [hpart]; exact h.stepping
  · exact (congrArg (· % 2 ^ 48) (Dev.reg_setFld_kind t _ .STEP_PC_COMMIT p p 2 (by decide))).trans h.count

theorem Dev.commitStep_eq (hstep : s.step p ≠ 0xFFFFFFFFFF) : ∃ start,
    s.commitStep p map round = ((s.granted p map).stepClosed p (s.step p + 1) round start).toLoaded p ∨
      s.commitStep p map round = (s.granted p map).stepClosed p (s.step p + 1) round start := by
  unfold Dev.commitStep Dev.stepClosed Dev.granted Dev.coresKept
  dsimp only
  rw [if_neg hstep]
  exact ⟨_, ite_eq_or_eq _ _ _⟩

theorem Committed.commitStep (hsettled : s.noneBack p) (hstep : s.step p < 0xFFFFFFFFFF) : Committed s p round (s.commitStep p map round) := by
  obtain ⟨start, h | h⟩ := Dev.commitStep_eq map round (s := s) (p := p) (Nat.ne_of_lt hstep)
  · rw [h]; exact (Committed.stepClosed map round start hsettled hstep).toLoaded
  · rw [h]; exact Committed.stepClosed map round start hsettled hstep

end

end Sys2Proof.Machine
end

section
/-!
PROOF. The decision of a step, and what settles O34 (R310, R311, R318, R326, R327, R330).
-/
namespace Sys2Proof.Machine

/-! ### The decision (R326) -/

/-- A partition at a hold round. -/
def Dev.atRound (s : Dev) (p round : Nat) : Dev := s.setPart p { s.part p with round := round }

/-- A decision to commit: a clean one of the partition's own digest whose request map is no storm. -/
structure Dev.decidesClean (s : Dev) (p : Nat) (v : Vote) : Prop where
  verdict : s.flag Fld.STEP_STAT_UNCLEAN p = false
  fired : (s.part p).voteFired = true
  clean : v.clean = true
  complete : v.complete = true
  agreed : v.split = false
  digest : v.digest = s.fld Fld.FMT_STAT_DIGEST p
  calm : s.storm p v.reqmap = false

theorem decidesClean_iff {s : Dev} {p : Nat} {v : Vote} : s.decidesClean p v ↔ s.flag Fld.STEP_STAT_UNCLEAN p = false ∧ (s.part p).voteFired = true ∧
    v.clean = true ∧ v.complete = true ∧ v.split = false ∧ v.digest = s.fld Fld.FMT_STAT_DIGEST p ∧ s.storm p v.reqmap = false :=
  ⟨fun ⟨hv, hf, hc, hk, hs, hd, hm⟩ => ⟨hv, hf, hc, hk, hs, hd, hm⟩, fun ⟨hv, hf, hc, hk, hs, hd, hm⟩ => ⟨hv, hf, hc, hk, hs, hd, hm⟩⟩

/-- Whether a drain is not done by a round. -/
def Part.pending (x : Part) (v : Vote) (round : Nat) : Bool := v.drain && !(match x.allDone with
  | some r => decide (r ≤ round)
  | none => false)

/-- A step held for a round. -/
def Dev.held (s : Dev) (p : Nat) : Dev :=
  ((s.setPart p { s.part p with holding := true }).setFld Fld.STEP_STAT_HELD p 1).perf .STEP_PC_HOLD p p 1

/-- What a partition does at a round by a decision. -/
def Dev.decided (s : Dev) (p round : Nat) (v : Vote) : Dev :=
  let x := s.part p
  if s.flag Fld.STEP_STAT_UNCLEAN p || !x.voteFired || !v.clean || !v.complete then (s.ownStorm p).abortStep p
  else if v.split || decide (v.digest ≠ s.fld Fld.FMT_STAT_DIGEST p) then ((s.setFld Fld.FMT_STAT_SPLIT p 1).raise p Ev.FALLBACK_SPLIT).abortStep p
  else if s.storm p v.reqmap then ((s.setFld Fld.FMT_STAT_STORM p 1).raise p Ev.FALLBACK_STORM).abortStep p
  else if x.pending v round && decide (round < x.holdmax) then if round = 0 then (s.held p).raise p Ev.DRAIN_STALL else s.held p
  else (if x.pending v round && decide (s.fld Fld.CTX_DSTAT_STATE p = 1) then s.abandonDrain p else s).commitStep p v.reqmap round

/-- What a decision that is none leaves to abort: a partition that voted clean is uncertain, and an own storm is shown. -/
def Dev.undecided (s : Dev) (p : Nat) : Dev := (if (s.part p).votedClean then s.uncertain p else s).ownStorm p

section
variable {s : Dev} {p round : Nat}

theorem Dev.atRound_part : (s.atRound p round).part p = { s.part p with round := round } := Dev.setPart_self s p _

theorem Dev.atRound_decision : ((s.atRound p round).part p).decision = (s.part p).decision := by rw [Dev.atRound_part]

theorem Dev.decidesClean.atRound {v : Vote} (h : s.decidesClean p v) : (s.atRound p round).decidesClean p v :=
  ⟨h.verdict, by rw [Dev.atRound_part]; exact h.fired, h.clean, h.complete, h.agreed, h.digest, h.calm⟩

theorem Dev.atRound_pending (v : Vote) (r : Nat) : ((s.atRound p round).part p).pending v r = (s.part p).pending v r := by rw [Dev.atRound_part]; rfl

theorem Dev.decideFlip_some {v : Vote} (hv : (s.part p).decision = some v) : s.decideFlip p round = (s.atRound p round).decided p round v := by
  have hround : s.setPart p { s.part p with round := round } = s.atRound p round := rfl
  unfold Dev.decideFlip
  simp only [hround]
  split
  next h => rw [Dev.atRound_decision, hv] at h; cases h
  next w h =>
    rw [Dev.atRound_decision, hv] at h
    cases h
    unfold Dev.decided Part.pending Dev.held
    rfl

theorem Dev.decideFlip_none (hnone : (s.part p).decision = none) : s.decideFlip p round = ((s.atRound p round).undecided p).abortStep p := by
  have hround : s.setPart p { s.part p with round := round } = s.atRound p round := rfl
  unfold Dev.decideFlip
  simp only [hround]
  rw [Dev.atRound_decision, hnone]
  rfl

/-- Up to its drain, a clean decision goes through. -/
theorem Dev.decided_clean {v : Vote} (h : s.decidesClean p v) : s.decided p round v =
    if (s.part p).pending v round && decide (round < (s.part p).holdmax) then if round = 0 then (s.held p).raise p Ev.DRAIN_STALL else s.held p
    else (if (s.part p).pending v round && decide (s.fld Fld.CTX_DSTAT_STATE p = 1) then s.abandonDrain p else s).commitStep p v.reqmap round := by
  obtain ⟨hverdict, hfired, hclean, hcomplete, hsplit, hdigest, hcalm⟩ := h
  unfold Dev.decided
  dsimp only
  rw [if_neg (by simp [hverdict, hfired, hclean, hcomplete]), if_neg (by simp [hsplit, hdigest]), if_neg (by simp [hcalm])]

/-- A clean decision commits where no drain holds it. -/
theorem Dev.decideFlip_commit {v : Vote} (hv : (s.part p).decision = some v) (hclean : s.decidesClean p v)
    (hdrain : (s.part p).pending v round = false) : s.decideFlip p round = (s.atRound p round).commitStep p v.reqmap round := by
  rw [Dev.decideFlip_some hv, Dev.decided_clean hclean.atRound, Dev.atRound_pending, hdrain]
  rfl

/-- A clean decision whose drain is not done holds the step for another round. -/
theorem Dev.decideFlip_held {v : Vote} (hv : (s.part p).decision = some v) (hclean : s.decidesClean p v)
    (hdrain : (s.part p).pending v round = true) (hmax : round < (s.part p).holdmax) (hround : round ≠ 0) :
    s.decideFlip p round = (s.atRound p round).held p := by
  have hmax' : round < ((s.atRound p round).part p).holdmax := by rw [Dev.atRound_part]; exact hmax
  rw [Dev.decideFlip_some hv, Dev.decided_clean hclean.atRound, Dev.atRound_pending, hdrain, if_pos (by simp [hmax']), if_neg hround]

theorem Dev.atRound_noneBack (h : s.noneBack p) : (s.atRound p round).noneBack p := h.keeps rfl fun _ hy => hy

theorem Dev.atRound_boundCores : (s.atRound p round).boundCores p = s.boundCores p := by
  refine Dev.boundCores_of_own (fun _ _ _ => rfl) ?_
  rw [Dev.atRound_part]

/-- A step that commits at a round commits from the partition as it stood. -/
theorem Committed.of_atRound {t : Dev} (h : Committed (s.atRound p round) p round t) : Committed s p round t := by
  obtain ⟨hfront, hstep, hstepping, hrounds, hheld, hcount, hcores, hmem, hsettled⟩ := h
  rw [Dev.atRound_boundCores] at hcores
  exact ⟨hfront, hstep, hstepping, hrounds, hheld, hcount, hcores, hmem, hsettled⟩

theorem Committed.decideFlip {v : Vote} (hv : (s.part p).decision = some v) (hclean : s.decidesClean p v)
    (hdrain : (s.part p).pending v round = false) (hsettled : s.noneBack p) (hstep : s.step p < 0xFFFFFFFFFF) :
    Committed s p round (s.decideFlip p round) := by
  rw [Dev.decideFlip_commit hv hclean hdrain]
  exact (Committed.commitStep v.reqmap round (Dev.atRound_noneBack hsettled) hstep).of_atRound

end

/-! ### An abort for want of a decision -/

/-- A step that has aborted with both of its copies as they were. -/
structure Aborted (s : Dev) (p : Nat) (t : Dev) : Prop where
  front : t.fld Fld.STEP_STAT_FRONT p = s.fld Fld.STEP_STAT_FRONT p
  step : t.step p = s.step p
  stepping : (t.part p).stepping = false
  planState : t.planState p = 2
  start : (t.part p).start = none
  event : t.events p Ev.STEP_ABORT = min 0xFFFFFFFF (s.events p Ev.STEP_ABORT + 1)
  count : t.reg .STEP_PC_ABORT p % 2 ^ 48 = (s.reg .STEP_PC_ABORT p + 1) % 2 ^ 48
  lanes : ∀ c ∈ s.boundCores p, (t.core c).lanes = (s.core c).committed
  mem : t.mem = s.mem

/-- The side fields that the want of a decision leaves alone. -/
def undecidedFields : List Fld :=
  [Fld.STEP_STAT_FRONT, Fld.STEP_CTR_STEP, Fld.STEP_PC_ABORT_COUNT, Fld.CTL_DIECFG_FENCED, Fld.SPR_CLSTAT_SHORT, Fld.HLK_PARTCFG_PARTS]

theorem undecidedFields_side : ∀ f ∈ undecidedFields, f ∈ sideFields := by decide

/-- What the want of a decision changes before the abort. -/
structure Undecided (s : Dev) (p : Nat) (t : Dev) : Prop where
  aside : Aside undecidedFields [Ev.COMMIT_UNCERTAIN] s t
  plan : (t.part p).plan = (s.part p).plan
  mem : t.mem = s.mem
  cores : t.cores = s.cores
  spr : t.spr = s.spr

section
variable {s t : Dev} {p : Nat}

theorem Aborted.abortStep (hfenced : s.fenced p = false) (hsettled : s.noneBack p) : Aborted s p (s.abortStep p) := by
  have aborted := Aside.abortStep s p
  exact ⟨aborted.fld Fld.STEP_STAT_FRONT (by decide) p, aborted.fld Fld.STEP_CTR_STEP (by decide) p, Dev.abortStep_stepping s p, Dev.abortStep_planState s p,
    Dev.abortStep_start s p, Dev.abortStep_event s p hfenced, Dev.abortStep_count s p, fun c hc => Dev.abortStep_lanes s p hsettled hc,
    (Dev.abortStep_store s p hsettled).1⟩

theorem Undecided.trans {u : Dev} (h : Undecided s p t) (g : Undecided t p u) : Undecided s p u :=
  ⟨h.aside.trans g.aside, g.plan.trans h.plan, g.mem.trans h.mem, g.cores.trans h.cores, g.spr.trans h.spr⟩

theorem Undecided.atRound (s : Dev) (p round : Nat) : Undecided s p (s.atRound p round) :=
  ⟨Aside.setPart s p _, by rw [Dev.atRound_part], rfl, rfl, rfl⟩

theorem Undecided.uncertain (s : Dev) (p : Nat) : Undecided s p (s.uncertain p) :=
  ⟨Aside.uncertain s p (by decide) (by decide) (by decide), by rw [Dev.uncertain_part], (Quiet.raise _ _ _).mem, (Quiet.raise _ _ _).cores, (Quiet.raise _ _ _).spr⟩

theorem Beside.ownStorm {cs : List Nat} (s : Dev) (p : Nat) : Beside cs s (s.ownStorm p) := by
  unfold Dev.ownStorm
  split
  · exact Beside.ite (fun _ => Beside.setFld s Fld.FMT_STAT_STORM _ _ (by decide)) (fun _ => Beside.refl s)
  · exact Beside.refl s

theorem Undecided.ownStorm (s : Dev) (p : Nat) : Undecided s p (s.ownStorm p) := by
  have storm := Beside.ownStorm (cs := [Ev.COMMIT_UNCERTAIN]) s p
  exact ⟨storm.aside.mono undecidedFields_side fun _ => id, storm.part p Part.plan fun _ => rfl, storm.mem, storm.cores, storm.spr⟩

theorem Undecided.undecided (s : Dev) (p : Nat) : Undecided s p (s.undecided p) := by
  unfold Dev.undecided
  split
  · exact (Undecided.uncertain s p).trans (Undecided.ownStorm _ p)
  · exact Undecided.ownStorm s p

/-- An abort after what changes nothing of the step's copies is one of the step as it stood. -/
theorem Undecided.abortStep {u : Dev} (h : Undecided s p u) (hfenced : s.fenced p = false) (hsettled : s.noneBack p) : Aborted s p (u.abortStep p) := by
  obtain ⟨haside, hplan, hmem, hcores, hspr⟩ := h
  have hfenced' : u.fenced p = false := by
    unfold Dev.fenced Dev.flag
    rw [haside.fld _ (by decide)]
    exact hfenced
  have hbound : u.boundCores p = s.boundCores p := Dev.boundCores_of_own (fun f hf i => haside.fld f (by fin_cases hf <;> decide) i) hplan
  have hcore : ∀ c, u.core c = s.core c := fun c => by unfold Dev.core; rw [hcores]
  have aborted := Aborted.abortStep hfenced' (hsettled.keeps (haside.fld _ (by decide) 0) fun y hy => hspr ▸ hy)
  refine ⟨aborted.front.trans (haside.fld _ (by decide) p), aborted.step.trans (haside.fld Fld.STEP_CTR_STEP (by decide) p), aborted.stepping, aborted.planState,
    aborted.start, ?_, ?_, fun c hc => ?_, aborted.mem.trans hmem⟩
  · rw [aborted.event, haside.events p _ (by decide) (by decide)]
  · rw [aborted.count, Nat.add_mod, Dev.low48_of_fld _ (haside.fld Fld.STEP_PC_ABORT_COUNT (by decide) p), ← Nat.add_mod]
  · rw [aborted.lanes c (hbound.symm ▸ hc), hcore]

theorem Dev.uncertain_flag (s : Dev) (p : Nat) : (s.uncertain p).flag Fld.STEP_STAT_UNCERT p = true := by
  unfold Dev.uncertain
  rw [Dev.flag, (Quiet.raise _ _ _).fld _ _ rfl, Dev.fld_setFld_self _ _ _ _ (by decide)]
  rfl

/-- A partition that voted clean is uncertain, through the abort too. -/
theorem Dev.undecided_unsure (h : (s.part p).votedClean = true) : ((s.undecided p).abortStep p).flag Fld.STEP_STAT_UNCERT p = true := by
  have hkept : ((s.undecided p).abortStep p).fld Fld.STEP_STAT_UNCERT p = (s.uncertain p).fld Fld.STEP_STAT_UNCERT p := by
    refine ((Aside.abortStep _ p).fld _ (by decide) p).trans ?_
    unfold Dev.undecided
    rw [if_pos h]
    exact (Beside.ownStorm (cs := []) _ p).fld Fld.STEP_STAT_UNCERT p (by decide)
  rw [Dev.flag, hkept]
  exact s.uncertain_flag p

end

/-! ### A step held for its drain (R326) -/

/-- What a hold round touches. -/
def holdTouches (p : Nat) : Touches := { part := fun q => q = p, reg := fun k i => i = p ∧ (k = .STEP_STAT ∨ k = .STEP_PC_HOLD) }

section
variable (s : Dev) (p round : Nat)

theorem Dev.held_part : ((s.atRound p round).held p).part p = { s.part p with round := round, holding := true } := by
  unfold Dev.held
  rw [Dev.perf_part, Dev.setFld_part, Dev.setPart_self, Dev.atRound_part]

theorem Dev.held_flag : (s.held p).flag Fld.STEP_STAT_HELD p = true := by
  unfold Dev.held
  rw [Dev.flag, Dev.perf_fld _ _ _ _ _ _ _ rfl (by decide), Dev.fld_setFld_self _ _ _ _ (by decide)]
  rfl

theorem Dev.held_count : (s.held p).reg .STEP_PC_HOLD p % 2 ^ 48 = (s.reg .STEP_PC_HOLD p + 1) % 2 ^ 48 := by
  unfold Dev.held
  rw [Dev.perf_self _ _ _ _ _ rfl, Dev.reg_setFld_kind _ _ _ _ _ _ (by decide)]
  rfl

theorem Frame.held : Frame (holdTouches p) s ((s.atRound p round).held p) :=
  (((Frame.setPart (holdTouches p) s p _ rfl).trans (Frame.setPart _ _ p _ rfl)).trans (Frame.setFld _ _ Fld.STEP_STAT_HELD p 1 ⟨rfl, .inl rfl⟩)).trans
    (Frame.perf _ _ .STEP_PC_HOLD p p 1 ⟨rfl, .inr rfl⟩)

end

/-! ### The commands -/

section
variable {s : State} {die : DieId}

/-- What the statement says of a commit at a round. -/
def commits (s : State) (p round : Nat) (t : State) : Prop :=
  t.dev.fld Fld.STEP_STAT_FRONT p = 1 - s.dev.fld Fld.STEP_STAT_FRONT p ∧ t.dev.step p = s.dev.step p + 1 ∧ (t.dev.part p).stepping = false ∧
  t.dev.fld Fld.STEP_STAT_HOLDN p = round % 256 ∧ t.dev.flag Fld.STEP_STAT_HELD p = false ∧
  t.dev.reg .STEP_PC_COMMIT p % 2 ^ 48 = (s.dev.reg .STEP_PC_COMMIT p + 1) % 2 ^ 48 ∧
  (∀ c, t.dev.core c = if c ∈ s.dev.boundCores p then { s.dev.core c with committed := (s.dev.core c).lanes } else s.dev.core c) ∧
  (∀ a, Memory.byte t.dev.mem a = Memory.byte s.dev.mem a) ∧ t.flash = s.flash

theorem Committed.commits {p round : Nat} {t : Dev} (h : Committed s.dev p round t) : commits s p round { s with dev := t } := by
  obtain ⟨hfront, hstep, hstepping, hrounds, hheld, hcount, hcores, hmem, -⟩ := h
  refine ⟨hfront, hstep, hstepping, hrounds, ?_, hcount, hcores, fun a => congrArg (fun m => Memory.byte m a) hmem, rfl⟩
  unfold Dev.flag
  rw [hheld]
  rfl

theorem Dev.flipBeat_eq {s : Dev} {p : Nat} (hstep : (s.part p).stepping = true) (hhold : (s.part p).holding = false)
    (hflip : BitVec.ofNat 64 s.chainCount = (s.part p).flip) : s.flipBeat p = s.decideFlip p 0 := by
  simp [Dev.flipBeat, hstep, hhold, hflip]

theorem Dev.holdRound_eq {s : Dev} {p : Nat} (hstep : (s.part p).stepping = true) (hhold : (s.part p).holding = true)
    (hbeat : BitVec.ofNat 64 s.chainCount = (s.part p).flip + BitVec.ofNat 64 (((s.part p).round + 1) * (s.part p).holdq)) :
    s.holdRound p = s.decideFlip p ((s.part p).round + 1) := by
  unfold Dev.holdRound
  dsimp only
  rw [if_pos (by simp only [hstep, hhold, hbeat, decide_true, Bool.and_self])]

theorem exec_flipBeat_commits {v : Vote} (hstepping : (s.dev.part die.val).stepping = true) (hhold : (s.dev.part die.val).holding = false)
    (hflip : BitVec.ofNat 64 s.dev.chainCount = (s.dev.part die.val).flip) (hsettled : s.dev.noneBack die.val)
    (hv : (s.dev.part die.val).decision = some v) (hclean : s.dev.decidesClean die.val v) (hdrain : v.drain = false)
    (hstep : s.dev.step die.val < 0xFFFFFFFFFF) : leadsTo (exec (.flipBeat die) s) (commits s die.val 0) := by
  have hpending : (s.dev.part die.val).pending v 0 = false := by simp [Part.pending, hdrain]
  exact leadsTo_of_dev (congrArg (ok s) (Dev.flipBeat_eq hstepping hhold hflip)) (Committed.decideFlip hv hclean hpending hsettled hstep).commits

theorem exec_flipBeat_aborts (hstepping : (s.dev.part die.val).stepping = true) (hhold : (s.dev.part die.val).holding = false)
    (hflip : BitVec.ofNat 64 s.dev.chainCount = (s.dev.part die.val).flip) (hsettled : s.dev.noneBack die.val)
    (hnone : (s.dev.part die.val).decision = none) (hfenced : s.dev.fenced die.val = false) : leadsTo (exec (.flipBeat die) s) (fun t =>
      t.dev.fld Fld.STEP_STAT_FRONT die.val = s.dev.fld Fld.STEP_STAT_FRONT die.val ∧ t.dev.step die.val = s.dev.step die.val ∧
      (t.dev.part die.val).stepping = false ∧ t.dev.planState die.val = 2 ∧ (t.dev.part die.val).start = none ∧
      t.dev.events die.val Ev.STEP_ABORT = min 0xFFFFFFFF (s.dev.events die.val Ev.STEP_ABORT + 1) ∧
      t.dev.reg .STEP_PC_ABORT die.val % 2 ^ 48 = (s.dev.reg .STEP_PC_ABORT die.val + 1) % 2 ^ 48 ∧
      ((s.dev.part die.val).votedClean = true → t.dev.flag Fld.STEP_STAT_UNCERT die.val = true) ∧
      (∀ c ∈ s.dev.boundCores die.val, (t.dev.core c).lanes = (s.dev.core c).committed) ∧
      (∀ a, Memory.byte t.dev.mem a = Memory.byte s.dev.mem a) ∧ t.flash = s.flash) := by
  have hdev : s.dev.flipBeat die.val = ((s.dev.atRound die.val 0).undecided die.val).abortStep die.val :=
    (Dev.flipBeat_eq hstepping hhold hflip).trans (Dev.decideFlip_none hnone)
  obtain ⟨hfront, hstep, hstep', hplan, hstart, hevent, hcount, hlanes, hmem⟩ :=
    ((Undecided.atRound s.dev die.val 0).trans (Undecided.undecided _ die.val)).abortStep hfenced hsettled
  refine leadsTo_of_dev (congrArg (ok s) hdev) ⟨hfront, hstep, hstep', hplan, hstart, hevent, hcount, fun hvoted => ?_, hlanes,
    fun a => congrArg (fun m => Memory.byte m a) hmem, rfl⟩
  refine Dev.undecided_unsure ?_
  rw [Dev.atRound_part]
  exact hvoted

theorem exec_holdRound_commits {v : Vote} {r : Nat} (hstepping : (s.dev.part die.val).stepping = true) (hhold : (s.dev.part die.val).holding = true)
    (hbeat : BitVec.ofNat 64 s.dev.chainCount =
      (s.dev.part die.val).flip + BitVec.ofNat 64 (((s.dev.part die.val).round + 1) * (s.dev.part die.val).holdq))
    (hsettled : s.dev.noneBack die.val) (hv : (s.dev.part die.val).decision = some v) (hclean : s.dev.decidesClean die.val v)
    (hdone : (s.dev.part die.val).allDone = some r) (hr : r ≤ (s.dev.part die.val).round + 1) (hstep : s.dev.step die.val < 0xFFFFFFFFFF) :
    leadsTo (exec (.holdRound die) s) (commits s die.val ((s.dev.part die.val).round + 1)) := by
  have hpending : (s.dev.part die.val).pending v ((s.dev.part die.val).round + 1) = false := by simp [Part.pending, hdone, hr]
  exact leadsTo_of_dev (congrArg (ok s) (Dev.holdRound_eq hstepping hhold hbeat)) (Committed.decideFlip hv hclean hpending hsettled hstep).commits

theorem exec_holdRound_holds {v : Vote} (hstepping : (s.dev.part die.val).stepping = true) (hhold : (s.dev.part die.val).holding = true)
    (hbeat : BitVec.ofNat 64 s.dev.chainCount =
      (s.dev.part die.val).flip + BitVec.ofNat 64 (((s.dev.part die.val).round + 1) * (s.dev.part die.val).holdq))
    (hv : (s.dev.part die.val).decision = some v) (hclean : s.dev.decidesClean die.val v) (hdrain : v.drain = true)
    (hdone : (s.dev.part die.val).allDone = none) (hmax : (s.dev.part die.val).round + 1 < (s.dev.part die.val).holdmax) :
    leadsTo (exec (.holdRound die) s) (fun t =>
      t.dev.part die.val = { s.dev.part die.val with round := (s.dev.part die.val).round + 1, holding := true } ∧
      t.dev.flag Fld.STEP_STAT_HELD die.val = true ∧
      t.dev.reg .STEP_PC_HOLD die.val % 2 ^ 48 = (s.dev.reg .STEP_PC_HOLD die.val + 1) % 2 ^ 48 ∧ t.flash = s.flash ∧
      Frame (holdTouches die.val) s.dev t.dev) := by
  have hpending : (s.dev.part die.val).pending v ((s.dev.part die.val).round + 1) = true := by simp [Part.pending, hdone, hdrain]
  have hdev := (Dev.holdRound_eq hstepping hhold hbeat).trans (Dev.decideFlip_held hv hclean hpending hmax (Nat.succ_ne_zero _))
  exact leadsTo_of_dev (congrArg (ok s) hdev) ⟨Dev.held_part _ _ _, Dev.held_flag _ _, Dev.held_count _ _, rfl, Frame.held _ _ _⟩

/-! ### Drains (R333) -/

/-- What a drain's last byte makes of the partition. -/
def Dev.drainEnded (s : Dev) (p : Nat) (d : Drain) : Dev :=
  (s.setPart p { s.part p with drain := none, lastDrained := some d.image }).setFld Fld.CTX_DSTAT_STATE p 2

theorem exec_drainComplete_written {d : Drain} (hd : (s.dev.part die.val).drain = some d) (hbridge : s.dev.bridgeStops die.val = false)
    (hports : ∀ q ∈ d.ports, (s.dev.hostPort q).streamed = true) : leadsTo (exec (.drainComplete die) s) (fun t =>
      (t.dev.part die.val).drain = none ∧ (t.dev.part die.val).lastDrained = some d.image ∧ t.dev.fld Fld.CTX_DSTAT_STATE die.val = 2 ∧
      t.flash = s.flash) := by
  have hgo : ¬ ((s.dev.bridgeStops die.val || d.ports.any (fun q => !(s.dev.hostPort q).streamed)) = true) := by
    simp only [hbridge, Bool.false_or, List.any_eq_true, Bool.not_eq_true', not_exists, not_and, Bool.not_eq_false]
    exact hports
  have hdev : s.dev.drainComplete die.val = (s.dev.drainEnded die.val d).tryDone die.val := by
    unfold Dev.drainComplete
    simp only [hd]
    rw [if_neg hgo]
    rfl
  have done := Beside.tryDone (s.dev.drainEnded die.val d) die.val
  have hpart : (s.dev.drainEnded die.val d).part die.val = { s.dev.part die.val with drain := none, lastDrained := some d.image } := Dev.setPart_self _ _ _
  refine leadsTo_of_dev (congrArg (ok s) hdev) ⟨?_, ?_, ?_, rfl⟩
  · exact (done.part die.val Part.drain fun _ => rfl).trans (congrArg Part.drain hpart)
  · exact (done.part die.val Part.lastDrained fun _ => rfl).trans (congrArg Part.lastDrained hpart)
  · exact (done.fld _ _ (by decide)).trans (Dev.fld_setFld_self _ Fld.CTX_DSTAT_STATE _ 2 (by decide))

theorem exec_drainComplete_waits {d : Drain} (hd : (s.dev.part die.val).drain = some d)
    (h : ¬ (s.dev.bridgeStops die.val = false ∧ ∀ q ∈ d.ports, (s.dev.hostPort q).streamed = true)) : exec (.drainComplete die) s = .next s := by
  have hstay : (s.dev.bridgeStops die.val || d.ports.any (fun q => !(s.dev.hostPort q).streamed)) = true := by
    by_contra hn
    refine h ?_
    simpa [Bool.or_eq_true, List.any_eq_true] using hn
  have hdev : s.dev.drainComplete die.val = s.dev := by
    unfold Dev.drainComplete
    simp only [hd]
    rw [if_pos hstay]
  exact congrArg (ok s) hdev

end

/-- Settles O34, from the start of a step over its schedule and its vote to its flip: each beat's rule, with what goes on beside it. -/
theorem stepsFromStartToFlip : Obligations.StepsFromStartToFlip := by
  unfold Obligations.StepsFromStartToFlip
  intro s die
  refine ⟨fun b => exec_stepStart, fun hstep hfired hflip hdead hcome => ?_, exec_voteDeadline, fun hstep hhold hbeat hsettled => ⟨?_, ?_⟩, ?_, ?_⟩
  · have hon : s.dev.onSchedule die.val := ⟨hstep, hfired, hflip, hdead, hcome⟩
    exact ⟨fun ue => exec_scheduleBeat_ready ue hon, fun ue => exec_scheduleBeat_slides ue hon⟩
  · exact fun v hv hclean => exec_flipBeat_commits hstep hhold hbeat hsettled hv (decidesClean_iff.2 hclean)
  · exact exec_flipBeat_aborts hstep hhold hbeat hsettled
  · exact fun v hstep hhold hv hclean hdrain hsettled hbeat =>
      ⟨fun r => exec_holdRound_commits hstep hhold hbeat hsettled hv (decidesClean_iff.2 hclean),
        exec_holdRound_holds hstep hhold hbeat hv (decidesClean_iff.2 hclean) hdrain⟩
  · exact fun d hd => ⟨fun h => exec_drainComplete_written hd h.1 h.2, exec_drainComplete_waits hd⟩

end Sys2Proof.Machine
end

section
/-!
PROOF. Requests of a plan that are refused, STOP, RUN and UNLOAD (R297, R308, R310, R314, R486).
-/
namespace Sys2Proof.Machine

/-! ### Refusals, STOP and RUN -/

/-- What a refusal touches: PLAN_STAT. -/
def planStat (p : Nat) : Touches := { reg := fun k i => k = .PLAN_STAT ∧ i = p }

/-- What a start or its end touches besides: the partition. -/
def runState (p : Nat) : Touches := { part := fun q => q = p, reg := fun k i => k = .PLAN_STAT ∧ i = p }

/-- A request of PLAN_CMD or PLAN_RUN that is refused with an event. -/
structure Refused (s : Dev) (p code : Nat) (t : Dev) : Prop where
  err : t.fld Fld.PLAN_STAT_ERR p = code
  planState : t.planState p = s.planState p
  event : t.events p code = min 0xFFFFFFFF (s.events p code + 1)
  frame : Frame (planStat p) s t

section
variable (s : Dev) (p : Nat)

theorem Dev.planErr_err {code : Nat} (h : code < 65536) : (s.planErr p code).fld Fld.PLAN_STAT_ERR p = code :=
  ((Quiet.raise _ _ _).fld _ p rfl).trans ((Dev.fld_setFld_self s Fld.PLAN_STAT_ERR p code (by decide)).trans (Nat.mod_eq_of_lt h))

theorem Dev.planErr_event (code : Nat) : (s.planErr p code).events p code = min 0xFFFFFFFF (s.events p code + 1) := by
  unfold Dev.planErr
  rw [Dev.raise_events, Dev.events_setFld _ _ _ _ _ _ (by decide)]

theorem Refused.planErr {code : Nat} (h : code < 65536) : Refused s p code (s.planErr p code) := by
  refine ⟨s.planErr_err p h, ?_, s.planErr_event p code, (Frame.setFld (planStat p) s Fld.PLAN_STAT_ERR p code ⟨rfl, rfl⟩).trans (Frame.raise _ _ _ _)⟩
  exact ((Quiet.raise _ _ _).fld Fld.PLAN_STAT_STATE p rfl).trans (Dev.fld_setFld_of_apart s p p code (by decide) (by decide))

theorem Dev.planStop_step (hplan : s.planState p = 3) (hstep : (s.part p).stepping = true) :
    s.planStop p = s.setPart p { s.part p with stopReq := true } := by
  simp [Dev.planStop, hplan, hstep]

theorem Dev.planStop_start (hplan : s.planState p = 3) (hstep : (s.part p).stepping = false) : s.planStop p = s.toLoaded p := by
  simp [Dev.planStop, hplan, hstep]

theorem Frame.toLoaded (h : s.noneBack p) : Frame (runState p) s (s.toLoaded p) := by
  have hback : (s.loadedRegs p).noneBack p := h.keeps (Dev.fld_setFld_kind s _ _ _ _ _ (by decide)) fun _ hy => hy
  have hload : s.toLoaded p = s.loadedRegs p := Dev.swapsBack_noneBack hback
  rw [hload]
  exact (Frame.setFld (runState p) s Fld.PLAN_STAT_STATE p _ ⟨rfl, rfl⟩).trans (Frame.setPart _ _ p _ rfl)

/-- A partition that is to run from a beat on. -/
def Dev.ran (s : Dev) (p : Nat) (beat : Word) : Dev := (s.setFld Fld.PLAN_STAT_STATE p 3).setPart p { s.part p with start := some beat, stopReq := false }

theorem Dev.planRun_accepted {beat : Word} (h : s.runRefused p beat.toNat = false) : s.planRun p beat.toNat = s.ran p beat := by
  have hbeat : BitVec.ofNat 64 beat.toNat = beat := by simp
  simp [Dev.planRun, h, hbeat, Dev.ran]

theorem Dev.planRun_refused {beat : Word} (h : s.runRefused p beat.toNat = true) : s.planRun p beat.toNat = s.planErr p Ev.PLAN_STATE := by
  simp [Dev.planRun, h]

theorem Dev.ran_planState (beat : Word) : (s.ran p beat).planState p = 3 := Dev.fld_setFld_self s Fld.PLAN_STAT_STATE p 3 (by decide)

theorem Frame.ran (beat : Word) : Frame (runState p) s (s.ran p beat) :=
  (Frame.setFld (runState p) s Fld.PLAN_STAT_STATE p _ ⟨rfl, rfl⟩).trans (Frame.setPart _ _ p _ rfl)

end

/-! ### UNLOAD (R297, R363, R488) -/

/-- The fields of an unloaded partition, and those that say which partition a die is in. -/
def unloadFields : List Fld := [Fld.PLAN_STAT_STATE, Fld.PLAN_ID_ID, Fld.HLK_PARTCFG_PARTS]

/-- Fields and the partitions are as they were. -/
structure Still (fs : List Fld) (s t : Dev) : Prop where
  fld : ∀ f ∈ fs, ∀ i, t.fld f i = s.fld f i
  parts : t.parts = s.parts

section
variable {fs : List Fld} {s t u : Dev}

theorem Still.refl (s : Dev) : Still fs s s := ⟨fun _ _ _ => rfl, rfl⟩
theorem Still.trans (h : Still fs s t) (g : Still fs t u) : Still fs s u := ⟨fun f hf i => (g.fld f hf i).trans (h.fld f hf i), g.parts.trans h.parts⟩

theorem Still.ite {b : Prop} [Decidable b] (h : Still fs s t) (g : Still fs s u) : Still fs s (if b then t else u) := by split <;> assumption

theorem Still.each {α : Type} (s : Dev) (xs : List α) (f : α → Dev → Dev) (h : ∀ x ∈ xs, ∀ t, Still fs t (f x t)) : Still fs s (s.each xs f) :=
  Dev.each_induction (Still fs s) f xs (fun x hx t ht => ht.trans (h x hx t)) s (Still.refl s)

theorem Still.setReg (s : Dev) (k : RegKind) (i v : Nat) (h : fs.all (fun f => decide (f.reg ≠ k)) = true) : Still fs s (s.setReg k i v) := by
  simp only [List.all_eq_true, decide_eq_true_eq] at h
  exact ⟨fun f hf j => Dev.fld_setReg_kind s f k i j v (h f hf), rfl⟩

theorem Still.setFld (s : Dev) (g : Fld) (i v : Nat) (h : g.clearOf fs = true) : Still fs s (s.setFld g i v) :=
  ⟨(Aside.setFld (cs := []) s g i v h).fld, rfl⟩

theorem Spared.still (h : Spared s t) (hfs : ∀ f ∈ fs, f ∈ sideFields) : Still fs s t := ⟨fun f hf => h.aside.fld f (hfs f hf), h.parts⟩

theorem Quiet.still (h : Quiet s t) (hfs : uncounted fs = true) : Still fs s t := by
  simp only [uncounted, List.all_eq_true, Bool.not_eq_true'] at hfs
  exact ⟨fun f hf i => h.fld f i (hfs f hf), h.parts⟩

/-- An update of anything but registers and partitions. -/
theorem Still.of_regs (hregs : t.regs = s.regs) (hparts : t.parts = s.parts) : Still fs s t :=
  ⟨fun f _ i => Dev.fld_congr f i (by unfold Dev.reg; rw [hregs]), hparts⟩

theorem Still.part (h : Still fs s t) (p : Nat) : t.part p = s.part p := by unfold Dev.part; rw [h.parts]

theorem Still.partOf (h : Still fs s t) (hf : Fld.HLK_PARTCFG_PARTS ∈ fs) (d : Nat) : t.partOf d = s.partOf d :=
  congrArg (fun n => layoutPart n d) (h.fld _ hf 0)

theorem Dropped.still (h : Dropped s t) (hfs : ∀ f ∈ fs, f ∈ sideFields) : Still fs s t := h.spared.still hfs

theorem Still.eachClear (s : Dev) (ks : List RegKind) (c : Nat) (h : ∀ k ∈ ks, fs.all (fun f => decide (f.reg ≠ k)) = true) :
    Still fs s (s.each ks fun k s => s.clearReg k c) :=
  Still.each s ks _ fun k hk t => Still.setReg t k c _ (h k hk)

/-- The registers of a core that is filled. -/
def Dev.coreCleared (s : Dev) (c : Nat) : Dev :=
  let s := s.setCore c { lanes := (s.core c).committed, committed := (s.core c).committed }
  let s := s.each corePerfRegs (fun k s => s.clearReg k c)
  let s := s.each [RegKind.CORE_VFP, .CORE_STAT, .CORE_FPC, .CORE_FADDR, .GRP_CORETAG, .GILL_STAT] (fun k s => s.clearReg k c)
  s.each fillEvents (fun e s => s.clearReg .CTL_EVCNT (dieIdx .CTL_EVCNT (coreDie c) e))

/-- The store of a core whose slot holds another's. -/
def Dev.storeFreed (s : Dev) (c : Nat) : Dev :=
  let r := s.freeBytes 0x20000
  { r.2 with mem := Memory.put r.2.mem (strideAddr c 0x100000) r.1 }

theorem Dev.fillCoreState_eq (s : Dev) (c : Nat) : s.fillCoreState c = (s.coreCleared c).storeFreed c := by
  unfold Dev.fillCoreState Dev.coreCleared Dev.storeFreed
  rfl

theorem Still.setCore {fs : List Fld} (s : Dev) (c : Nat) (x : Core) : Still fs s (s.setCore c x) := Still.of_regs rfl rfl

theorem Still.storeFreed {fs : List Fld} (s : Dev) (c : Nat) : Still fs s (s.storeFreed c) := Still.of_regs rfl rfl

theorem Still.coreCleared (s : Dev) (c : Nat) : Still unloadFields s (s.coreCleared c) := by
  have perf : ∀ k ∈ corePerfRegs, unloadFields.all (fun f => decide (f.reg ≠ k)) = true := by decide
  have state : ∀ k ∈ [RegKind.CORE_VFP, .CORE_STAT, .CORE_FPC, .CORE_FADDR, .GRP_CORETAG, .GILL_STAT],
      unloadFields.all (fun f => decide (f.reg ≠ k)) = true := by decide
  have events : ∀ t : Dev, Still unloadFields t (t.each fillEvents fun e s => s.clearReg .CTL_EVCNT (dieIdx .CTL_EVCNT (coreDie c) e)) := fun t =>
    Still.each t _ _ fun e _ u => Still.setReg u .CTL_EVCNT _ _ (by decide)
  unfold Dev.coreCleared
  exact (((Still.setCore s c _).trans (Still.eachClear _ _ c perf)).trans (Still.eachClear _ _ c state)).trans (events _)

theorem Still.fillCoreState (s : Dev) (c : Nat) : Still unloadFields s (s.fillCoreState c) := by
  rw [Dev.fillCoreState_eq]
  exact (Still.coreCleared s c).trans (Still.storeFreed _ c)

theorem Still.endFill (s : Dev) (d k : Nat) : Still unloadFields s (s.endFill d k) := by
  unfold Dev.endFill
  split
  · exact Still.refl s
  · rename_i f _
    have dropped : Still unloadFields s (s.dropFill d k) := Still.of_regs rfl rfl
    have shown : Still unloadFields (s.dropFill d k) ((s.dropFill d k).filledMap d k) :=
      (Still.setFld _ Fld.SPR_CLSTAT_FILL _ _ (by decide)).trans ((Dropped.bumpGen _ d k).still (by decide))
    exact ((dropped.trans shown).trans ((Dropped.closeRecord _ _ _ _).still (by decide))).trans ((Quiet.raise _ _ _).still (by decide))

theorem Still.zeroStride {fs : List Fld} (s : Dev) (c : Nat) : Still fs s (s.zeroStride c) := Still.of_regs rfl rfl

/-- A fill that ends where no plan is loaded. -/
theorem Still.finishFill {s : Dev} {fl : Fill} (h : s.planState (s.partOf fl.die) = 0) : Still unloadFields s (s.finishFill fl) := by
  have filled := Still.fillCoreState s fl.core
  have hfilled : (s.fillCoreState fl.core).planState (s.partOf fl.die) = 0 := (filled.fld Fld.PLAN_STAT_STATE (by decide) _).trans h
  have zeroed : Still unloadFields s (if (s.fillCoreState fl.core).dieStage fl.die = stCores then (s.fillCoreState fl.core).zeroStride fl.core
      else s.fillCoreState fl.core) :=
    Still.ite (filled.trans (Still.zeroStride _ _)) filled
  unfold Dev.finishFill
  dsimp only
  rw [if_neg (by rw [hfilled]; decide)]
  have ended := zeroed.trans (Still.endFill _ fl.die fl.cluster)
  unfold Dev.stopIdle
  rw [if_neg fun hc => absurd ((ended.fld Fld.PLAN_STAT_STATE (by decide) _).symm.trans hc.2.1) (by rw [← Dev.planState, h]; decide)]
  exact ended

theorem Still.unloadFills {s : Dev} {p : Nat} (h : s.planState p = 0) : Still unloadFields s (s.unloadFills p) := by
  refine Dev.each_induction (fun t => Still unloadFields s t) _ _ (fun fl hfl t ht => ?_) s (Still.refl s)
  have hdie : s.partOf fl.die = p := by
    have := (List.mem_filter.1 hfl).2
    simp only [Bool.and_eq_true, beq_iff_eq] at this
    exact this.1
  refine Still.ite (ht.trans (Still.finishFill ?_)) ht
  rw [ht.partOf (by decide), hdie]
  exact (ht.fld Fld.PLAN_STAT_STATE (by decide) p).trans h

end

section
variable (s : Dev) (p : Nat)

/-- The registers of a plan gone up to PLAN_ID. -/
def Dev.idCleared (s : Dev) (p : Nat) (pl : Plan) : Dev :=
  let s := s.each pl.cores (fun c s => s.unloadCore c.core)
  let s := ((s.clearFormat p).setReg .CHK_CTL p 0).setGroups p {}
  s.setReg .PLAN_ID p 0

/-- And from there up to PLAN_STAT. -/
def Dev.routesCleared (s : Dev) (p : Nat) (pl : Plan) : Dev :=
  let s := s.setReg .PLAN_STEPBEAT p 0
  let s := ((s.setReg .PLAN_SCHED p 0).setDigest p []).clearBind p
  (s.unloadRoutes p pl.fabric).setRevision p none

theorem Dev.unloadRegs_eq (pl : Plan) : s.unloadRegs p pl =
    ((((s.idCleared p pl).routesCleared p pl).setFld Fld.PLAN_STAT_STATE p 0).setFld Fld.PLAN_STAT_SIGNED p 0).setFld Fld.PLAN_STAT_SUBST p 0 := rfl

theorem Still.setRevision {fs : List Fld} (dig : Option (List Byte)) (h : Fld.FAB_STAT_REV.clearOf fs = true)
    (h' : fs.all (fun f => decide (f.reg ≠ .FAB_REVDIGEST)) = true) : Still fs s (s.setRevision p dig) :=
  (Still.setFld s _ _ _ h).trans (Still.each _ _ _ fun _ _ t => Still.setReg t _ _ _ h')

theorem Still.setDigest {fs : List Fld} (dig : List Byte) (h : fs.all (fun f => decide (f.reg ≠ .PLAN_DIGEST)) = true) : Still fs s (s.setDigest p dig) :=
  Still.each s _ _ fun _ _ t => Still.setReg t _ _ _ h

theorem Still.clearBind {fs : List Fld} (h : fs.all (fun f => decide (f.reg ≠ .PLAN_BIND)) = true) : Still fs s (s.clearBind p) :=
  Still.each s _ _ fun _ _ t => Still.each t _ _ fun _ _ u => Still.setReg u .PLAN_BIND _ _ h

theorem Still.unloadRoutes {fs : List Fld} (fab : Fabric) (h : Fld.FAB_RT_VALID.clearOf fs = true) : Still fs s (s.unloadRoutes p fab) :=
  Still.each s _ _ fun _ _ t => Still.each t _ _ fun _ _ u => Still.setFld u _ _ _ h

theorem Still.routesCleared (pl : Plan) : Still [Fld.PLAN_ID_ID] s (s.routesCleared p pl) :=
  (((((Still.setReg s .PLAN_STEPBEAT p 0 (by decide)).trans (Still.setReg _ .PLAN_SCHED p 0 (by decide))).trans (Still.setDigest _ p [] (by decide))).trans
    (Still.clearBind _ p (by decide))).trans (Still.unloadRoutes _ p pl.fabric (by decide))).trans (Still.setRevision _ p none (by decide) (by decide))

theorem Dev.unloadRegs_id (pl : Plan) : (s.unloadRegs p pl).fld Fld.PLAN_ID_ID p = 0 := by
  have hid : (s.idCleared p pl).fld Fld.PLAN_ID_ID p = 0 := (Dev.fld_whole _ .PLAN_ID p).trans (Dev.reg_setReg_self _ .PLAN_ID p 0)
  have stat : ∀ (t : Dev) (f : Fld) (v : Nat), f.reg = .PLAN_STAT → (t.setFld f p v).fld Fld.PLAN_ID_ID p = t.fld Fld.PLAN_ID_ID p := fun t f v hf =>
    Dev.fld_setFld_kind t f _ p p v (by rw [hf]; decide)
  rw [Dev.unloadRegs_eq, stat _ _ _ rfl, stat _ _ _ rfl, stat _ _ _ rfl]
  exact ((Still.routesCleared _ p pl).fld _ List.mem_cons_self p).trans hid

theorem Dev.unloadRegs_planState (pl : Plan) : (s.unloadRegs p pl).planState p = 0 := by
  rw [Dev.unloadRegs_eq]
  refine (Dev.fld_setFld_of_apart _ p p 0 (by decide) (by decide)).trans ((Dev.fld_setFld_of_apart _ p p 0 (by decide) (by decide)).trans ?_)
  exact Dev.fld_setFld_self _ Fld.PLAN_STAT_STATE p 0 (by decide)

/-- The partition without its plan. -/
def Dev.withoutPlan (s : Dev) (p : Nat) : Dev :=
  s.setPart p { s.part p with
    plan := none, pastChain := false, start := none, stopReq := false, noRun := false, reach := 0, captures := [], restoring := none, residentFresh := false }

/-- What else ends with a plan: its ports' states, a restore, a diagnosis, the chain where no other partition holds it. -/
def Dev.restGone (s : Dev) (p : Nat) : Dev :=
  let s := (s.each (s.portsOf p) (fun q s => s.setFld Fld.FAB_PORT_STAT_PLAN q planUnused)).countPorts p
  ((s.endRestore p).setFld Fld.CHK_STAT_DIAG p 0).releaseChain p

theorem Dev.withoutPlan_fld (f : Fld) (i : Nat) : (s.withoutPlan p).fld f i = s.fld f i := rfl

theorem Dev.withoutPlan_plan : ((s.withoutPlan p).part p).plan = none := congrArg Part.plan (Dev.setPart_self s p _)

/-- The registers of a plan and the plan itself gone. -/
def Dev.planGone (s : Dev) (p : Nat) (pl : Plan) : Dev := ((s.dropCopies p).unloadRegs p pl).withoutPlan p

theorem Dev.unload_eq {pl : Plan} (h : (s.part p).plan = some pl) : s.unload p = ((s.planGone p pl).restGone p).unloadFills p := by
  unfold Dev.unload
  simp only [h]
  rfl

theorem Still.setChn {fs : List Fld} (st : Nat) (h : Fld.CHN_STAT_STATE.clearOf fs = true) (h' : Fld.CTL_CSTAT_MISSED.clearOf fs = true) :
    Still fs s (s.setChn st) := ⟨(Aside.setChn (cs := []) s st h h').fld, s.setChn_parts st⟩

theorem Still.unlockChain {fs : List Fld} (h : Fld.CHN_STAT_STATE.clearOf fs = true) (h' : Fld.CTL_CSTAT_MISSED.clearOf fs = true)
    (h'' : Fld.CHN_STAT_HOLD.clearOf fs = true) : Still fs s s.unlockChain :=
  ((Still.setChn s _ h h').trans (Still.setFld _ Fld.CHN_STAT_HOLD 0 0 h'')).trans (Still.of_regs rfl rfl)

theorem Still.clearChain : Still unloadFields s s.clearChain :=
  ((((Still.setReg s .CHN_CTL 0 0 (by decide)).trans (Still.setReg _ .CHN_CFG 0 0 (by decide))).trans (Still.setReg _ .CHN_FWD 0 0 (by decide))).trans
    (Still.unlockChain _ (by decide) (by decide) (by decide))).trans (Still.of_regs rfl rfl)

theorem Still.countPorts : Still unloadFields s (s.countPorts p) :=
  (Still.setFld s Fld.FAB_STAT_NMISS p _ (by decide)).trans (Still.setFld _ Fld.FAB_STAT_NEXTRA p _ (by decide))

theorem Still.endRestore : Still unloadFields s (s.endRestore p) := Still.ite (Still.setFld s Fld.CTX_STAT_STATE p 0 (by decide)) (Still.refl s)

theorem Still.releaseChain : Still unloadFields s (s.releaseChain p) := Still.ite (Still.refl s) (Still.clearChain s)

theorem Still.restGone : Still unloadFields s (s.restGone p) := by
  have ports := (Still.each (fs := unloadFields) s (s.portsOf p) (fun q s => s.setFld Fld.FAB_PORT_STAT_PLAN q planUnused) fun q _ t =>
    Still.setFld t Fld.FAB_PORT_STAT_PLAN q _ (by decide)).trans (Still.countPorts _ p)
  exact ((ports.trans (Still.endRestore _ p)).trans (Still.setFld _ Fld.CHK_STAT_DIAG p 0 (by decide))).trans (Still.releaseChain _ p)

theorem Dev.planUnload_spec {pl : Plan} (hplan : s.planState p = 2) (hpl : (s.part p).plan = some pl) :
    (s.planUnload p).planState p = 0 ∧ ((s.planUnload p).part p).plan = none ∧ (s.planUnload p).reg .PLAN_ID p = 0 := by
  have hgone : (s.planGone p pl).planState p = 0 := (Dev.withoutPlan_fld _ p _ p).trans (Dev.unloadRegs_planState (s.dropCopies p) p pl)
  have hid : (s.planGone p pl).fld Fld.PLAN_ID_ID p = 0 := (Dev.withoutPlan_fld _ p _ p).trans (Dev.unloadRegs_id (s.dropCopies p) p pl)
  have hpart : ((s.planGone p pl).part p).plan = none := Dev.withoutPlan_plan _ p
  have rest := Still.restGone (s.planGone p pl) p
  have still := rest.trans (Still.unloadFills ((rest.fld Fld.PLAN_STAT_STATE (by decide) p).trans hgone))
  have hunload : s.planUnload p = ((s.planGone p pl).restGone p).unloadFills p := by
    unfold Dev.planUnload
    rw [if_pos hplan, Dev.unload_eq s p hpl]
  rw [hunload]
  refine ⟨(still.fld Fld.PLAN_STAT_STATE (by decide) p).trans hgone, (congrArg Part.plan (still.part p)).trans hpart, ?_⟩
  exact (Dev.fld_whole _ .PLAN_ID p).symm.trans ((still.fld Fld.PLAN_ID_ID (by decide) p).trans hid)

end

end Sys2Proof.Machine
end

section
/-!
PROOF. The load of a plan up to its binding (R292, R296, R308, R447, R448, R486).
-/
namespace Sys2Proof.Machine

/-! ### The chain's configuration beside a load (R308) -/

/-- The registers of the chain, and of the misses that its timing resets. -/
def chainKinds : List RegKind := [.CHN_CTL, .CHN_CFG, .CHN_FWD, .CHN_COUNT, .CHN_STAT, .CTL_CSTAT]

/-- What does not see the chain. -/
structure ChainBlind {β : Type} (f : Dev → β) : Prop where
  reg : ∀ (t : Dev) k i v, k ∈ chainKinds → f (t.setReg k i v) = f t
  chain : ∀ (t : Dev) x, f { t with chain := x } = f t

section
variable {β : Type} {f : Dev → β} (h : ChainBlind f) (s : Dev)
include h

theorem ChainBlind.setChn (st : Nat) : f (s.setChn st) = f s := by
  unfold Dev.setChn
  dsimp only
  split
  · exact h.reg s .CHN_STAT 0 _ (by decide)
  · exact (Dev.each_keeps f (List.range 6) (fun d t => t.setFld Fld.CTL_CSTAT_MISSED d 0) (fun d _ t => h.reg t .CTL_CSTAT d _ (by decide)) _).trans
      (h.reg s .CHN_STAT 0 _ (by decide))

theorem ChainBlind.unlockChain : f s.unlockChain = f s := by
  unfold Dev.unlockChain
  dsimp only
  rw [h.chain]
  exact (h.reg _ .CHN_STAT 0 _ (by decide)).trans (h.setChn s _)

theorem ChainBlind.setConfig (a b c : Nat) : f (((s.setReg .CHN_CTL 0 a).setReg .CHN_CFG 0 b).setReg .CHN_FWD 0 c) = f s :=
  (h.reg _ .CHN_FWD 0 c (by decide)).trans ((h.reg _ .CHN_CFG 0 b (by decide)).trans (h.reg s .CHN_CTL 0 a (by decide)))

theorem ChainBlind.clearChain : f s.clearChain = f s := by
  unfold Dev.clearChain
  dsimp only
  rw [h.chain, h.unlockChain, h.setConfig]

theorem ChainBlind.releaseChain (p : Nat) : f (s.releaseChain p) = f s := by
  unfold Dev.releaseChain
  split
  · rfl
  · exact h.clearChain s

theorem ChainBlind.startMaster : f s.startMaster = f s := by
  unfold Dev.startMaster
  split
  · exact (h.chain _ _).trans ((h.reg _ .CHN_COUNT 0 0 (by decide)).trans (h.setChn s _))
  · rfl

theorem ChainBlind.installChain (c : ChainCfg) : f (s.installChain c) = f s := by
  unfold Dev.installChain
  dsimp only
  rw [h.startMaster, h.chain, h.setConfig]

end

theorem ChainBlind.mem : ChainBlind (fun t => t.mem) := ⟨fun _ _ _ _ _ => rfl, fun _ _ => rfl⟩
theorem ChainBlind.cores : ChainBlind (fun t => t.cores) := ⟨fun _ _ _ _ _ => rfl, fun _ _ => rfl⟩
theorem ChainBlind.spr : ChainBlind (fun t => t.spr) := ⟨fun _ _ _ _ _ => rfl, fun _ _ => rfl⟩
theorem ChainBlind.parts : ChainBlind (fun t => t.parts) := ⟨fun _ _ _ _ _ => rfl, fun _ _ => rfl⟩

theorem ChainBlind.fld (g : Fld) (i : Nat) (hg : g.reg ∉ chainKinds) : ChainBlind (fun t => t.fld g i) :=
  ⟨fun t k j v hk => Dev.fld_setReg_kind t g k j i v (fun e => hg (e ▸ hk)), fun _ _ => rfl⟩

theorem ChainBlind.events (d c : Nat) : ChainBlind (fun t => t.events d c) := ChainBlind.fld _ _ (by decide)

/-- The chain in force for a load: as it is, or installed from the image. -/
def Dev.chainReady (s : Dev) (c : ChainCfg) : Dev := if s.chain.inForce then s else s.installChain c

theorem ChainBlind.chainReady {β : Type} {f : Dev → β} (h : ChainBlind f) (s : Dev) (c : ChainCfg) : f (s.chainReady c) = f s := by
  unfold Dev.chainReady
  split
  · rfl
  · exact h.installChain s c

theorem Dev.startMaster_inForce (s : Dev) : s.startMaster.chain.inForce = s.chain.inForce := by
  unfold Dev.startMaster
  split
  · have master := (Aside.setChn (fs := []) (cs := []) s chnLocked (by decide) (by decide)).chain
    show (s.setChn chnLocked).chain.inForce = s.chain.inForce
    rw [master]
  · rfl

theorem Dev.chainReady_inForce (s : Dev) (c : ChainCfg) : (s.chainReady c).chain.inForce = true := by
  unfold Dev.chainReady
  split
  · assumption
  · exact Dev.startMaster_inForce _

theorem Dev.chainReady_chain {s : Dev} (c : ChainCfg) (h : s.chain.inForce = true) : (s.chainReady c).chain = s.chain := by
  unfold Dev.chainReady
  rw [if_pos h]

/-! ### What a load reads does not change with the chain or with what a command's reads report -/

/-- The fields that say which dies a partition has and which of its cores are present. -/
def placeFields : List Fld := [Fld.HLK_PARTCFG_PARTS, Fld.CTL_DIECFG_FENCED, Fld.SPR_CLSTAT_SHORT]

theorem Dev.parseResident_congr (s t : Dev) (p : Nat) (rd : Reader) (x : Option Sect) : (t.parseResident p rd x).1 = (s.parseResident p rd x).1 := by
  cases x <;> rfl

section
variable {s t : Dev} (hfld : ∀ f ∈ placeFields, ∀ i, t.fld f i = s.fld f i)
include hfld

theorem Dev.diesOf_congr (p : Nat) : t.diesOf p = s.diesOf p := by
  unfold Dev.diesOf Dev.partOf Dev.nparts
  rw [hfld _ (by decide)]

theorem Dev.filling_congr (hspr : t.spr = s.spr) (p : Nat) : t.filling p = s.filling p := by
  unfold Dev.filling Dev.partOf Dev.nparts
  rw [hfld _ (by decide), hspr]

theorem Dev.binding_congr (p n : Nat) (rs : List CoresRec) : t.binding p n rs = s.binding p n rs := by
  have hpresent : t.clusterPresent = s.clusterPresent := funext fun d => funext fun k => by
    unfold Dev.clusterPresent Dev.fenced Dev.isShort Dev.flag
    rw [hfld Fld.CTL_DIECFG_FENCED (by decide), hfld Fld.SPR_CLSTAT_SHORT (by decide)]
  unfold Dev.binding Dev.partCores
  rw [hpresent, Dev.diesOf_congr hfld]

theorem Dev.readPlan_congr (hmem : t.mem = s.mem) (p a : Nat) : t.readPlan p a = s.readPlan p a := by
  have hreader : t.reader = s.reader := by unfold Dev.reader; rw [hmem]
  have hsect : t.sectBytes = s.sectBytes := by unfold Dev.sectBytes; rw [hmem]
  have hdigest : t.imageDigest = s.imageDigest := by unfold Dev.imageDigest; rw [hmem, hreader]
  have htile : t.tile = s.tile := by unfold Dev.tile; rw [hmem]
  have hformat : t.formatBytes = s.formatBytes := by unfold Dev.formatBytes; rw [hreader, hsect]
  have hdies := Dev.diesOf_congr hfld p
  have hfabric : t.fabricOf p a = s.fabricOf p a := by unfold Dev.fabricOf; rw [hreader, hsect, hdies]
  unfold Dev.readPlan
  simp only [hreader, hsect, hdigest, htile, hformat, hdies, hfabric, Dev.parseResident_congr s t]

end

/-! ### LOAD (R296 steps 1 to 7) -/

/-- The address of a load's image. -/
def Dev.planAddr (s : Dev) (p : Nat) : Nat := s.fld Fld.PLAN_ADDR_ADDR p / tileSize * tileSize

/-- The chain configuration of an image. -/
def Dev.imageChain (s : Dev) (a : Nat) : ChainCfg := (parseChain (s.reader a) (sectOf (s.reader a) 9)).1

/-- A partition that has begun to load what an image says. -/
def Dev.loadBegun (s : Dev) (p a : Nat) : Dev :=
  let pl := s.readPlan p a
  (s.setPart p { s.part p with loading := some pl, loadBinding := s.binding p pl.lcores pl.uses, pastChain := true }).setFld Fld.PLAN_STAT_STATE p 1

section
variable {s : Dev} {p : Nat} {keys : List Nat}

theorem Dev.planLoad_refused (h : s.loadRefused p = true) : s.planLoad keys p = s.planErr p Ev.PLAN_STATE := by
  unfold Dev.planLoad
  dsimp only
  rw [if_pos h]

variable (h : s.loadRefused p = false)
include h

theorem Dev.planLoad_failed (hue : ¬ ∀ x ∈ s.loadTiles p (s.planAddr p), s.ueAt x = false) : ∃ t, s.planLoad keys p =
    ((s.hbmErrors (s.loadTiles p (s.planAddr p))).useFailedAs p p Ev.TILE_POISON none 0 t poisonScruple (tileScruple (s.tile t))).setFld
      Fld.PLAN_STAT_ERR p Ev.TILE_POISON := by
  obtain ⟨t, ht⟩ : ∃ t, (s.loadTiles p (s.planAddr p)).find? s.ueAt = some t := by
    rw [← Option.isSome_iff_exists, List.find?_isSome]
    simpa using hue
  refine ⟨t, ?_⟩
  unfold Dev.planAddr at ht ⊢
  unfold Dev.planLoad
  dsimp only
  rw [if_neg (by simp [h]), ht]

theorem Dev.planLoad_clear (hue : ∀ x ∈ s.loadTiles p (s.planAddr p), s.ueAt x = false) : s.planLoad keys p =
    match s.loadCheck keys p (s.planAddr p) with
    | some code => s.planErr p code
    | none =>
      if !s.chainAgrees (s.imageChain (s.planAddr p)) then s.planErr p Ev.PLAN_CHAIN
      else ((s.chainReady (s.imageChain (s.planAddr p))).loadBegun p (s.planAddr p)).loadBind p := by
  have hnone : (s.loadTiles p (s.planAddr p)).find? s.ueAt = none := by
    rw [List.find?_eq_none]
    intro x hx
    rw [hue x hx]
    decide
  unfold Dev.planAddr at hnone ⊢
  unfold Dev.planLoad
  dsimp only
  rw [if_neg (by simp [h]), hnone]
  rfl

end

theorem Dev.loadCheck_code {s : Dev} {keys : List Nat} {p a code : Nat} (h : s.loadCheck keys p a = some code) : code < 65536 := by
  have format : ∀ {c : Nat}, some Ev.PLAN_FORMAT = some c → c < 65536 := fun e => Option.some.inj e ▸ by decide
  unfold Dev.loadCheck at h
  dsimp only at h
  split at h
  · exact format h
  split at h
  · exact format h
  split at h
  · split at h
    · split at h
      · cases h
      · exact format h
    · exact Option.some.inj h ▸ by decide
  · split at h
    · exact Option.some.inj h ▸ by decide
    · split at h
      · cases h
      · exact format h

/-! ### The failed use of an image tile (R447, R448) -/

/-- A load that ends as a failed use, with memory, cores and the partition's state as they were. -/
structure UseEnded (s : Dev) (p : Nat) (t : Dev) : Prop where
  planState : t.planState p = s.planState p
  err : t.fld Fld.PLAN_STAT_ERR p = Ev.TILE_POISON
  mem : t.mem = s.mem
  cores : t.cores = s.cores
  event : t.events p Ev.TILE_POISON = min 0xFFFFFFFF (s.events p Ev.TILE_POISON + 1)

theorem UseEnded.of_failed (s : Dev) (p : Nat) (tiles : List Nat) (a e g : Nat) :
    UseEnded s p (((s.hbmErrors tiles).useFailedAs p p Ev.TILE_POISON none 0 a e g).setFld Fld.PLAN_STAT_ERR p Ev.TILE_POISON) := by
  have errors := Beside.hbmErrors s tiles
  have failed := (errors.mono (fun c hc => List.mem_cons_of_mem Ev.TILE_POISON hc)).trans
    (Beside.useFailedAs (cs := Ev.TILE_POISON :: sideCodes) (s.hbmErrors tiles) p p Ev.TILE_POISON none 0 a e g (by decide) (fun _ => List.mem_cons_of_mem _))
  refine ⟨?_, Dev.fld_setFld_self _ Fld.PLAN_STAT_ERR p _ (by decide), failed.mem, failed.cores, ?_⟩
  · exact (Dev.fld_setFld_of_apart _ p p _ (by decide) (by decide)).trans (failed.fld Fld.PLAN_STAT_STATE p (by decide))
  · have told : Beside sideCodes ((s.hbmErrors tiles).raise p Ev.TILE_POISON)
        ((s.hbmErrors tiles).useFailedAs p p Ev.TILE_POISON none 0 a e g) :=
      (Beside.logRecord _ _ _).trans ((Beside.unclean _ p _).mono wireCodes_side)
    rw [Dev.events_setFld _ _ _ _ _ _ (by decide), told.aside.events p _ (by decide) (by decide), Dev.raise_events,
      errors.aside.events p _ (by decide) (by decide)]

/-! ### The binding (R292, R486) -/

/-- A load as it begins: of what its image says under the chain in force. -/
def Dev.loadReady (s : Dev) (p a : Nat) : Dev := (s.chainReady (s.imageChain a)).loadBegun p a

section
variable (s : Dev) (p a : Nat)

theorem Dev.chainReady_place (c : ChainCfg) : ∀ f ∈ placeFields, ∀ i, (s.chainReady c).fld f i = s.fld f i := fun f hf i =>
  (ChainBlind.fld f i (by revert f; decide)).chainReady s c

theorem Dev.chainReady_readPlan (c : ChainCfg) : (s.chainReady c).readPlan p a = s.readPlan p a :=
  Dev.readPlan_congr (s.chainReady_place c) (ChainBlind.mem.chainReady s c) p a

theorem Dev.loadReady_part : (s.loadReady p a).part p =
    { (s.chainReady (s.imageChain a)).part p with
      loading := some (s.readPlan p a), loadBinding := s.binding p (s.readPlan p a).lcores (s.readPlan p a).uses, pastChain := true } := by
  unfold Dev.loadReady Dev.loadBegun
  rw [Dev.setFld_part, Dev.setPart_self, Dev.chainReady_readPlan, Dev.binding_congr (s.chainReady_place _)]

theorem Dev.loadReady_planState : (s.loadReady p a).planState p = 1 := Dev.fld_setFld_self _ Fld.PLAN_STAT_STATE p 1 (by decide)

theorem Dev.loadReady_filling : (s.loadReady p a).filling p = s.filling p := by
  refine Dev.filling_congr (fun f hf i => ?_) ?_ p
  · exact (Dev.fld_setFld_kind _ Fld.PLAN_STAT_STATE f p i 1 (by revert f; decide)).trans (s.chainReady_place _ f hf i)
  · exact ChainBlind.spr.chainReady s _

theorem Dev.loadReady_mem : (s.loadReady p a).mem = s.mem := ChainBlind.mem.chainReady s _
theorem Dev.loadReady_cores : (s.loadReady p a).cores = s.cores := ChainBlind.cores.chainReady s _

theorem Dev.loadReady_events (d c : Nat) : (s.loadReady p a).events d c = s.events d c :=
  (Dev.events_setFld _ _ _ _ _ _ (by decide)).trans ((ChainBlind.events d c).chainReady s _)

theorem Dev.readPlan_bound : (s.readPlan p a).bound = false := rfl

/-- A load under way: of a plan, under the chain in force, with memory and cores as they were. -/
structure Loading (s : Dev) (p : Nat) (x : Plan) (t : Dev) : Prop where
  planState : t.planState p = 1
  loading : (t.part p).loading = some x
  inForce : t.chain.inForce = true
  chain : s.chain.inForce = true → t.chain = s.chain
  mem : t.mem = s.mem
  cores : t.cores = s.cores

theorem Loading.loadReady : Loading s p (s.readPlan p a) (s.loadReady p a) := by
  refine ⟨s.loadReady_planState p a, ?_, Dev.chainReady_inForce s _, fun h => Dev.chainReady_chain _ h, s.loadReady_mem p a, s.loadReady_cores p a⟩
  rw [Dev.loadReady_part]

theorem Dev.loadBind_fills (h : s.filling p = true) : (s.loadReady p a).loadBind p = s.loadReady p a := by
  unfold Dev.loadBind
  simp only [Dev.loadReady_filling, h, Bool.or_true, ite_true]
  split <;> rfl

/-- The load with the binding of when it began. -/
def Dev.loadBound (s : Dev) (p a : Nat) (bs : List (Nat × Nat × Nat)) : Dev :=
  (s.loadReady p a).setPart p { (s.loadReady p a).part p with loading := some ((s.readPlan p a).bind bs) }

/-- The load that finds too few cores. -/
def Dev.loadShort (s : Dev) (p a : Nat) : Dev :=
  let t := ((s.loadReady p a).setFld Fld.PLAN_STAT_STATE p 0).setPart p { (s.loadReady p a).part p with loading := none, pastChain := false }
  (t.planErr p Ev.PLAN_COREMAP).releaseChain p

theorem Dev.loadBind_eq (h : s.filling p = false) : (s.loadReady p a).loadBind p =
    match s.binding p (s.readPlan p a).lcores (s.readPlan p a).uses with
    | none => s.loadShort p a
    | some bs => s.loadBound p a bs := by
  have hload : ((s.loadReady p a).part p).loading = some (s.readPlan p a) := by rw [Dev.loadReady_part]
  have hbind : ((s.loadReady p a).part p).loadBinding = s.binding p (s.readPlan p a).lcores (s.readPlan p a).uses := by rw [Dev.loadReady_part]
  have hfill : (s.loadReady p a).filling p = false := (s.loadReady_filling p a).trans h
  unfold Dev.loadShort Dev.loadBound
  generalize s.loadReady p a = t at hload hbind hfill
  rw [← hbind]
  unfold Dev.loadBind
  simp only [hload, Dev.readPlan_bound, hfill]
  rfl

theorem Loading.loadBound (bs : List (Nat × Nat × Nat)) : Loading s p ((s.readPlan p a).bind bs) (s.loadBound p a bs) := by
  obtain ⟨hplan, -, hforce, hchain, hmem, hcores⟩ := Loading.loadReady s p a
  exact ⟨hplan, congrArg Part.loading (Dev.setPart_self _ p _), hforce, hchain, hmem, hcores⟩

/-- A load that ends for want of cores. -/
structure ShortEnded (s : Dev) (p : Nat) (t : Dev) : Prop where
  planState : t.planState p = 0
  loading : (t.part p).loading = none
  err : t.fld Fld.PLAN_STAT_ERR p = Ev.PLAN_COREMAP
  event : t.events p Ev.PLAN_COREMAP = min 0xFFFFFFFF (s.events p Ev.PLAN_COREMAP + 1)
  mem : t.mem = s.mem
  cores : t.cores = s.cores

/-- A load that is over. -/
def Dev.loadOver (s : Dev) (p : Nat) : Dev := (s.setFld Fld.PLAN_STAT_STATE p 0).setPart p { s.part p with loading := none, pastChain := false }

theorem Dev.loadShort_eq : s.loadShort p a = (((s.loadReady p a).loadOver p).planErr p Ev.PLAN_COREMAP).releaseChain p := rfl

theorem ShortEnded.loadShort : ShortEnded s p (s.loadShort p a) := by
  have hover : ((s.loadReady p a).loadOver p).planState p = 0 := Dev.fld_setFld_self _ Fld.PLAN_STAT_STATE p 0 (by decide)
  have hpart : (((s.loadReady p a).loadOver p).part p).loading = none := congrArg Part.loading (Dev.setPart_self _ p _)
  have refused := Refused.planErr ((s.loadReady p a).loadOver p) p (code := Ev.PLAN_COREMAP) (by decide)
  have raised : Quiet (((s.loadReady p a).loadOver p).setFld Fld.PLAN_STAT_ERR p Ev.PLAN_COREMAP) (((s.loadReady p a).loadOver p).planErr p Ev.PLAN_COREMAP) :=
    Quiet.raise _ _ _
  rw [Dev.loadShort_eq]
  refine ⟨?_, ?_, ?_, ?_, ?_, ?_⟩
  · exact ((ChainBlind.fld Fld.PLAN_STAT_STATE p (by decide)).releaseChain _ p).trans (refused.planState.trans hover)
  · have hparts := (ChainBlind.parts.releaseChain (((s.loadReady p a).loadOver p).planErr p Ev.PLAN_COREMAP) p).trans raised.parts
    refine Eq.trans (congrArg Part.loading ?_) hpart
    unfold Dev.part
    rw [hparts]
    rfl
  · exact ((ChainBlind.fld Fld.PLAN_STAT_ERR p (by decide)).releaseChain _ p).trans refused.err
  · refine ((ChainBlind.events p _).releaseChain _ p).trans (refused.event.trans ?_)
    rw [show ((s.loadReady p a).loadOver p).events p Ev.PLAN_COREMAP = s.events p Ev.PLAN_COREMAP from
      (Dev.events_setFld _ _ _ _ _ _ (by decide)).trans (s.loadReady_events p a p _)]
  · exact (ChainBlind.mem.releaseChain _ p).trans (raised.mem.trans (s.loadReady_mem p a))
  · exact (ChainBlind.cores.releaseChain _ p).trans (raised.cores.trans (s.loadReady_cores p a))

end

end Sys2Proof.Machine
end

section
/-!
PROOF. The completion of a bound load (R285, R292, R296, R447, R448).
-/
namespace Sys2Proof.Machine

/-! ### A completion that fails -/

theorem Dev.tileFault_code {s : Dev} {a code : Nat} (h : s.tileFault a = some code) : code < 65536 := by
  unfold Dev.tileFault at h
  split at h
  · cases h
  · split at h
    · exact Option.some.inj h ▸ by decide
    · split at h
      · cases h
      · exact Option.some.inj h ▸ by decide

theorem Dev.imageFault_code {s : Dev} {pl : Plan} {t code : Nat} (h : s.imageFault pl t = some code) : code < 65536 := by
  unfold Dev.imageFault at h
  obtain htile | ⟨-, hload⟩ := Option.or_eq_some_iff.1 h
  · exact Dev.tileFault_code htile
  · split at hload
    · cases hload
    · exact Option.some.inj hload ▸ by decide

theorem Dev.copyImageTile_code {s : Dev} {p : Nat} {pl : Plan} {t dst code : Nat} {poison : Bool} (h : (s.copyImageTile p pl t dst poison).2 = some code) :
    code < 65536 := by
  unfold Dev.copyImageTile at h
  split at h
  · cases h
  · rename_i c hfault
    exact Option.some.inj h ▸ Dev.imageFault_code hfault

/-- The event of a use that failed, where one did, is an event code. -/
def CodeOk (x : Option Nat) : Prop := ∀ code, x = some code → code < 65536

theorem CodeOk.none : CodeOk none := fun _ h => nomatch h

theorem Dev.copyImage_code (s : Dev) (p : Nat) (pl : Plan) (fill : Bool) (ts : List (Nat × Nat)) : CodeOk (s.copyImage p pl fill ts).2.1 := by
  unfold Dev.copyImage
  refine List.foldlRecOn ts _ (motive := fun acc : Dev × Option Nat × Nat => CodeOk acc.2.1) CodeOk.none fun acc hacc t _ => ?_
  split
  · exact hacc
  · intro code hcode
    obtain hnew | ⟨-, hold⟩ := Option.or_eq_some_iff.1 hcode
    · exact Dev.copyImageTile_code hnew
    · exact hacc code hold

theorem Dev.loadProgram_code (s : Dev) (p : Nat) (pl : Plan) (fill : Bool) (c : PlanCore) : CodeOk (s.loadProgram p pl fill c).2.1 := by
  unfold Dev.loadProgram
  dsimp only
  split <;> exact s.copyImage_code p pl fill c.tiles

theorem Dev.badImageTile_code {s : Dev} {pl : Plan} {t code : Nat} (h : s.badImageTile pl = some (t, code)) : code < 65536 := by
  obtain ⟨x, -, hx⟩ := List.exists_of_findSome?_eq_some h
  obtain ⟨c, hfault, hpair⟩ := Option.map_eq_some_iff.1 hx
  obtain ⟨-, rfl⟩ := Prod.mk.inj hpair
  exact Dev.imageFault_code hfault

theorem Dev.loadStores_code (s : Dev) (p : Nat) (pl : Plan) : CodeOk (s.loadStores p pl).2.1 := by
  have programs : CodeOk (pl.cores.foldl (fun (acc : Dev × Option Nat × List Nat) c =>
      if acc.2.1.isSome then acc
      else
        let q := acc.1.loadProgram p pl false c
        (q.1, q.2.1, if q.2.1.isSome && q.2.2 == 0 then acc.2.2 else acc.2.2 ++ [c.core]))
      ((s.copyImage p pl false pl.residentTiles).1, (s.copyImage p pl false pl.residentTiles).2.1, [])).2.1 := by
    refine List.foldlRecOn pl.cores _ (motive := fun acc : Dev × Option Nat × List Nat => CodeOk acc.2.1) (s.copyImage_code p pl false _) fun acc hacc c _ => ?_
    split
    · exact hacc
    · exact acc.1.loadProgram_code p pl false c
  unfold Dev.loadStores
  dsimp only
  split
  · exact programs
  · split
    · exact programs
    · rename_i hbad
      exact fun c hc => Option.some.inj hc ▸ Dev.badImageTile_code hbad

/-- A load that failed at a use of its image. -/
structure LoadUndone (p code : Nat) (t : Dev) : Prop where
  planState : t.planState p = 0
  loading : (t.part p).loading = none
  err : t.fld Fld.PLAN_STAT_ERR p = code

/-- The state shown for a load that failed. -/
def Dev.undoneShown (s : Dev) (p code : Nat) : Dev :=
  let s := (s.setFld Fld.PLAN_STAT_STATE p 0).setFld Fld.PLAN_STAT_ERR p code
  s.setPart p { s.part p with loading := none, pastChain := false }

theorem Dev.undoLoad_eq (s : Dev) (p code : Nat) (cores : List Nat) :
    s.undoLoad p code cores = ((s.each cores (fun c s => s.zeroStride c)).undoneShown p code).releaseChain p := rfl

theorem LoadUndone.undoneShown (s : Dev) (p : Nat) {code : Nat} (h : code < 65536) : LoadUndone p code (s.undoneShown p code) := by
  refine ⟨?_, congrArg Part.loading (Dev.setPart_self _ p _), ?_⟩
  · exact (Dev.fld_setFld_of_apart _ p p code (by decide) (by decide)).trans (Dev.fld_setFld_self s Fld.PLAN_STAT_STATE p 0 (by decide))
  · exact (Dev.fld_setFld_self _ Fld.PLAN_STAT_ERR p code (by decide)).trans (Nat.mod_eq_of_lt h)

theorem LoadUndone.undoLoad (s : Dev) (p : Nat) (cores : List Nat) {code : Nat} (h : code < 65536) : LoadUndone p code (s.undoLoad p code cores) := by
  rw [Dev.undoLoad_eq]
  obtain ⟨hplan, hload, herr⟩ := LoadUndone.undoneShown (s.each cores (fun c s => s.zeroStride c)) p h
  generalize (s.each cores (fun c s => s.zeroStride c)).undoneShown p code = t at hplan hload herr
  refine ⟨?_, ?_, ?_⟩
  · exact ((ChainBlind.fld Fld.PLAN_STAT_STATE p (by decide)).releaseChain t p).trans hplan
  · refine Eq.trans (congrArg Part.loading ?_) hload
    unfold Dev.part
    rw [show (t.releaseChain p).parts = t.parts from ChainBlind.parts.releaseChain t p]
  · exact ((ChainBlind.fld Fld.PLAN_STAT_ERR p (by decide)).releaseChain t p).trans herr

/-! ### A completion that succeeds -/

/-- What a comparison raises beside what goes on anyhow. -/
def portCodes : List Nat := Ev.FAB_EXTRA :: Ev.FAB_MISSING :: sideCodes

/-- The fields that a plan that is in place shows. -/
def loadedFields : List Fld := [Fld.PLAN_STAT_STATE, Fld.STEP_STAT_FRONT, Fld.CTX_STAT_STATE]

section
variable (s : Dev) (p : Nat)

theorem Beside.setPlan {cs : List Nat} (q st : Nat) : Beside cs s (s.setPlan q st) :=
  (Beside.setFld s Fld.FAB_PORT_STAT_PLAN q st (by decide)).trans
    ((Beside.setFld _ Fld.FAB_STAT_NMISS _ _ (by decide)).trans (Beside.setFld _ Fld.FAB_STAT_NEXTRA _ _ (by decide)))

theorem Beside.redegrade (was : List Nat) : Beside sideCodes s (s.redegrade p was) :=
  (Beside.evalDegraded s p false was).trans (Beside.updateDegraded _ p)

theorem Beside.comparison (was : List Nat) : Beside portCodes s (s.comparison p was) := by
  unfold Dev.comparison
  split
  · exact Beside.refl s
  · refine (Beside.each s _ _ fun q _ t => ?_).trans ((Beside.redegrade _ p was).mono (by decide))
    have extra : ∀ u : Dev, Beside portCodes u (u.raise (q / 6) Ev.FAB_EXTRA) := fun u => Beside.raise u _ _ (by decide)
    have missing : ∀ u : Dev, Beside portCodes u (u.raise (q / 6) Ev.FAB_MISSING) := fun u => Beside.raise u _ _ (by decide)
    refine Beside.ite (fun _ => Beside.ite (fun _ => ?_) fun _ => ?_) fun _ => Beside.ite (fun _ => ?_) fun _ => Beside.ite (fun _ => ?_) fun _ => ?_
    · exact (Beside.setPlan t q _).trans (extra _)
    · exact Beside.setPlan t q _
    · exact (Beside.setPlan t q _).trans (missing _)
    · exact Beside.setPlan t q _
    · exact ((Beside.setPlan t q _).trans (missing _)).trans (extra _)

theorem Beside.loadRoutes {cs : List Nat} (fab : Fabric) : Beside cs s (s.loadRoutes p fab) :=
  Beside.each s _ _ fun _ _ t => Beside.each t _ _ fun _ _ u => Beside.setReg u .FAB_RT _ _ (by decide)

/-- A loaded plan's stores and tables in the cores' and the partition's registers. -/
def Dev.tablesLoaded (s : Dev) (p : Nat) (pl : Plan) : Dev :=
  let s := s.each pl.cores (fun c s => s.loadCore pl.consts c)
  let s := (s.loadFormat p pl.format).setReg .CHK_CTL p pl.check
  let s := (s.setGroups p pl.groups).setBind pl
  (s.setReg .PLAN_ID p pl.planId).setDigest p pl.digest

/-- The state shown for a plan that is in place. -/
def Dev.loadShown (s : Dev) (p : Nat) (pl : Plan) : Dev :=
  let s := s.setReg .PLAN_STAT p (2 + 4 * b2n pl.signed + 8 * b2n (pl.cores.any (fun c => coreCluster c.plan != coreCluster c.core)))
  ((s.setFld Fld.STEP_STAT_FRONT p 0).setFld Fld.CTX_STAT_STATE p 0)

/-- The partition with its schedule's registers back to the start. -/
def Dev.scheduleFresh (s : Dev) (p : Nat) : Dev := ((s.setRevision p none).setReg .PLAN_STEPBEAT p 0).setReg .PLAN_SCHED p 0

/-- The partition with a plan. -/
def Dev.planPlaced (s : Dev) (p : Nat) (pl : Plan) : Dev :=
  s.setPart p { s.part p with plan := some pl, loading := none, start := none, stopReq := false, noRun := pl.cores.any (fun c => !s.present c.core), reach := 0
                              degLast := [], decision := none, captures := [] }

theorem Dev.planPlaced_fld (pl : Plan) (f : Fld) (i : Nat) : (s.planPlaced p pl).fld f i = s.fld f i := rfl

theorem Dev.loadDone_eq (pl : Plan) :
    s.loadDone p pl = ((((((s.tablesLoaded p pl).loadShown p pl).scheduleFresh p).planPlaced p pl).loadRoutes p pl.fabric).comparison p []) := by
  unfold Dev.loadDone Dev.planPlaced Dev.scheduleFresh Dev.loadShown Dev.tablesLoaded
  rfl

theorem Dev.loadShown_planState (pl : Plan) : (s.loadShown p pl).planState p = 2 := by
  have hstat := Dev.reg_setReg_self s .PLAN_STAT p (2 + 4 * b2n pl.signed + 8 * b2n (pl.cores.any fun c => coreCluster c.plan != coreCluster c.core))
  unfold Dev.loadShown
  refine (Dev.fld_setFld_kind _ Fld.CTX_STAT_STATE Fld.PLAN_STAT_STATE p p 0 (by decide)).trans
    ((Dev.fld_setFld_kind _ Fld.STEP_STAT_FRONT Fld.PLAN_STAT_STATE p p 0 (by decide)).trans ?_)
  generalize b2n pl.signed = m at hstat ⊢
  generalize b2n (pl.cores.any fun c => coreCluster c.plan != coreCluster c.core) = n at hstat ⊢
  show ((s.setReg .PLAN_STAT p (2 + 4 * m + 8 * n)).reg .PLAN_STAT p) / 2 ^ 0 % 2 ^ 2 = 2
  rw [hstat]
  omega

theorem Dev.loadShown_front (pl : Plan) : (s.loadShown p pl).fld Fld.STEP_STAT_FRONT p = 0 :=
  (Dev.fld_setFld_kind _ Fld.CTX_STAT_STATE Fld.STEP_STAT_FRONT p p 0 (by decide)).trans (Dev.fld_setFld_self _ Fld.STEP_STAT_FRONT p 0 (by decide))

theorem Dev.loadShown_context (pl : Plan) : (s.loadShown p pl).fld Fld.CTX_STAT_STATE p = 0 := Dev.fld_setFld_self _ Fld.CTX_STAT_STATE p 0 (by decide)

theorem Still.scheduleFresh : Still loadedFields s (s.scheduleFresh p) :=
  ((Still.setRevision s p none (by decide) (by decide)).trans (Still.setReg _ .PLAN_STEPBEAT p 0 (by decide))).trans (Still.setReg _ .PLAN_SCHED p 0 (by decide))

/-- A plan that is in place. -/
structure PlanLoaded (p : Nat) (pl : Plan) (t : Dev) : Prop where
  planState : t.planState p = 2
  plan : (t.part p).plan = some pl
  loading : (t.part p).loading = none
  front : t.fld Fld.STEP_STAT_FRONT p = 0
  context : t.fld Fld.CTX_STAT_STATE p = 0

theorem PlanLoaded.loadDone (pl : Plan) : PlanLoaded p pl (s.loadDone p pl) := by
  rw [Dev.loadDone_eq]
  generalize s.tablesLoaded p pl = t
  have fresh := Still.scheduleFresh (t.loadShown p pl) p
  have hplan := (fresh.fld Fld.PLAN_STAT_STATE (by decide) p).trans (t.loadShown_planState p pl)
  have hfront := (fresh.fld Fld.STEP_STAT_FRONT (by decide) p).trans (t.loadShown_front p pl)
  have hcontext := (fresh.fld Fld.CTX_STAT_STATE (by decide) p).trans (t.loadShown_context p pl)
  generalize (t.loadShown p pl).scheduleFresh p = u at hplan hfront hcontext
  have placed : (u.planPlaced p pl).part p = _ := Dev.setPart_self u p _
  have rest : Beside portCodes (u.planPlaced p pl) (((u.planPlaced p pl).loadRoutes p pl.fabric).comparison p []) :=
    (Beside.loadRoutes _ p pl.fabric).trans (Beside.comparison _ p [])
  refine ⟨?_, ?_, ?_, ?_, ?_⟩
  · exact (rest.fld Fld.PLAN_STAT_STATE p (by decide)).trans ((u.planPlaced_fld p pl _ p).trans hplan)
  · exact (rest.part p Part.plan fun _ => rfl).trans (congrArg Part.plan placed)
  · exact (rest.part p Part.loading fun _ => rfl).trans (congrArg Part.loading placed)
  · exact (rest.fld Fld.STEP_STAT_FRONT p (by decide)).trans ((u.planPlaced_fld p pl _ p).trans hfront)
  · exact (rest.fld Fld.CTX_STAT_STATE p (by decide)).trans ((u.planPlaced_fld p pl _ p).trans hcontext)

/-! ### PLAN_LOAD_COMPLETE -/

variable {s p} {pl : Plan} (hload : (s.part p).loading = some pl) (hbound : pl.bound = true) (hbridge : s.bridgeStops p = false)
include hload hbound hbridge

theorem Dev.loadComplete_done (h : (s.loadStores p pl).2.1 = none) : s.loadComplete p = (s.loadStores p pl).1.loadDone p pl := by
  unfold Dev.loadComplete
  simp only [hload, hbound, hbridge, h]
  rfl

theorem Dev.loadComplete_undone {code : Nat} (h : (s.loadStores p pl).2.1 = some code) :
    s.loadComplete p = (s.loadStores p pl).1.undoLoad p code (s.loadStores p pl).2.2 := by
  unfold Dev.loadComplete
  simp only [hload, hbound, hbridge, h]
  rfl

end

end Sys2Proof.Machine
end

section
/-!
PROOF. The commands of a plan: LOAD and its completion, UNLOAD, RUN and STOP (O32).
-/
namespace Sys2Proof.Machine

/-! ### What a command's reads report is gone with the command -/

section
variable {s t : Dev} {p : Nat} {xs ys : List Nat}

theorem Refused.withUe {code : Nat} (h : Refused { s with ue := xs } p code t) : Refused s p code { t with ue := ys } := by
  obtain ⟨herr, hplan, hevent, frame⟩ := h
  obtain ⟨hreg, hcore, hpart, hfab, hbyte, hchain, hspr, hctl, hsby, hsec, hnow⟩ := frame
  exact ⟨herr, hplan, hevent, ⟨hreg, hcore, hpart, hfab, hbyte, hchain, hspr, hctl, hsby, hsec, hnow⟩⟩

theorem UseEnded.withUe (h : UseEnded { s with ue := xs } p t) : UseEnded s p { t with ue := ys } := by
  obtain ⟨hplan, herr, hmem, hcores, hevent⟩ := h
  exact ⟨hplan, herr, hmem, hcores, hevent⟩

theorem Loading.withUe {x : Plan} (h : Loading { s with ue := xs } p x t) : Loading s p x { t with ue := ys } := by
  obtain ⟨hplan, hload, hforce, hchain, hmem, hcores⟩ := h
  exact ⟨hplan, hload, hforce, hchain, hmem, hcores⟩

theorem ShortEnded.withUe (h : ShortEnded { s with ue := xs } p t) : ShortEnded s p { t with ue := ys } := by
  obtain ⟨hplan, hload, herr, hevent, hmem, hcores⟩ := h
  exact ⟨hplan, hload, herr, hevent, hmem, hcores⟩

theorem LoadUndone.withUe {code : Nat} (h : LoadUndone p code t) : LoadUndone p code { t with ue := ys } := by
  obtain ⟨hplan, hload, herr⟩ := h
  exact ⟨hplan, hload, herr⟩

theorem PlanLoaded.withUe {pl : Plan} (h : PlanLoaded p pl t) : PlanLoaded p pl { t with ue := ys } := by
  obtain ⟨hplan, hpl, hload, hfront, hcontext⟩ := h
  exact ⟨hplan, hpl, hload, hfront, hcontext⟩

variable (s p xs)

theorem Dev.readPlan_withUe (a : Nat) : ({ s with ue := xs } : Dev).readPlan p a = s.readPlan p a :=
  Dev.readPlan_congr (fun _ _ _ => rfl) rfl p a

theorem Dev.binding_withUe (n : Nat) (rs : List CoresRec) : ({ s with ue := xs } : Dev).binding p n rs = s.binding p n rs :=
  Dev.binding_congr (fun _ _ _ => rfl) p n rs

end

/-! ### PLAN_LOAD -/

/-- The statement's words for a request that is refused. -/
def refuses (s : State) (p code : Nat) (t : State) : Prop :=
  t.dev.fld Fld.PLAN_STAT_ERR p = code ∧ t.dev.planState p = s.dev.planState p ∧ t.flash = s.flash ∧
    t.dev.events p code = min 0xFFFFFFFF (s.dev.events p code + 1) ∧ Frame (planStat p) s.dev t.dev

/-- And for a load under way. -/
def loads (s : State) (p : Nat) (x : Plan) (t : State) : Prop :=
  t.dev.planState p = 1 ∧ (t.dev.part p).loading = some x ∧ t.dev.chain.inForce = true ∧ (s.dev.chain.inForce = true → t.dev.chain = s.dev.chain) ∧
    (∀ x, Memory.byte t.dev.mem x = Memory.byte s.dev.mem x) ∧ t.dev.cores = s.dev.cores ∧ t.flash = s.flash

theorem Refused.refuses {s : State} {p code : Nat} {d : Dev} (h : Refused s.dev p code d) : refuses s p code { s with dev := d } := by
  obtain ⟨herr, hplan, hevent, frame⟩ := h
  exact ⟨herr, hplan, rfl, hevent, frame⟩

theorem Loading.loads {s : State} {p : Nat} {x : Plan} {d : Dev} (h : Loading s.dev p x d) : loads s p x { s with dev := d } := by
  obtain ⟨hplan, hload, hforce, hchain, hmem, hcores⟩ := h
  exact ⟨hplan, hload, hforce, hchain, fun a => congrArg (fun m => Memory.byte m a) hmem, hcores, rfl⟩

theorem Dev.planLoad_check {s : Dev} {keys : List Nat} {p code : Nat} (h : s.loadRefused p = false)
    (hue : ∀ x ∈ s.loadTiles p (s.planAddr p), s.ueAt x = false) (hcheck : s.loadCheck keys p (s.planAddr p) = some code) :
    s.planLoad keys p = s.planErr p code := by
  rw [Dev.planLoad_clear h hue, hcheck]

theorem Dev.planLoad_chain {s : Dev} {keys : List Nat} {p : Nat} (h : s.loadRefused p = false)
    (hue : ∀ x ∈ s.loadTiles p (s.planAddr p), s.ueAt x = false) (hcheck : s.loadCheck keys p (s.planAddr p) = none)
    (hchain : s.chainAgrees (s.imageChain (s.planAddr p)) = false) : s.planLoad keys p = s.planErr p Ev.PLAN_CHAIN := by
  rw [Dev.planLoad_clear h hue, hcheck, hchain]
  rfl

theorem Dev.planLoad_begins {s : Dev} {keys : List Nat} {p : Nat} (h : s.loadRefused p = false)
    (hue : ∀ x ∈ s.loadTiles p (s.planAddr p), s.ueAt x = false) (hcheck : s.loadCheck keys p (s.planAddr p) = none)
    (hchain : s.chainAgrees (s.imageChain (s.planAddr p)) = true) : s.planLoad keys p = (s.loadReady p (s.planAddr p)).loadBind p := by
  rw [Dev.planLoad_clear h hue, hcheck, hchain]
  rfl

section
variable {s : State} {port : HostPort} (h : s.dev.servesPart port.val)
include h

theorem exec_planLoad_eq (ue : List (BitVec 52)) : exec (.planLoad port ue) s =
    ok s { (s.dev.reading ue).planLoad (s.flash.keys 2) (s.dev.partOf port.val) with ue := [] } :=
  congrArg (ok s) (Dev.partGate_eq h _)

theorem exec_planLoad_refused {ue : List (BitVec 52)} {code : Nat} (hcode : code < 65536)
    (hload : (s.dev.reading ue).planLoad (s.flash.keys 2) (s.dev.partOf port.val) = (s.dev.reading ue).planErr (s.dev.partOf port.val) code) :
    leadsTo (exec (.planLoad port ue) s) (refuses s (s.dev.partOf port.val) code) := by
  rw [exec_planLoad_eq h, hload]
  exact leadsTo_of_dev rfl (Refused.withUe (Refused.planErr (s.dev.reading ue) _ hcode)).refuses

variable {ue : List (BitVec 52)} (hgo : s.dev.loadRefused (s.dev.partOf port.val) = false)
include hgo

theorem exec_planLoad_failed
    (hue : ¬ ∀ x ∈ s.dev.loadTiles (s.dev.partOf port.val) (s.dev.planAddr (s.dev.partOf port.val)), (s.dev.reading ue).ueAt x = false) :
    leadsTo (exec (.planLoad port ue) s) (fun t => UseEnded s.dev (s.dev.partOf port.val) t.dev ∧ t.flash = s.flash) := by
  obtain ⟨x, hx⟩ := Dev.planLoad_failed (s := s.dev.reading ue) (keys := s.flash.keys 2) hgo hue
  rw [exec_planLoad_eq h, hx]
  exact leadsTo_of_dev rfl ⟨UseEnded.withUe (UseEnded.of_failed (s.dev.reading ue) _ _ _ _ _), rfl⟩

variable (hue : ∀ x ∈ s.dev.loadTiles (s.dev.partOf port.val) (s.dev.planAddr (s.dev.partOf port.val)), (s.dev.reading ue).ueAt x = false)
include hue

theorem exec_planLoad_check {code : Nat}
    (hcheck : (s.dev.reading ue).loadCheck (s.flash.keys 2) (s.dev.partOf port.val) (s.dev.planAddr (s.dev.partOf port.val)) = some code) :
    leadsTo (exec (.planLoad port ue) s) (refuses s (s.dev.partOf port.val) code) := by
  exact exec_planLoad_refused h (Dev.loadCheck_code hcheck) (Dev.planLoad_check (s := s.dev.reading ue) hgo hue hcheck)

variable (hcheck : (s.dev.reading ue).loadCheck (s.flash.keys 2) (s.dev.partOf port.val) (s.dev.planAddr (s.dev.partOf port.val)) = none)
include hcheck

theorem exec_planLoad_chain (hchain : s.dev.chainAgrees (s.dev.imageChain (s.dev.planAddr (s.dev.partOf port.val))) = false) :
    leadsTo (exec (.planLoad port ue) s) (refuses s (s.dev.partOf port.val) Ev.PLAN_CHAIN) :=
  exec_planLoad_refused h (by decide) (Dev.planLoad_chain (s := s.dev.reading ue) hgo hue hcheck hchain)

variable (hchain : s.dev.chainAgrees (s.dev.imageChain (s.dev.planAddr (s.dev.partOf port.val))) = true)
include hchain

theorem exec_planLoad_begins : exec (.planLoad port ue) s =
    ok s { ((s.dev.reading ue).loadReady (s.dev.partOf port.val) (s.dev.planAddr (s.dev.partOf port.val))).loadBind (s.dev.partOf port.val) with ue := [] } := by
  rw [exec_planLoad_eq h]
  exact congrArg (fun d : Dev => ok s { d with ue := [] }) (Dev.planLoad_begins (s := s.dev.reading ue) hgo hue hcheck hchain)

theorem exec_planLoad_fills (hfill : s.dev.filling (s.dev.partOf port.val) = true) : leadsTo (exec (.planLoad port ue) s) (fun t =>
      loads s (s.dev.partOf port.val) (s.dev.readPlan (s.dev.partOf port.val) (s.dev.planAddr (s.dev.partOf port.val))) t ∧
      (t.dev.part (s.dev.partOf port.val)).loadBinding = s.dev.binding (s.dev.partOf port.val)
        (s.dev.readPlan (s.dev.partOf port.val) (s.dev.planAddr (s.dev.partOf port.val))).lcores
        (s.dev.readPlan (s.dev.partOf port.val) (s.dev.planAddr (s.dev.partOf port.val))).uses) := by
  rw [exec_planLoad_begins h hgo hue hcheck hchain, Dev.loadBind_fills (s.dev.reading ue) _ _ hfill]
  generalize s.dev.partOf port.val = p
  generalize s.dev.planAddr p = a
  have hbind : (((s.dev.reading ue).loadReady p a).part p).loadBinding = s.dev.binding p (s.dev.readPlan p a).lcores (s.dev.readPlan p a).uses := by
    rw [Dev.loadReady_part, Dev.reading, Dev.readPlan_withUe, Dev.binding_withUe]
  have loading := Loading.loadReady (s.dev.reading ue) p a
  rw [show (s.dev.reading ue).readPlan p a = s.dev.readPlan p a from Dev.readPlan_withUe s.dev p _ a] at loading
  exact leadsTo_of_dev rfl ⟨loading.withUe.loads, hbind⟩

variable (hfill : s.dev.filling (s.dev.partOf port.val) = false)
include hfill

theorem exec_planLoad_bound {bs : List (Nat × Nat × Nat)}
    (hbind : s.dev.binding (s.dev.partOf port.val) (s.dev.readPlan (s.dev.partOf port.val) (s.dev.planAddr (s.dev.partOf port.val))).lcores
      (s.dev.readPlan (s.dev.partOf port.val) (s.dev.planAddr (s.dev.partOf port.val))).uses = some bs) :
    leadsTo (exec (.planLoad port ue) s)
      (loads s (s.dev.partOf port.val) ((s.dev.readPlan (s.dev.partOf port.val) (s.dev.planAddr (s.dev.partOf port.val))).bind bs)) := by
  rw [exec_planLoad_begins h hgo hue hcheck hchain, Dev.loadBind_eq (s.dev.reading ue) _ _ hfill]
  generalize s.dev.partOf port.val = p at hbind
  generalize s.dev.planAddr p = a at hbind
  have hplan : (s.dev.reading ue).readPlan p a = s.dev.readPlan p a := Dev.readPlan_withUe s.dev p _ a
  have hfound : (s.dev.reading ue).binding p (s.dev.readPlan p a).lcores (s.dev.readPlan p a).uses = some bs :=
    (Dev.binding_withUe s.dev p _ _ _).trans hbind
  have loading := Loading.loadBound (s.dev.reading ue) p a bs
  rw [hplan] at loading ⊢
  rw [hfound]
  exact leadsTo_of_dev rfl loading.withUe.loads

theorem exec_planLoad_short
    (hbind : s.dev.binding (s.dev.partOf port.val) (s.dev.readPlan (s.dev.partOf port.val) (s.dev.planAddr (s.dev.partOf port.val))).lcores
      (s.dev.readPlan (s.dev.partOf port.val) (s.dev.planAddr (s.dev.partOf port.val))).uses = none) :
    leadsTo (exec (.planLoad port ue) s) (fun t => ShortEnded s.dev (s.dev.partOf port.val) t.dev ∧ t.flash = s.flash) := by
  rw [exec_planLoad_begins h hgo hue hcheck hchain, Dev.loadBind_eq (s.dev.reading ue) _ _ hfill]
  generalize s.dev.partOf port.val = p at hbind
  generalize s.dev.planAddr p = a at hbind
  have hplan : (s.dev.reading ue).readPlan p a = s.dev.readPlan p a := Dev.readPlan_withUe s.dev p _ a
  have hfound : (s.dev.reading ue).binding p (s.dev.readPlan p a).lcores (s.dev.readPlan p a).uses = none :=
    (Dev.binding_withUe s.dev p _ _ _).trans hbind
  rw [hplan, hfound]
  exact leadsTo_of_dev rfl ⟨ShortEnded.withUe (ShortEnded.loadShort (s.dev.reading ue) p a), rfl⟩

end

/-! ### UNLOAD, STOP and RUN -/

section
variable {s : State} {port : HostPort} (h : s.dev.servesPart port.val)
include h

theorem exec_planUnload {pl : Plan} (hplan : s.dev.planState (s.dev.partOf port.val) = 2) (hpl : (s.dev.part (s.dev.partOf port.val)).plan = some pl) :
    leadsTo (exec (.planUnload port) s) (fun t => t.dev.planState (s.dev.partOf port.val) = 0 ∧ (t.dev.part (s.dev.partOf port.val)).plan = none ∧
      t.dev.reg .PLAN_ID (s.dev.partOf port.val) = 0 ∧ t.flash = s.flash) := by
  obtain ⟨hempty, hnone, hid⟩ := s.dev.planUnload_spec _ hplan hpl
  exact leadsTo_of_dev (congrArg (ok s) (Dev.partGate_eq h _)) ⟨hempty, hnone, hid, rfl⟩

theorem exec_planStop_step (hplan : s.dev.planState (s.dev.partOf port.val) = 3) (hstep : (s.dev.part (s.dev.partOf port.val)).stepping = true) :
    leadsTo (exec (.planStop port) s) (fun t =>
      t.dev.part (s.dev.partOf port.val) = { s.dev.part (s.dev.partOf port.val) with stopReq := true } ∧
      Frame { part := fun q => q = s.dev.partOf port.val } s.dev t.dev ∧ t.flash = s.flash) :=
  leadsTo_of_dev (congrArg (ok s) ((Dev.partGate_eq h _).trans (Dev.planStop_step s.dev _ hplan hstep)))
    ⟨Dev.setPart_self _ _ _, Frame.setPart _ _ _ _ rfl, rfl⟩

theorem exec_planStop_start (hplan : s.dev.planState (s.dev.partOf port.val) = 3) (hstep : (s.dev.part (s.dev.partOf port.val)).stepping = false) :
    leadsTo (exec (.planStop port) s) (fun t =>
      t.dev.planState (s.dev.partOf port.val) = 2 ∧ (t.dev.part (s.dev.partOf port.val)).start = none ∧ t.flash = s.flash ∧
      (s.dev.noneBack (s.dev.partOf port.val) → Frame (runState (s.dev.partOf port.val)) s.dev t.dev)) :=
  leadsTo_of_dev (congrArg (ok s) ((Dev.partGate_eq h _).trans (Dev.planStop_start s.dev _ hplan hstep)))
    ⟨Dev.toLoaded_planState _ _, congrArg Part.start (Dev.toLoaded_part _ _), rfl, Frame.toLoaded s.dev _⟩

theorem exec_planRun_accepted {beat : Word} (hrun : s.dev.runRefused (s.dev.partOf port.val) beat.toNat = false) :
    leadsTo (exec (.planRun port beat) s) (fun t =>
      t.dev.planState (s.dev.partOf port.val) = 3 ∧
      t.dev.part (s.dev.partOf port.val) = { s.dev.part (s.dev.partOf port.val) with start := some beat, stopReq := false } ∧
      Frame (runState (s.dev.partOf port.val)) s.dev t.dev ∧ t.flash = s.flash) :=
  leadsTo_of_dev (congrArg (ok s) ((Dev.partGate_eq h _).trans (Dev.planRun_accepted s.dev _ hrun)))
    ⟨Dev.ran_planState s.dev _ beat, Dev.setPart_self _ _ _, Frame.ran s.dev _ beat, rfl⟩

theorem exec_planRun_refused {beat : Word} (hrun : s.dev.runRefused (s.dev.partOf port.val) beat.toNat = true) :
    leadsTo (exec (.planRun port beat) s) (refuses s (s.dev.partOf port.val) Ev.PLAN_STATE) :=
  leadsTo_of_dev (congrArg (ok s) ((Dev.partGate_eq h _).trans (Dev.planRun_refused s.dev _ hrun)))
    (Refused.planErr s.dev _ (by decide)).refuses

end

/-! ### PLAN_LOAD_COMPLETE -/

section
variable {s : State} {die : DieId} {pl : Plan} {ue : List (BitVec 52)} (hload : (s.dev.part die.val).loading = some pl) (hbound : pl.bound = true)
  (hbridge : s.dev.bridgeStops die.val = false)
include hload hbound hbridge

theorem exec_planLoadComplete_done (hstores : ((s.dev.reading ue).loadStores die.val pl).2.1 = none) :
    leadsTo (exec (.planLoadComplete die ue) s) (fun t => PlanLoaded die.val pl t.dev ∧ t.flash = s.flash) :=
  leadsTo_of_dev (congrArg (fun d : Dev => ok s { d with ue := [] }) (Dev.loadComplete_done (s := s.dev.reading ue) hload hbound hbridge hstores))
    ⟨(PlanLoaded.loadDone _ die.val pl).withUe, rfl⟩

theorem exec_planLoadComplete_undone {code : Nat} (hstores : ((s.dev.reading ue).loadStores die.val pl).2.1 = some code) :
    leadsTo (exec (.planLoadComplete die ue) s) (fun t => LoadUndone die.val code t.dev ∧ t.flash = s.flash) :=
  leadsTo_of_dev (congrArg (fun d : Dev => ok s { d with ue := [] }) (Dev.loadComplete_undone (s := s.dev.reading ue) hload hbound hbridge hstores))
    ⟨(LoadUndone.undoLoad _ die.val _ (Dev.loadStores_code _ _ _ code hstores)).withUe, rfl⟩

end

/-- Settles O32, command by command: what a load reads does not see the chain or the errors its reads report. -/
theorem planCommandsMoveState : Obligations.PlanCommandsMoveState := by
  unfold Obligations.PlanCommandsMoveState
  intro s port die
  refine ⟨fun h => ⟨?_, ?_, ?_, fun ue hgo hue hcheck => ⟨?_, fun hchain => ⟨?_, ?_, ?_⟩⟩, ?_, ?_, ?_, ?_, ?_⟩,
    fun pl ue hload hbound hbridge => ⟨?_, ?_⟩⟩
  · exact fun ue hstay => exec_planLoad_refused h (by decide) (Dev.planLoad_refused (s := s.dev.reading ue) hstay)
  · exact fun ue code hgo hue hcheck => exec_planLoad_check h hgo hue hcheck
  · intro ue hgo hue
    obtain ⟨t, ht, ⟨hplan, herr, hmem, hcores, hevent⟩, hflash⟩ := exec_planLoad_failed h hgo hue
    exact ⟨t, ht, hplan, herr, hmem, hcores, hevent, hflash⟩
  · exact exec_planLoad_chain h hgo hue hcheck
  · exact exec_planLoad_fills h hgo hue hcheck hchain
  · exact fun bs hfill hbind => exec_planLoad_bound h hgo hue hcheck hchain hfill hbind
  · intro hfill hbind
    obtain ⟨t, ht, ⟨hplan, hload, herr, hevent, hmem, hcores⟩, hflash⟩ := exec_planLoad_short h hgo hue hcheck hchain hfill hbind
    exact ⟨t, ht, hplan, hload, herr, hevent, hmem, hcores, hflash⟩
  · exact fun pl hplan hpl => exec_planUnload h hplan hpl
  · exact exec_planStop_step h
  · exact exec_planStop_start h
  · exact fun beat hrun => exec_planRun_accepted h hrun
  · exact fun beat hrun => exec_planRun_refused h hrun
  · intro hstores
    obtain ⟨t, ht, ⟨hplan, hpl, hnone, hfront, hcontext⟩, hflash⟩ := exec_planLoadComplete_done hload hbound hbridge hstores
    exact ⟨t, ht, hplan, hpl, hnone, hfront, hcontext, hflash⟩
  · intro code hstores
    obtain ⟨t, ht, ⟨hplan, hnone, herr⟩, hflash⟩ := exec_planLoadComplete_undone hload hbound hbridge hstores
    exact ⟨t, ht, hplan, hnone, herr, hflash⟩

end Sys2Proof.Machine
end

section
/-!
PROOF. CTX_SAVE: the drain that starts and the image it gathers (R332, R338, R436).
-/
namespace Sys2Proof.Machine

/-! ### The image of a drain that starts -/

/-- The state and the step number of a drain shown. -/
def Dev.drainMarked (s : Dev) (p step : Nat) : Dev := (s.setFld Fld.CTX_DSTAT_STATE p 1).setFld Fld.CTX_DSTAT_STEP p step

section
variable (s : Dev) (p n : Nat)

theorem Dev.drainMarked_reg (k : RegKind) (i : Nat) (h : k ≠ .CTX_DSTAT) : (s.drainMarked p n).reg k i = s.reg k i :=
  (Dev.reg_setFld_kind _ Fld.CTX_DSTAT_STEP k p i n h).trans (Dev.reg_setFld_kind s Fld.CTX_DSTAT_STATE k p i 1 h)

theorem Dev.drainMarked_ctab : (s.drainMarked p n).ctab p = s.ctab p := by
  unfold Dev.ctab
  rw [Dev.drainMarked_reg s p n _ _ (by decide)]
  rfl

theorem Dev.drainMarked_frontTiles : (s.drainMarked p n).frontTiles p = s.frontTiles p := by
  unfold Dev.frontTiles Dev.flag
  rw [Dev.drainMarked_ctab, Dev.fld_congr Fld.STEP_STAT_FRONT p (Dev.drainMarked_reg s p n _ _ (by decide))]

/-- The image does not hold the drain's own state. -/
theorem Dev.drainMarked_contextImage (step : Nat) (mons : List MonSnap) (used : Nat) :
    (s.drainMarked p n).contextImage p step mons used = s.contextImage p step mons used := by
  unfold Dev.contextImage Dev.contextTiles
  simp only [Dev.drainMarked_ctab, Dev.drainMarked_frontTiles, Dev.drainMarked_reg s p n .PLAN_ID _ (by decide),
    Dev.drainMarked_reg s p n .PLAN_DIGEST _ (by decide), Dev.fld_congr Fld.STEP_STREAM_STREAM p (Dev.drainMarked_reg s p n _ _ (by decide))]
  rfl

end

/-! ### The drain under way -/

/-- The fields that show a drain. -/
def drainFields : List Fld := [Fld.CTX_DSTAT_STATE, Fld.CTX_DSTAT_STEP]

/-- What a drain that starts touches: CTX_DSTAT and the partition. -/
def drainState (p : Nat) : Touches := { part := fun q => q = p, reg := fun k i => k = .CTX_DSTAT ∧ i = p }

/-- The drain of a state on the ports of a partition that may carry it. -/
def Dev.drainOf (s : Dev) (p step : Nat) (mons : List MonSnap) (used : Nat) : Drain :=
  ⟨s.drainPortsOf p, s.reg .CTX_DHOST p, s.contextImage p step mons used⟩

/-- A drain shown and held, its front copies read, and its write streams handed to their ports. -/
def Dev.drainBegun (s : Dev) (p step : Nat) (d : Drain) : Dev :=
  (((s.drainMarked p step).hbmErrors (s.frontTiles p)).setPart p { s.part p with drain := some d }).sendDrain d

section
variable (s : Dev)

theorem Still.setCtl {fs : List Fld} (x : Control) : Still fs s { s with ctl := x } := Still.of_regs rfl rfl

theorem Still.logRecord (d : Nat) (r : LogRec) : Still drainFields s (s.logRecord d r) := by
  unfold Dev.logRecord
  dsimp only
  split
  · exact (Quiet.raise s _ _).still (by decide)
  · refine Still.trans ?_ (Still.setFld _ Fld.CHK_LOGSTAT_COUNT _ _ (by decide))
    exact (Still.each s _ _ fun _ _ t => Still.setReg t .CHK_LOG _ _ (by decide)).trans (Still.setCtl _ _)

theorem Still.hbmErrors (tiles : List Nat) : Still drainFields s (s.hbmErrors tiles) :=
  Still.each s _ _ fun _ _ t => ((Quiet.raise t _ _).still (by decide)).trans (Still.logRecord _ _ _)

theorem Dev.hbmErrors_clear (tiles : List Nat) (h : s.ue = []) : s.hbmErrors tiles = s := by
  have hclear : ∀ a, s.ueAt a = false := fun a => by unfold Dev.ueAt; rw [h]; split <;> rfl
  have hnone : tiles.filter s.ueAt = [] := List.filter_eq_nil_iff.2 fun a _ => by simp [hclear a]
  unfold Dev.hbmErrors
  rw [hnone]
  rfl

theorem Quiet.sendDrain (d : Drain) : Quiet s (s.sendDrain d) :=
  Quiet.each s _ _ fun x t => Quiet.each t _ _ fun q u => Quiet.hostSend u x.1 q

variable (p step : Nat)

theorem Dev.beginDrain_eq (mons : List MonSnap) (used : Nat) (h : s.drainPortsOf p ≠ []) :
    s.beginDrain p step mons used = s.drainBegun p step (s.drainOf p step mons used) := by
  have himage := s.drainMarked_contextImage p step step mons used
  have hfront := s.drainMarked_frontTiles p step
  have hhost := s.drainMarked_reg p step .CTX_DHOST p (by decide)
  have hports : (s.drainPortsOf p).isEmpty = false := List.isEmpty_eq_false_iff.2 h
  unfold Dev.beginDrain
  simp only [hports]
  unfold Dev.drainMarked at *
  simp only [himage, hfront, hhost]
  rfl

variable (d : Drain)

theorem Dev.drainBegun_fld (f : Fld) (hf : f ∈ drainFields) : (s.drainBegun p step d).fld f p = (s.drainMarked p step).fld f p := by
  have hquiet : f.reg.counting = false := by fin_cases hf <;> rfl
  exact ((Quiet.sendDrain _ d).fld f p hquiet).trans ((Still.hbmErrors (s.drainMarked p step) _).fld f hf p)

theorem Dev.drainBegun_state : (s.drainBegun p step d).fld Fld.CTX_DSTAT_STATE p = 1 := by
  rw [Dev.drainBegun_fld s p step d _ (by decide)]
  exact (Dev.fld_setFld_of_apart _ p p step (by decide) (by decide)).trans (Dev.fld_setFld_self s Fld.CTX_DSTAT_STATE p 1 (by decide))

theorem Dev.drainBegun_step : (s.drainBegun p step d).fld Fld.CTX_DSTAT_STEP p = step % 2 ^ 40 := by
  rw [Dev.drainBegun_fld s p step d _ (by decide)]
  exact Dev.fld_setFld_self _ Fld.CTX_DSTAT_STEP p step (by decide)

theorem Dev.drainBegun_part : (s.drainBegun p step d).part p = { s.part p with drain := some d } :=
  ((Quiet.sendDrain _ d).part p).trans (Dev.setPart_self _ p _)

/-- A drain whose reads report no error changes its own state and the partition's, and goes out on its ports. -/
theorem Dev.drainBegun_clear (h : s.ue = []) :
    s.drainBegun p step d = ((s.drainMarked p step).setPart p { s.part p with drain := some d }).sendDrain d := by
  unfold Dev.drainBegun
  rw [Dev.hbmErrors_clear (s.drainMarked p step) _ h]

theorem Frame.drainBegun (h : s.ue = []) : Frame (drainState p) s (s.drainBegun p step d) := by
  rw [Dev.drainBegun_clear s p step d h]
  have marked := (Frame.setFld (drainState p) s Fld.CTX_DSTAT_STATE p 1 ⟨rfl, rfl⟩).trans
    (Frame.setFld _ _ Fld.CTX_DSTAT_STEP p step ⟨rfl, rfl⟩)
  exact (marked.trans (Frame.setPart _ _ p _ rfl)).trans (Frame.quiet _ (Quiet.sendDrain _ d))

end

/-! ### SAVE -/

/-- What a frame leaves alone does not hold the errors that a command's reads report. -/
theorem Frame.withUe {m : Touches} {s t : Dev} {xs ys : List Nat} (h : Frame m { s with ue := xs } t) : Frame m s { t with ue := ys } :=
  ⟨h.reg, h.core, h.part, h.fab, h.byte, h.chain, h.spr, h.ctl, h.sby, h.sec, h.now⟩

/-- A partition with a loaded plan, in RUN, and no drain under way takes a SAVE or a RESTORE up (R338, R339, R532). -/
structure ContextFree (s : Dev) (p : Nat) : Prop where
  plan : s.planState p = 2
  running : s.running = true
  drain : s.fld Fld.CTX_DSTAT_STATE p ≠ 1

theorem Dev.ctxSave_eq {s : Dev} {p : Nat} (h : ContextFree s p) (hhost : s.reg .CTX_DHOST p ≠ 0) (hstate : s.fld Fld.CTX_STAT_STATE p ≠ 3) :
    s.ctxSave p = s.beginDrain p (s.step p) (s.monSnaps p) (s.fld Fld.FMT_BUDGET_USED p) := by
  simp [Dev.ctxSave, h.plan, h.running, h.drain, hhost, hstate]

section
variable {s : State} {port : HostPort} (hserves : s.dev.servesPart port.val) (hfree : ContextFree s.dev (s.dev.partOf port.val))
include hserves hfree

theorem exec_ctxSave_eq (ue : List (BitVec 52)) (hhost : s.dev.reg .CTX_DHOST (s.dev.partOf port.val) ≠ 0)
    (hstate : s.dev.fld Fld.CTX_STAT_STATE (s.dev.partOf port.val) ≠ 3) (hports : s.dev.drainPortsOf (s.dev.partOf port.val) ≠ []) :
    exec (.ctxSave port ue) s = ok s { (s.dev.reading ue).drainBegun (s.dev.partOf port.val) (s.dev.step (s.dev.partOf port.val))
      ((s.dev.reading ue).drainOf (s.dev.partOf port.val) (s.dev.step (s.dev.partOf port.val)) (s.dev.monSnaps (s.dev.partOf port.val))
        (s.dev.fld Fld.FMT_BUDGET_USED (s.dev.partOf port.val))) with ue := [] } := by
  have hsave : (s.dev.reading ue).ctxSave (s.dev.partOf port.val) = _ :=
    (Dev.ctxSave_eq (s := s.dev.reading ue) ⟨hfree.plan, hfree.running, hfree.drain⟩ hhost hstate).trans (Dev.beginDrain_eq _ _ _ _ _ hports)
  exact (congrArg (ok s) (Dev.partGate_eq hserves _)).trans (congrArg (fun d : Dev => ok s { d with ue := [] }) hsave)

end

end Sys2Proof.Machine
end

section
/-!
PROOF. CTX_RESTORE: its checks, and the load of an image that passes them (R339).
-/
namespace Sys2Proof.Machine

/-! ### A check that fails (R339 steps 1 to 4) -/

/-- What a RESTORE that fails a check touches: CTX_STAT. -/
def contextStat (p : Nat) : Touches := { reg := fun k i => k = .CTX_STAT ∧ i = p }

/-- A RESTORE that has failed a check with an event. -/
structure RestoreFailed (s : Dev) (p code : Nat) (t : Dev) : Prop where
  err : t.fld Fld.CTX_STAT_ERR p = code
  event : t.events p code = min 0xFFFFFFFF (s.events p code + 1)
  frame : Frame (contextStat p) s t

section
variable {s : Dev} {p a code : Nat}

theorem Dev.ctxCheck_code (h : s.ctxCheck p a = some code) : code < 65536 := by
  unfold Dev.ctxCheck at h
  dsimp only at h
  split at h
  · exact Option.some.inj h ▸ by decide
  split at h
  · exact Option.some.inj h ▸ by decide
  split at h
  · exact Option.some.inj h ▸ by decide
  split at h
  · exact Option.some.inj h ▸ by decide
  · cases h

theorem RestoreFailed.ctxFail (h : code < 65536) : RestoreFailed s p code (s.ctxFail p code) := by
  refine ⟨?_, ?_, (Frame.setFld (contextStat p) s Fld.CTX_STAT_ERR p code ⟨rfl, rfl⟩).trans (Frame.raise _ _ _ _)⟩
  · exact ((Quiet.raise _ _ _).fld _ p rfl).trans ((Dev.fld_setFld_self s Fld.CTX_STAT_ERR p code (by decide)).trans (Nat.mod_eq_of_lt h))
  · unfold Dev.ctxFail
    rw [Dev.raise_events, Dev.events_setFld _ _ _ _ _ _ (by decide)]

theorem RestoreFailed.withUe {t : Dev} {xs ys : List Nat} (h : RestoreFailed { s with ue := xs } p code t) : RestoreFailed s p code { t with ue := ys } :=
  ⟨h.err, h.event, h.frame.withUe⟩

/-- What lets a RESTORE go on to its checks (R24, R339). -/
structure RestoreFree (s : Dev) (p : Nat) : Prop extends ContextFree s p where
  idle : s.fld Fld.CTX_STAT_STATE p ≠ 1
  bridges : s.bridgeStops p = false

theorem Dev.ctxRestore_fails (h : RestoreFree s p) (hcheck : s.ctxCheck p (s.fld Fld.CTX_RADDR_ADDR p) = some code) :
    s.ctxRestore p = s.ctxFail p code := by
  simp [Dev.ctxRestore, h.plan, h.running, h.drain, h.idle, h.bridges, hcheck]

theorem Dev.ctxRestore_loads (h : RestoreFree s p) (hcheck : s.ctxCheck p (s.fld Fld.CTX_RADDR_ADDR p) = none) :
    s.ctxRestore p = s.ctxLoad p (s.fld Fld.CTX_RADDR_ADDR p) := by
  simp [Dev.ctxRestore, h.plan, h.running, h.drain, h.idle, h.bridges, hcheck]

end

/-! ### The checks do not see what a command's reads report -/

theorem Dev.ctxGroups_congr {s t : Dev} {p a : Nat} (hmem : t.mem = s.mem) (hdies : t.diesOf p = s.diesOf p) : t.ctxGroups p a = s.ctxGroups p a := by
  unfold Dev.ctxGroups Dev.reader
  rw [hmem, hdies]

section
variable (s : Dev) (p a : Nat) (xs : List Nat)

theorem Dev.inHbm_withUe : ({ s with ue := xs } : Dev).inHbm p a = s.inHbm p a := rfl

theorem Dev.tilesInHbm_withUe (n : Nat) : ({ s with ue := xs } : Dev).tilesInHbm p a n = s.tilesInHbm p a n := by
  unfold Dev.tilesInHbm
  simp only [Dev.inHbm_withUe]

theorem Dev.reader_withUe : ({ s with ue := xs } : Dev).reader a = s.reader a := rfl

theorem Dev.ctxGroups_withUe : ({ s with ue := xs } : Dev).ctxGroups p a = s.ctxGroups p a := Dev.ctxGroups_congr rfl rfl

theorem Dev.ctab_withUe : ({ s with ue := xs } : Dev).ctab p = s.ctab p := rfl

theorem Dev.ctxFormatOk_withUe : ({ s with ue := xs } : Dev).ctxFormatOk p a = s.ctxFormatOk p a := by
  unfold Dev.ctxFormatOk
  simp only [Dev.ctxGroups_withUe, Dev.tilesInHbm_withUe, Dev.reader_withUe]
  rfl

theorem Dev.ctxMatches_withUe : ({ s with ue := xs } : Dev).ctxMatches p a = s.ctxMatches p a := by
  unfold Dev.ctxMatches
  simp only [Dev.ctxGroups_withUe, Dev.reader_withUe, Dev.ctab_withUe]
  rfl

theorem Dev.ctxCheck_withUe : ({ s with ue := xs } : Dev).ctxCheck p a = s.ctxCheck p a := by
  unfold Dev.ctxCheck
  rw [Dev.ctxFormatOk_withUe, Dev.ctxMatches_withUe]
  rfl

end

/-! ### The tiles of an image -/

/-- A number of `n` bytes of an image. -/
theorem Dev.reader_lt (s : Dev) (a o n : Nat) : s.reader a o n < 2 ^ (8 * n) :=
  lt_of_lt_of_eq (leNat_lt_two_pow (Memory.bytes s.mem (a + o) n)) (by rw [Memory.bytes_length])

/-- The events of a tile's failed use. -/
def TileEvent (code : Nat) : Prop := code = Ev.TILE_CHECK ∨ code = Ev.TILE_POISON

/-- The codes of a load's events. -/
def restoreCodes : List Nat := Ev.TILE_POISON :: Ev.TILE_CHECK :: portCodes

theorem sideCodes_restore : ∀ c ∈ sideCodes, c ∈ restoreCodes := by decide
theorem portCodes_restore : ∀ c ∈ portCodes, c ∈ restoreCodes := by decide

/-- What a load does on its way to what it shows: the side fields stay, and the events are those of its tiles and of its routing. -/
abbrev OnLoad (s t : Dev) : Prop := Aside sideFields restoreCodes s t

section
variable {s : Dev} {a code : Nat}

theorem TileEvent.mem_restoreCodes (h : TileEvent code) : code < 65536 ∧ code ∈ restoreCodes := by
  obtain rfl | rfl := h <;> decide

theorem Dev.tileFault_event (h : s.tileFault a = some code) : TileEvent code := by
  unfold Dev.tileFault at h
  split at h
  · cases h
  split at h
  · exact .inr (Option.some.inj h).symm
  split at h
  · cases h
  · exact .inl (Option.some.inj h).symm

theorem Dev.ctxFault_event {t : Nat} (h : s.ctxFault a t = some code) : TileEvent code := by
  unfold Dev.ctxFault at h
  dsimp only at h
  split at h
  · rename_i c hfault
    exact Option.some.inj h ▸ Dev.tileFault_event hfault
  split at h
  · cases h
  split at h
  · exact .inr (Option.some.inj h).symm
  split at h
  · cases h
  · exact .inl (Option.some.inj h).symm

theorem Dev.firstBad_event {ts : List Nat} {t : Nat} (h : s.firstBad a ts = some (t, code)) : TileEvent code := by
  obtain ⟨x, -, hx⟩ := List.exists_of_findSome?_eq_some h
  obtain ⟨c, hfault, hpair⟩ := Option.map_eq_some_iff.1 hx
  obtain ⟨-, rfl⟩ := Prod.mk.inj hpair
  exact Dev.ctxFault_event hfault

theorem Dev.firstBad_none {ts : List Nat} (h : ∀ t, s.ctxFault a t = none) : s.firstBad a ts = none :=
  List.findSome?_eq_none_iff.2 fun t _ => by rw [h t]; rfl

end

section
variable (s : Dev) (p a : Nat)

theorem OnLoad.useFailedAs {code : Nat} (h : TileEvent code) (core : Option Nat) (fpc at_ e g : Nat) :
    OnLoad s (s.useFailedAs p p code core fpc at_ e g) :=
  (Beside.useFailedAs s p p code core fpc at_ e g h.mem_restoreCodes sideCodes_restore).aside

theorem OnLoad.hbmErrors (tiles : List Nat) : OnLoad s (s.hbmErrors tiles) := ((Beside.hbmErrors s tiles).mono sideCodes_restore).aside

theorem OnLoad.ctxFailed {code : Nat} (h : TileEvent code) (t : Nat) : OnLoad s (s.ctxFailed p a t code) := by
  unfold Dev.ctxFailed
  dsimp only
  split
  · exact (OnLoad.hbmErrors s _).trans (OnLoad.useFailedAs _ p h none 0 _ _ _)
  · exact (OnLoad.hbmErrors s _).trans (OnLoad.useFailedAs _ p h none 0 _ _ _)

theorem Dev.wrote_regs (n : Nat) : (s.wrote a n).regs = s.regs := by
  unfold Dev.wrote
  split <;> rfl

theorem Dev.wrote_chain (n : Nat) : (s.wrote a n).chain = s.chain := by
  unfold Dev.wrote
  split <;> rfl

theorem OnLoad.writeTile (bs : List Byte) (scr : Nat) : OnLoad s (s.writeTile a bs scr) :=
  Aside.of_regs (Dev.wrote_regs _ a _) (Dev.wrote_chain _ a _)

/-- Tensors are copied up to a tile whose use fails. -/
theorem OnLoad.copyTensors (ts : List (Nat × Nat)) :
    OnLoad s (s.copyTensors p a ts).1 ∧ ∀ code, (s.copyTensors p a ts).2 = some code → TileEvent code := by
  unfold Dev.copyTensors
  refine List.foldlRecOn ts _ (motive := fun acc : Dev × Option Nat => OnLoad s acc.1 ∧ ∀ code, acc.2 = some code → TileEvent code)
    ⟨Aside.refl s, fun _ h => nomatch h⟩ fun acc hacc t _ => ?_
  obtain ⟨hside, hevent⟩ := hacc
  dsimp only
  split
  · exact ⟨hside, hevent⟩
  split
  · rename_i code hfault
    have failed := Dev.ctxFault_event hfault
    exact ⟨hside.trans (OnLoad.ctxFailed acc.1 p a failed t.1), fun c h => Option.some.inj h ▸ failed⟩
  · exact ⟨hside.trans (OnLoad.writeTile acc.1 t.2 _ _), fun _ h => nomatch h⟩

end

/-! ### The fall-back state and the routing of an image -/

section
variable (s : Dev) (p : Nat)

theorem OnLoad.loadFallback (rd : Reader) : OnLoad s (s.loadFallback p rd) :=
  (Aside.setFld s Fld.FMT_BUDGET_USED p _ (by decide)).trans
    (Aside.each _ _ _ fun _ _ t => (Aside.setReg t .FMT_MON_STATE _ _ (by decide)).trans (Aside.setReg _ .FMT_MON_RVSTEP _ _ (by decide)))

theorem OnLoad.unloadRoutes (fab : Fabric) : OnLoad s (s.unloadRoutes p fab) :=
  Aside.each s _ _ fun _ _ t => Aside.each t _ _ fun _ _ u => Aside.setFld u Fld.FAB_RT_VALID _ _ (by decide)

theorem OnLoad.setGroups (g : Groups) : OnLoad s (s.setGroups p g) :=
  ((Aside.setReg s .GRP_SCOPE p _ (by decide)).trans (Aside.setReg _ .GRP_STAT p 0 (by decide))).trans
    (Aside.each _ _ _ fun _ _ t => Aside.setReg t .GRP_G _ _ (by decide))

theorem OnLoad.setRevision (dig : Option (List Byte)) : OnLoad s (s.setRevision p dig) :=
  (Aside.setFld s Fld.FAB_STAT_REV p _ (by decide)).trans (Aside.each _ _ _ fun _ _ t => Aside.setReg t .FAB_REVDIGEST _ _ (by decide))

theorem OnLoad.comparison (was : List Nat) : OnLoad s (s.comparison p was) := ((Beside.comparison s p was).mono portCodes_restore).aside

theorem OnLoad.installRouting (a : Nat) : OnLoad s (s.installRouting p a) := by
  unfold Dev.installRouting
  split
  · rename_i pl fab g _ _
    exact ((((((OnLoad.unloadRoutes s p pl.fabric).trans (Aside.setPart _ p _)).trans (OnLoad.setGroups _ p g)).trans
      (Beside.loadRoutes _ p fab).aside).trans (OnLoad.setRevision _ p _)).trans (OnLoad.comparison _ p _))
  · exact Aside.refl s

end
end Sys2Proof.Machine
end

section
/-!
PROOF. What RESTORE's load of an image leaves (R339 step 5).
-/
namespace Sys2Proof.Machine

/-- The load's first write: whether the last flip was carried out is not in doubt any more. -/
def Dev.certain (s : Dev) (p : Nat) : Dev := s.setFld Fld.STEP_STAT_UNCERT p 0

/-- A restore that a failed use of a tile has ended. -/
def Dev.restoreLost (s : Dev) (p code : Nat) : Dev := (s.setFld Fld.CTX_STAT_STATE p 3).setFld Fld.CTX_STAT_ERR p code

/-- The front copies, the fall-back state and the routing of an image in force. -/
def Dev.contextPlaced (s : Dev) (p a : Nat) (rd : Reader) : Dev := ((s.setFld Fld.STEP_STAT_FRONT p 0).loadFallback p rd).installRouting p a

/-- The step, the stream and the state of a restore shown that goes on to its lanes. -/
def Dev.restoreShown (s : Dev) (p a : Nat) (rd : Reader) : Dev :=
  let s := ((s.setFld Fld.STEP_CTR_STEP p (rd 40 5)).setFld Fld.STEP_STREAM_STREAM p (rd 48 2)).setFld Fld.STEP_STAT_LIMIT p 0
  (s.setFld Fld.CTX_STAT_STATE p 1).setPart p { s.part p with restoring := some a }

/-- An image loaded but for its lanes. -/
def Dev.contextLoaded (s : Dev) (p a : Nat) (rd : Reader) : Dev := (s.contextPlaced p a rd).restoreShown p a rd

section
variable (s : Dev) (p a : Nat)

theorem Dev.ctxLoad_cases :
    (∃ t code, OnLoad (s.certain p) t ∧ TileEvent code ∧ s.ctxLoad p a = t.restoreLost p code) ∨
    (∃ t, OnLoad (s.certain p) t ∧ s.ctxLoad p a = t.contextLoaded p a (s.reader a)) := by
  unfold Dev.ctxLoad
  dsimp only
  split
  · rename_i t code hbad
    have failed := Dev.firstBad_event hbad
    exact .inl ⟨_, code, OnLoad.ctxFailed (s.certain p) p a failed t, failed, rfl⟩
  · obtain ⟨copied, event⟩ := OnLoad.copyTensors (s.certain p) p a
      (((((s.certain p).ctab p).flatMap fun e => (List.range e.tiles).map fun i => e.copy0 + i * tileSize).zipIdx.map
        fun d => ((ctxSect (s.reader a) 4).off + d.2, d.1)))
    split
    · rename_i code hcode
      exact .inl ⟨_, code, copied, event code hcode, rfl⟩
    · exact .inr ⟨_, copied, rfl⟩

/-- An image of no tensors whose tiles can be used is loaded. -/
theorem Dev.ctxLoad_empty (hctab : s.ctab p = []) (hfault : ∀ t, s.ctxFault a t = none) :
    s.ctxLoad p a = (s.certain p).contextLoaded p a (s.reader a) := by
  have hnone : ∀ ts, (s.certain p).firstBad a ts = none := fun _ => Dev.firstBad_none hfault
  have hempty : (s.certain p).ctab p = [] := by
    unfold Dev.ctab Dev.certain
    rw [Dev.reg_setFld_kind _ _ _ _ _ _ (by decide)]
    exact hctab
  unfold Dev.certain at *
  unfold Dev.ctxLoad
  simp only [hnone, hempty]
  rfl

end

/-! ### The outcomes -/

/-- What RESTORE leaves of an image that passed its checks. -/
structure ContextTaken (p : Nat) (t : Dev) : Prop where
  certain : t.flag Fld.STEP_STAT_UNCERT p = false
  state : t.fld Fld.CTX_STAT_STATE p = 1 ∨ (t.fld Fld.CTX_STAT_STATE p = 3 ∧ TileEvent (t.fld Fld.CTX_STAT_ERR p))

/-- An image loaded but for its lanes, as the registers show it. -/
structure ContextLoaded (p a : Nat) (rd : Reader) (t : Dev) : Prop where
  state : t.fld Fld.CTX_STAT_STATE p = 1
  restoring : (t.part p).restoring = some a
  step : t.step p = rd 40 5 % 2 ^ 40
  stream : t.fld Fld.STEP_STREAM_STREAM p = rd 48 2 % 2 ^ 16
  front : t.fld Fld.STEP_STAT_FRONT p = 0
  limit : t.flag Fld.STEP_STAT_LIMIT p = false

section
variable {p a : Nat} {rd : Reader} {t : Dev} {xs : List Nat}

theorem ContextTaken.withUe (h : ContextTaken p t) : ContextTaken p { t with ue := xs } := ⟨h.certain, h.state⟩

theorem ContextLoaded.withUe (h : ContextLoaded p a rd t) : ContextLoaded p a rd { t with ue := xs } :=
  ⟨h.state, h.restoring, h.step, h.stream, h.front, h.limit⟩

end

section
variable (s : Dev) (p a : Nat) (rd : Reader)

theorem Dev.restoreShown_fld (f : Fld) (h : [Fld.STEP_CTR_STEP, Fld.STEP_STREAM_STREAM, Fld.STEP_STAT_LIMIT, Fld.CTX_STAT_STATE].all f.apart = true) :
    (s.restoreShown p a rd).fld f p = s.fld f p := by
  simp only [List.all_cons, List.all_nil, Bool.and_true, Bool.and_eq_true] at h
  obtain ⟨hstep, hstream, hlimit, hstate⟩ := h
  exact (Dev.fld_setFld_of_apart _ p p 1 (by decide) hstate).trans ((Dev.fld_setFld_of_apart _ p p 0 (by decide) hlimit).trans
    ((Dev.fld_setFld_of_apart _ p p _ (by decide) hstream).trans (Dev.fld_setFld_of_apart _ p p _ (by decide) hstep)))

theorem Dev.flag_of_zero {s : Dev} {f : Fld} {i : Nat} (h : s.fld f i = 0) : s.flag f i = false := by
  rw [Dev.flag, h]
  rfl

theorem OnLoad.contextPlaced : OnLoad (s.setFld Fld.STEP_STAT_FRONT p 0) (s.contextPlaced p a rd) :=
  (OnLoad.loadFallback _ p rd).trans (OnLoad.installRouting _ p a)

theorem ContextLoaded.contextLoaded : ContextLoaded p a rd (s.contextLoaded p a rd) := by
  have placed := OnLoad.contextPlaced s p a rd
  have hfront := (placed.fld Fld.STEP_STAT_FRONT (by decide) p).trans (Dev.fld_setFld_self s Fld.STEP_STAT_FRONT p 0 (by decide))
  unfold Dev.contextLoaded
  generalize s.contextPlaced p a rd = t at hfront
  have unstated : ∀ (u : Dev) (f : Fld), f.reg ≠ .CTX_STAT → (u.setFld Fld.CTX_STAT_STATE p 1).fld f p = u.fld f p := fun u f h =>
    Dev.fld_setFld_kind u _ f p p 1 h
  have unlimited : ∀ (u : Dev) (f : Fld), f.reg ≠ .STEP_STAT → (u.setFld Fld.STEP_STAT_LIMIT p 0).fld f p = u.fld f p := fun u f h =>
    Dev.fld_setFld_kind u _ f p p 0 h
  refine ⟨Dev.fld_setFld_self _ Fld.CTX_STAT_STATE p 1 (by decide), congrArg Part.restoring (Dev.setPart_self _ p _), ?_, ?_, ?_, ?_⟩
  · exact (unstated _ _ (by decide)).trans ((unlimited _ _ (by decide)).trans
      ((Dev.fld_setFld_kind _ _ _ p p _ (by decide)).trans (Dev.fld_setFld_self t Fld.STEP_CTR_STEP p _ (by decide))))
  · exact (unstated _ _ (by decide)).trans ((unlimited _ _ (by decide)).trans (Dev.fld_setFld_self _ Fld.STEP_STREAM_STREAM p _ (by decide)))
  · exact (Dev.restoreShown_fld t p a rd _ (by decide)).trans hfront
  · exact Dev.flag_of_zero ((unstated _ _ (by decide)).trans (Dev.fld_setFld_self _ Fld.STEP_STAT_LIMIT p 0 (by decide)))

theorem ContextTaken.restoreLost {code : Nat} (hcertain : s.fld Fld.STEP_STAT_UNCERT p = 0) (h : TileEvent code) : ContextTaken p (s.restoreLost p code) := by
  have herr : (s.restoreLost p code).fld Fld.CTX_STAT_ERR p = code :=
    (Dev.fld_setFld_self _ Fld.CTX_STAT_ERR p code (by decide)).trans (Nat.mod_eq_of_lt h.mem_restoreCodes.1)
  have hstate : (s.restoreLost p code).fld Fld.CTX_STAT_STATE p = 3 :=
    (Dev.fld_setFld_of_apart _ p p code (by decide) (by decide)).trans (Dev.fld_setFld_self s Fld.CTX_STAT_STATE p 3 (by decide))
  have hkept : (s.restoreLost p code).fld Fld.STEP_STAT_UNCERT p = 0 :=
    (Dev.fld_setFld_kind _ _ _ p p code (by decide)).trans ((Dev.fld_setFld_kind s _ _ p p 3 (by decide)).trans hcertain)
  exact ⟨Dev.flag_of_zero hkept, .inr ⟨hstate, by rw [herr]; exact h⟩⟩

theorem ContextTaken.contextLoaded (hcertain : s.fld Fld.STEP_STAT_UNCERT p = 0) : ContextTaken p (s.contextLoaded p a rd) := by
  have hkept : (s.contextLoaded p a rd).fld Fld.STEP_STAT_UNCERT p = 0 :=
    (Dev.restoreShown_fld _ p a rd _ (by decide)).trans (((OnLoad.contextPlaced s p a rd).fld _ (by decide) p).trans
      ((Dev.fld_setFld_of_apart s p p 0 (by decide) (by decide)).trans hcertain))
  exact ⟨Dev.flag_of_zero hkept, .inl (ContextLoaded.contextLoaded s p a rd).state⟩

theorem ContextTaken.ctxLoad : ContextTaken p (s.ctxLoad p a) := by
  have hcertain : (s.certain p).fld Fld.STEP_STAT_UNCERT p = 0 := Dev.fld_setFld_self s Fld.STEP_STAT_UNCERT p 0 (by decide)
  have kept : ∀ t, OnLoad (s.certain p) t → t.fld Fld.STEP_STAT_UNCERT p = 0 := fun t h => (h.fld _ (by decide) p).trans hcertain
  obtain ⟨t, code, hside, hevent, heq⟩ | ⟨t, hside, heq⟩ := s.ctxLoad_cases p a
  · exact heq ▸ ContextTaken.restoreLost t p (kept t hside) hevent
  · exact heq ▸ ContextTaken.contextLoaded t p a _ (kept t hside)

end

/-! ### RESTORE -/

theorem RestoreFree.reading {s : Dev} {p : Nat} (h : RestoreFree s p) (ue : List (BitVec 52)) : RestoreFree (s.reading ue) p :=
  ⟨⟨h.plan, h.running, h.drain⟩, h.idle, h.bridges⟩

section
variable {s : State} {port : HostPort} (hserves : s.dev.servesPart port.val)
include hserves

theorem exec_ctxRestore_eq (ue : List (BitVec 52)) :
    exec (.ctxRestore port ue) s = ok s { (s.dev.reading ue).ctxRestore (s.dev.partOf port.val) with ue := [] } :=
  congrArg (ok s) (Dev.partGate_eq hserves _)

variable (hfree : RestoreFree s.dev (s.dev.partOf port.val))
include hfree

theorem exec_ctxRestore_fails (ue : List (BitVec 52)) {code : Nat}
    (hcheck : s.dev.ctxCheck (s.dev.partOf port.val) (s.dev.fld Fld.CTX_RADDR_ADDR (s.dev.partOf port.val)) = some code) :
    leadsTo (exec (.ctxRestore port ue) s) (fun t => RestoreFailed s.dev (s.dev.partOf port.val) code t.dev ∧ t.flash = s.flash) := by
  have hfails := Dev.ctxRestore_fails (s := s.dev.reading ue) (hfree.reading ue) ((Dev.ctxCheck_withUe s.dev _ _ _).trans hcheck)
  rw [exec_ctxRestore_eq hserves, hfails]
  exact leadsTo_of_dev rfl ⟨(RestoreFailed.ctxFail (Dev.ctxCheck_code hcheck)).withUe, rfl⟩

variable (hcheck : s.dev.ctxCheck (s.dev.partOf port.val) (s.dev.fld Fld.CTX_RADDR_ADDR (s.dev.partOf port.val)) = none)
include hcheck

theorem exec_ctxRestore_loads (ue : List (BitVec 52)) : exec (.ctxRestore port ue) s =
    ok s { (s.dev.reading ue).ctxLoad (s.dev.partOf port.val) (s.dev.fld Fld.CTX_RADDR_ADDR (s.dev.partOf port.val)) with ue := [] } := by
  rw [exec_ctxRestore_eq hserves]
  exact congrArg (fun d : Dev => ok s { d with ue := [] })
    (Dev.ctxRestore_loads (s := s.dev.reading ue) (hfree.reading ue) ((Dev.ctxCheck_withUe s.dev _ _ _).trans hcheck))

theorem exec_ctxRestore_taken (ue : List (BitVec 52)) :
    leadsTo (exec (.ctxRestore port ue) s) (fun t => ContextTaken (s.dev.partOf port.val) t.dev ∧ t.flash = s.flash) := by
  rw [exec_ctxRestore_loads hserves hfree hcheck]
  exact leadsTo_of_dev rfl ⟨ContextTaken.withUe (ContextTaken.ctxLoad _ _ _), rfl⟩

theorem exec_ctxRestore_loaded (ue : List (BitVec 52)) (hctab : s.dev.ctab (s.dev.partOf port.val) = [])
    (hfault : ∀ t, (s.dev.reading ue).ctxFault (s.dev.fld Fld.CTX_RADDR_ADDR (s.dev.partOf port.val)) t = none) :
    leadsTo (exec (.ctxRestore port ue) s) (fun t =>
      ContextLoaded (s.dev.partOf port.val) (s.dev.fld Fld.CTX_RADDR_ADDR (s.dev.partOf port.val))
        (s.dev.reader (s.dev.fld Fld.CTX_RADDR_ADDR (s.dev.partOf port.val))) t.dev ∧ t.flash = s.flash) := by
  rw [exec_ctxRestore_loads hserves hfree hcheck, Dev.ctxLoad_empty (s.dev.reading ue) _ _ hctab hfault]
  exact leadsTo_of_dev rfl ⟨ContextLoaded.withUe (ContextLoaded.contextLoaded _ _ _ _), rfl⟩

end

end Sys2Proof.Machine
end

section
/-!
PROOF. CTX_RESTORE_COMPLETE: the lanes of a restore without skew (R340), and the obligation (O36).
-/
namespace Sys2Proof.Machine

/-! ### The lane records of an image -/

/-- The lane that record `l` of plan core `i` holds, in a LANES section at `lo`. -/
def ctxLane (rd : Reader) (lo i l : Nat) : Lane :=
  ⟨BitVec.ofNat 96 (rd (lo + 1024 * i + 32 * l + 4) 12), BitVec.ofNat 48 (rd (lo + 1024 * i + 32 * l + 16) 6)⟩

/-- A record without skew: it has no position, or the position of its count. -/
def laneEven (rd : Reader) (lo i l : Nat) : Prop :=
  rd (lo + 1024 * i + 32 * l + 24) 6 = 0xFFFFFFFFFFFF ∨ rd (lo + 1024 * i + 32 * l + 24) 6 = rd (lo + 1024 * i + 32 * l + 16) 6

/-- What the records of plan core `i` load. -/
def laneRecords (align : Bool) (rd : Reader) (lo i : Nat) : List (Option (Lane × Bool)) :=
  (List.range 32).map fun l =>
    restoreLane align (rd (lo + 1024 * i + 32 * l + 4) 12) (rd (lo + 1024 * i + 32 * l + 16) 6) (rd (lo + 1024 * i + 32 * l + 24) 6)

/-- Lanes with those that records load. -/
def lanesFrom (m : SMap Lane) (rs : List (Option (Lane × Bool))) : SMap Lane :=
  rs.zipIdx.foldl (fun (m : SMap Lane) q => match q.1 with
    | some (v, _) => SMap.write {} m q.2 v
    | none => m) m

/-- Lanes with the first 32 of them `g`. -/
def lanesSet (m : SMap Lane) (g : Nat → Lane) : SMap Lane := (List.range 32).foldl (fun m l => SMap.write {} m l (g l)) m

/-- A core with lanes, committed as they are. -/
def Core.withLanes (x : Core) (m : SMap Lane) : Core := { x with lanes := m, committed := m }

/-- Plan core `i` of an image with the lanes that its records hold. -/
def Core.restored (x : Core) (rd : Reader) (lo i : Nat) : Core := x.withLanes (lanesSet x.lanes (ctxLane rd lo i))

/-- The records of one plan core loaded, their skews and backsteps counted. -/
def Dev.restoreCore (align : Bool) (rd : Reader) (lo : Nat) (acc : Dev × Nat × Nat) (c : PlanCore × Nat) : Dev × Nat × Nat :=
  let rs := laneRecords align rd lo c.2
  (acc.1.setCore c.1.core ((acc.1.core c.1.core).withLanes (lanesFrom (acc.1.core c.1.core).lanes rs)),
    acc.2.1 + (rs.filter (fun q => q.isNone)).length, acc.2.2 + (rs.filter (fun q => q.any (fun v => v.2))).length)

section
variable {align : Bool} {rd : Reader} {lo i : Nat}

theorem restoreLane_even {l : Nat} (h : laneEven rd lo i l) :
    restoreLane align (rd (lo + 1024 * i + 32 * l + 4) 12) (rd (lo + 1024 * i + 32 * l + 16) 6) (rd (lo + 1024 * i + 32 * l + 24) 6) =
      some (ctxLane rd lo i l, false) := by
  unfold restoreLane
  dsimp only
  rw [if_pos (h.imp_right Eq.symm)]
  rfl

theorem laneRecords_even (h : ∀ l, l < 32 → laneEven rd lo i l) :
    laneRecords align rd lo i = (List.range 32).map fun l => some (ctxLane rd lo i l, false) :=
  List.map_congr_left fun l hl => restoreLane_even (h l (List.mem_range.1 hl))

theorem lanesFrom_range (m : SMap Lane) (g : Nat → Lane) : lanesFrom m ((List.range 32).map fun l => some (g l, false)) = lanesSet m g := by
  have hzip : ((List.range 32).map fun l => some (g l, false)).zipIdx = (List.range 32).map fun l => (some (g l, false), l) := by
    refine List.ext_getElem (by simp) fun n h1 h2 => ?_
    simp
  unfold lanesFrom lanesSet
  rw [hzip, List.foldl_map]

theorem lanesSet_lane (m : SMap Lane) (g : Nat → Lane) {l : Nat} (h : l < 32) : SMap.read {} (lanesSet m g) l = g l := by
  unfold lanesSet
  rw [SMap.read_foldl_write, if_pos (List.mem_range.2 h)]

/-- Records without skew load one core's lanes, and count nothing. -/
theorem Dev.restoreCore_even (s : Dev) (c : PlanCore × Nat) (h : ∀ l, l < 32 → laneEven rd lo c.2 l) :
    Dev.restoreCore align rd lo (s, 0, 0) c = (s.setCore c.1.core ((s.core c.1.core).restored rd lo c.2), 0, 0) := by
  have hskew : (((List.range 32).map fun l => some (ctxLane rd lo c.2 l, false)).filter fun q => q.isNone) = [] := by
    simp [List.filter_eq_nil_iff]
  have hback : (((List.range 32).map fun l => some (ctxLane rd lo c.2 l, false)).filter fun q => q.any fun v => v.2) = [] := by
    simp [List.filter_eq_nil_iff]
  unfold Dev.restoreCore
  dsimp only
  rw [laneRecords_even h, lanesFrom_range, hskew, hback]
  rfl

end

/-! ### The lanes of every core -/

/-- The lanes of an image's plan cores loaded. -/
def Dev.lanesLoaded (s : Dev) (rd : Reader) (lo : Nat) (cs : List (PlanCore × Nat)) : Dev :=
  s.each cs fun c s => s.setCore c.1.core ((s.core c.1.core).restored rd lo c.2)

section
variable {align : Bool} {rd : Reader} {lo : Nat} {cs : List (PlanCore × Nat)}

theorem Dev.restoreCores_even (s : Dev) (h : ∀ c ∈ cs, ∀ l, l < 32 → laneEven rd lo c.2 l) :
    cs.foldl (Dev.restoreCore align rd lo) (s, 0, 0) = (s.lanesLoaded rd lo cs, 0, 0) := by
  induction cs generalizing s with
  | nil => rfl
  | cons c cs ih =>
    rw [List.foldl_cons, Dev.restoreCore_even s c (h c List.mem_cons_self), ih _ fun d hd => h d (List.mem_cons_of_mem c hd)]
    rfl

theorem Dev.lanesLoaded_core_ne (s : Dev) {c : Nat} (h : ∀ d ∈ cs, d.1.core ≠ c) : (s.lanesLoaded rd lo cs).core c = s.core c :=
  Dev.each_keeps (fun t => t.core c) cs _ (fun d hd _ => Dev.setCore_ne _ _ _ _ (h d hd).symm) s

theorem Dev.lanesLoaded_core (s : Dev) (hcs : (cs.map fun d => d.1.core).Nodup) {c : PlanCore × Nat} (hc : c ∈ cs) :
    ∃ x : Core, (s.lanesLoaded rd lo cs).core c.1.core = x.restored rd lo c.2 := by
  induction cs generalizing s with
  | nil => exact absurd hc List.not_mem_nil
  | cons d cs ih =>
    obtain ⟨hd, hrest⟩ := List.nodup_cons.1 hcs
    obtain rfl | hin := List.mem_cons.1 hc
    · exact ⟨s.core c.1.core, (Dev.lanesLoaded_core_ne _ fun e he heq => hd (List.mem_map.2 ⟨e, he, heq⟩)).trans (Dev.setCore_self _ _ _)⟩
    · exact ih _ hrest hin

/-- A restore's end, by the skews and the backsteps that its lanes counted. -/
def Dev.restoreCounted (p : Nat) (r : Dev × Nat × Nat) : Dev :=
  let s := (r.1.raiseN p Ev.RESTORE_ALIGNED r.2.2).raiseN p Ev.RESTORE_SKEW r.2.1
  let s := s.setPart p { s.part p with restoring := none }
  let s := if r.2.1 = 0 then s else s.setFld Fld.CTX_STAT_ERR p Ev.RESTORE_SKEW
  (s.setFld Fld.CTX_STAT_ALIGNED p (b2n (r.2.2 != 0))).setFld Fld.CTX_STAT_STATE p (if r.2.1 = 0 then 2 else 3)

/-- Partition `p` after the lanes of its restore, none of them skewed or backstepped. -/
def Dev.restoreEnded (s : Dev) (p : Nat) : Dev :=
  ((s.setPart p { s.part p with restoring := none }).setFld Fld.CTX_STAT_ALIGNED p 0).setFld Fld.CTX_STAT_STATE p 2

theorem Dev.restoreCounted_none (s : Dev) (p : Nat) : Dev.restoreCounted p (s, 0, 0) = s.restoreEnded p := by
  unfold Dev.restoreCounted Dev.restoreEnded Dev.raiseN
  simp only [if_pos]
  rfl

theorem Dev.ctxLanes_even (s : Dev) {p b : Nat} {pl : Plan} (hplan : (s.part p).plan = some pl) (hrest : (s.part p).restoring = some b)
    (h : ∀ i l, i < pl.cores.length → l < 32 → laneEven (s.reader b) (ctxSect (s.reader b) 1).lo i l) :
    s.ctxLanes p = (s.lanesLoaded (s.reader b) (ctxSect (s.reader b) 1).lo pl.cores.zipIdx).restoreEnded p := by
  have hfold := Dev.restoreCores_even (align := s.flag Fld.CTX_CTL_ALIGN p) s (cs := pl.cores.zipIdx) (rd := s.reader b)
    (lo := (ctxSect (s.reader b) 1).lo) fun c hc l => h c.2 l (by simpa using (List.mem_zipIdx hc).2.1)
  unfold Dev.ctxLanes
  simp only [hplan, hrest]
  refine Eq.trans ?_ ((congrArg (Dev.restoreCounted p) hfold).trans (Dev.restoreCounted_none _ p))
  rfl

theorem Dev.restoreEnded_core (s : Dev) (p c : Nat) : (s.restoreEnded p).core c = s.core c := rfl

theorem Dev.restoreEnded_restoring (s : Dev) (p : Nat) : ((s.restoreEnded p).part p).restoring = none := congrArg Part.restoring (Dev.setPart_self s p _)

theorem Dev.restoreEnded_state (s : Dev) (p : Nat) : (s.restoreEnded p).fld Fld.CTX_STAT_STATE p = 2 := Dev.fld_setFld_self _ Fld.CTX_STAT_STATE p 2 (by decide)

theorem Dev.restoreEnded_aligned (s : Dev) (p : Nat) : (s.restoreEnded p).flag Fld.CTX_STAT_ALIGNED p = false :=
  Dev.flag_of_zero ((Dev.fld_setFld_of_apart _ p p 2 (by decide) (by decide)).trans (Dev.fld_setFld_self _ Fld.CTX_STAT_ALIGNED p 0 (by decide)))

end

/-! ### RESTORE_COMPLETE -/

/-- A restore that is complete, with the plan cores' lanes as the records at `lo` hold them. -/
structure RestoreDone (s : Dev) (p : Nat) (cores : List PlanCore) (rd : Reader) (lo : Nat) (t : Dev) : Prop where
  state : t.fld Fld.CTX_STAT_STATE p = 2
  aligned : t.flag Fld.CTX_STAT_ALIGNED p = false
  restoring : (t.part p).restoring = none
  lanes : ∀ i c, cores[i]? = some c → (t.core c.core).committed = (t.core c.core).lanes ∧
    ∀ l, l < 32 → SMap.read {} (t.core c.core).lanes l = ctxLane rd lo i l
  others : ∀ c, c ∉ cores.map (fun c => c.core) → t.core c = s.core c

theorem RestoreDone.lanesLoaded (s : Dev) (p : Nat) {cores : List PlanCore} (rd : Reader) (lo : Nat) (hcores : (cores.map fun c => c.core).Nodup) :
    RestoreDone s p cores rd lo ((s.lanesLoaded rd lo cores.zipIdx).restoreEnded p) := by
  have hkeys : (cores.zipIdx.map fun d => d.1.core) = cores.map fun c => c.core := by
    conv_rhs => rw [← List.zipIdx_map_fst 0 cores, List.map_map]
    rfl
  refine ⟨Dev.restoreEnded_state _ p, Dev.restoreEnded_aligned _ p, Dev.restoreEnded_restoring _ p, fun i c hc => ?_, fun c hc => ?_⟩
  · have hmem : (c, i) ∈ cores.zipIdx := List.mem_zipIdx_iff_getElem?.2 hc
    obtain ⟨x, hx⟩ := Dev.lanesLoaded_core s (rd := rd) (lo := lo) (hkeys ▸ hcores) hmem
    rw [Dev.restoreEnded_core, hx]
    exact ⟨rfl, fun l hl => lanesSet_lane x.lanes _ hl⟩
  · rw [Dev.restoreEnded_core]
    exact Dev.lanesLoaded_core_ne s fun d hd heq => hc (hkeys ▸ List.mem_map.2 ⟨d, hd, heq⟩)

theorem exec_ctxRestoreComplete_even {s : State} {die : DieId} {pl : Plan} {b : Nat} (hplan : (s.dev.part die.val).plan = some pl)
    (hrest : (s.dev.part die.val).restoring = some b) (hcores : (pl.cores.map fun c => c.core).Nodup)
    (h : ∀ i l, i < pl.cores.length → l < 32 → laneEven (s.dev.reader b) (ctxSect (s.dev.reader b) 1).lo i l) :
    leadsTo (exec (.ctxRestoreComplete die) s) (fun t =>
      RestoreDone s.dev die.val pl.cores (s.dev.reader b) (ctxSect (s.dev.reader b) 1).lo t.dev ∧ t.flash = s.flash) :=
  leadsTo_of_dev (congrArg (ok s) (Dev.ctxLanes_even s.dev hplan hrest h)) ⟨RestoreDone.lanesLoaded s.dev die.val _ _ hcores, rfl⟩

/-! ### The obligation -/

/-- Settles O36: a SAVE's drain holds the image of the state before it, a RESTORE's checks come before its first write, and what its load does on the way
leaves the fields it shows alone; lanes without skew are loaded core by core. -/
theorem contextsSavedAndRestored : Obligations.ContextsSavedAndRestored := by
  unfold Obligations.ContextsSavedAndRestored
  intro s port die p ready withUe a
  refine ⟨fun ue hready hhost hstate hports => ?_, fun ue hready hidle hbridge => ?_, fun pl b => ?_⟩
  · obtain ⟨hserves, hplan, hrun, hdrain⟩ := hready
    have hstep : s.dev.step p % 2 ^ 40 = s.dev.step p := Nat.mod_mod _ _
    refine leadsTo_of_dev (exec_ctxSave_eq hserves ⟨hplan, hrun, hdrain⟩ ue hhost hstate hports)
      ⟨Dev.drainBegun_state _ p _ _, (Dev.drainBegun_step _ p _ _).trans hstep, rfl, Dev.drainBegun_part _ p _ _, fun hue => ?_⟩
    subst hue
    exact ⟨congrArg (fun d : Dev => { d with ue := [] }) (Dev.drainBegun_clear (withUe []) p _ _ rfl), (Frame.drainBegun (withUe []) p _ _ rfl).withUe⟩
  · obtain ⟨hserves, hplan, hrun, hdrain⟩ := hready
    have hfree : RestoreFree s.dev p := ⟨⟨hplan, hrun, hdrain⟩, hidle, hbridge⟩
    refine ⟨fun code hcheck => ?_, fun hcheck => ?_, fun hcheck hctab hfault => ?_⟩
    · obtain ⟨t, ht, ⟨herr, hevent, frame⟩, hflash⟩ := exec_ctxRestore_fails hserves hfree ue hcheck
      exact ⟨t, ht, herr, hevent, hflash, frame⟩
    · obtain ⟨t, ht, ⟨hcertain, hstate⟩, hflash⟩ := exec_ctxRestore_taken hserves hfree hcheck ue
      exact ⟨t, ht, hcertain, hflash, hstate⟩
    · obtain ⟨t, ht, ⟨hstate, hrest, hstep, hstream, hfront, hlimit⟩, hflash⟩ := exec_ctxRestore_loaded hserves hfree hcheck ue hctab hfault
      exact ⟨t, ht, hstate, hrest, hstep.trans (Nat.mod_eq_of_lt (Dev.reader_lt _ _ _ 5)), hstream.trans (Nat.mod_eq_of_lt (Dev.reader_lt _ _ _ 2)),
        hfront, hlimit, hflash⟩
  · intro q rd lo at_ hplan hrest hcores heven
    obtain ⟨t, ht, ⟨hstate, haligned, hnone, hlanes, hothers⟩, hflash⟩ := exec_ctxRestoreComplete_even hplan hrest hcores heven
    exact ⟨t, ht, hstate, haligned, hnone, hflash, hlanes, hothers⟩

end Sys2Proof.Machine
end
